-- ==== Sys2Proof/Word.lean ====
section
/-!
DEFINITION. Word.lean: the widths, names and small alternatives the spec gives its operands, and one
structure for the operands of each shape of instruction (R104 to R117, 04; R126 to R130, 05). The
structures carry field names of R104: `d`, `a`, `b`, `c` for the register fields.
-/

namespace Sys2Proof

/-- One 64-bit word: an instruction word, an x register, an address (R104, R11). -/
abbrev Word := BitVec 64
/-- One byte of memory. -/
abbrev Byte := BitVec 8
/-- One 32-bit lane of a vector register (R11). -/
abbrev Lane := BitVec 32
/-- Number of an x register, x0 to x63 (R11). -/
abbrev XReg := BitVec 6
/-- Number of a v register, v0 to v31 (R11). -/
abbrev VReg := BitVec 5
/-- Number of a condition register, c0 to c7 (R11). -/
abbrev CReg := BitVec 3
/-- Number of a lane mask, k0 to k7 (R11). -/
abbrev KReg := BitVec 3
/-- Number of a handle, h0 to h7 (R11). -/
abbrev HReg := BitVec 3
/-- Number of an accumulator tile, z0 to z7 (R11). -/
abbrev ZReg := BitVec 3

/-- The seven scopes of R54, in the order of their codes. -/
inductive Scope where
  | strand | core | cluster | die | package | domain | system
  deriving DecidableEq, Repr

/-- The four order codes of R54. -/
inductive Order where
  | plain | acquire | release | acqRel
  deriving DecidableEq, Repr

/-- The modifier byte of an instruction that appends an item (R110): order, scope and handle. -/
structure Md where
  order : Order
  scope : Scope
  h : HReg
  deriving DecidableEq, Repr

/-- The guard of every instruction (R106): `neg` is QN, `c` is Q. -/
structure Guard where
  neg : Bool
  c : CReg
  deriving DecidableEq, Repr

/-- Element types of R79. -/
inductive ElemType where
  | i8 | n8 | i16 | n16 | i32 | n32 | f16 | bf16 | f32 | e4m3 | e5m2 | e2m1 | i4 | e8m0 | sc20
  deriving DecidableEq, Repr

/-- The integer element types of VIOP (R165). -/
inductive IntElem where
  | i8 | n8 | i16 | n16 | i32 | n32
  deriving DecidableEq, Repr

/-- The element types of VFOP (R166). -/
inductive FloatElem where
  | f16 | bf16 | f32
  deriving DecidableEq, Repr

/-- The types of VRED, VSCAN, VMOVI and ZBIAS (R172, R176, R201). -/
inductive RedElem where
  | i32 | n32 | f32
  deriving DecidableEq, Repr

/-- The operations of VRED and VSCAN (R172). -/
inductive RedOp where
  | add | min | max
  deriving DecidableEq, Repr

/-- The block-scale types of MMAS, VBDOT and VBDOTS (R129). -/
inductive ScaleType where
  | e4m3 | e5m2 | e8m0
  deriving DecidableEq, Repr

/-- The tile element types of MMA and MMAS (R128). -/
inductive MatType where
  | bf16 | f16 | e4m3 | e5m2 | e2m1 | i8 | n8
  deriving DecidableEq, Repr

/-- How an instruction that rounds names its mode: a mode of R81, or DYN, FPMODE.RM at issue (R111). -/
inductive Rnd where
  | dyn | rne | rtz | rdn | rup
  deriving DecidableEq, Repr

/-- Rounding of VCVT and VCVTSC: as `Rnd`, or .rs with its random-bits register (R168). -/
inductive CvtRnd where
  | fixed (r : Rnd)
  | rs (v : VReg)
  deriving DecidableEq, Repr

/-- The combine operation of CMP, CMPI and FCMP (R138). -/
inductive Comb where
  | set | and | or
  deriving DecidableEq, Repr

/-- Access sizes of 1, 2, 4 and 8 bytes (R127). -/
inductive Size where
  | s8 | s16 | s32 | s64
  deriving DecidableEq, Repr

/-- Width of a scalar floating-point operation (R143). -/
inductive FWidth where
  | f32 | f64
  deriving DecidableEq, Repr

/-- Integer types of FCVTI and FCVTF (R145). -/
inductive IntWidth where
  | i32 | n32 | i64 | n64
  deriving DecidableEq, Repr

/-- LD as written, with .spec, or with .ro (R186). -/
inductive LdMode where
  | plain | spec | ro
  deriving DecidableEq, Repr

/-- What TLBI removes (R159). -/
inductive TlbiKind where
  | page | space | all
  deriving DecidableEq, Repr

/-- A tile or barrier operand (R205): a number in IMM16, or an x register in C. -/
inductive TileRef where
  | imm (n : BitVec 8)
  | reg (c : XReg)
  deriving DecidableEq, Repr

/-- A layout-entry operand of LAYSET and LAYGET (R228). -/
inductive EntryRef where
  | imm (n : BitVec 6)
  | reg (c : XReg)
  deriving DecidableEq, Repr

/-- Operands of TRAP. -/
structure TrapOp where
  code : BitVec 16
  deriving DecidableEq, Repr

/-- Operands of SRD. -/
structure SrdOp where
  d : XReg
  n : BitVec 16
  deriving DecidableEq, Repr

/-- Operands of SWR. -/
structure SwrOp where
  a : XReg
  n : BitVec 16
  deriving DecidableEq, Repr

/-- Operands of FENCE, HJOINA. -/
structure ScopeOp where
  scope : Scope
  deriving DecidableEq, Repr

/-- Operands of FENCER. -/
structure RangeOp where
  a : XReg
  b : XReg
  scope : Scope
  deriving DecidableEq, Repr

/-- Operands of CHK, WAITI, JR, RET, PSETX, PARK, CPYABORT. -/
structure SrcX where
  a : XReg
  deriving DecidableEq, Repr

/-- Operands of XGETP. -/
structure DstX where
  d : XReg
  deriving DecidableEq, Repr

/-- Operands of CHKV. -/
structure ChkvOp where
  a : VReg
  m : KReg
  deriving DecidableEq, Repr

/-- Operands of TLBI. -/
structure TlbiOp where
  a : XReg
  b : XReg
  kind : TlbiKind
  deriving DecidableEq, Repr

/-- Operands of JMP. -/
structure JmpOp where
  off : BitVec 30
  deriving DecidableEq, Repr

/-- Operands of CALL. -/
structure CallOp where
  d : XReg
  off : BitVec 30
  deriving DecidableEq, Repr

/-- Operands of MOVL. -/
structure MovlOp where
  d : XReg
  lit : Word
  deriving DecidableEq, Repr

/-- Operands of CALLR, CPYSTAT. -/
structure X2 where
  d : XReg
  a : XReg
  deriving DecidableEq, Repr

/-- Operands of CLZ, CTZ, POP, BREV, BSWAP. -/
structure X2w where
  d : XReg
  a : XReg
  w : Bool
  deriving DecidableEq, Repr

/-- Operands of AND, OR, XOR, ANDN, ORN, SEXT, ZEXT. -/
structure X3 where
  d : XReg
  a : XReg
  b : XReg
  deriving DecidableEq, Repr

/-- Operands of ADD, SUB, SHL, SHR, SAR, ROL, ROR, MUL and others. -/
structure X3w where
  d : XReg
  a : XReg
  b : XReg
  w : Bool
  deriving DecidableEq, Repr

/-- Operands of BFX, BFI. -/
structure X4 where
  d : XReg
  a : XReg
  b : XReg
  c : XReg
  deriving DecidableEq, Repr

/-- Operands of MADD. -/
structure X4w where
  d : XReg
  a : XReg
  b : XReg
  c : XReg
  w : Bool
  deriving DecidableEq, Repr

/-- Operands of SEL. -/
structure SelOp where
  d : XReg
  a : XReg
  b : XReg
  k : CReg
  deriving DecidableEq, Repr

/-- Operands of IOPI_AND, IOPI_OR, IOPI_XOR. -/
structure XI where
  d : XReg
  a : XReg
  imm : BitVec 22
  deriving DecidableEq, Repr

/-- Operands of IOPI_ADD, IOPI_SHL, IOPI_SHR, IOPI_SAR, IOPI_ROL, IOPI_ROR, IOPI_MUL, IOPI_MIN and others. -/
structure XIw where
  d : XReg
  a : XReg
  imm : BitVec 22
  w : Bool
  deriving DecidableEq, Repr

/-- Operands of IOPI_SEXT, IOPI_ZEXT. -/
structure ExtI where
  d : XReg
  a : XReg
  p : BitVec 6
  deriving DecidableEq, Repr

/-- Operands of IOPI_BFX, IOPI_BFI. -/
structure BfI where
  d : XReg
  a : XReg
  p : BitVec 6
  n : BitVec 7
  deriving DecidableEq, Repr

/-- Operands of CMP_EQ, CMP_NE, CMP_LT, CMP_GE, CMP_LE, CMP_GT, CMP_LTN, CMP_GEN and others. -/
structure CmpOp where
  d : CReg
  a : XReg
  b : XReg
  comb : Comb
  w : Bool
  deriving DecidableEq, Repr

/-- Operands of CMPI_EQ, CMPI_NE, CMPI_LT, CMPI_GE, CMPI_LE, CMPI_GT, CMPI_LTN, CMPI_GEN and others. -/
structure CmpIOp where
  d : CReg
  a : XReg
  imm : BitVec 22
  comb : Comb
  w : Bool
  deriving DecidableEq, Repr

/-- Operands of MOVW, MOVK. -/
structure MovwOp where
  d : XReg
  slice : BitVec 2
  imm : BitVec 16
  deriving DecidableEq, Repr

/-- Operands of LEA. -/
structure LeaOp where
  d : XReg
  a : XReg
  b : XReg
  sh : BitVec 2
  disp : BitVec 16
  deriving DecidableEq, Repr

/-- Operands of PAND, POR, PXOR, PANDN. -/
structure C3 where
  d : CReg
  a : CReg
  b : CReg
  deriving DecidableEq, Repr

/-- Operands of PNOT. -/
structure C2 where
  d : CReg
  a : CReg
  deriving DecidableEq, Repr

/-- Operands of FADD, FSUB, FMUL, FDIV. -/
structure F3 where
  d : XReg
  a : XReg
  b : XReg
  fw : FWidth
  rnd : Rnd
  deriving DecidableEq, Repr

/-- Operands of FFMA. -/
structure F4 where
  d : XReg
  a : XReg
  b : XReg
  c : XReg
  fw : FWidth
  rnd : Rnd
  deriving DecidableEq, Repr

/-- Operands of FSQRT, FCVTW. -/
structure F2 where
  d : XReg
  a : XReg
  fw : FWidth
  rnd : Rnd
  deriving DecidableEq, Repr

/-- Operands of FMIN, FMAX. -/
structure F3n where
  d : XReg
  a : XReg
  b : XReg
  fw : FWidth
  deriving DecidableEq, Repr

/-- Operands of FABS, FNEG, FCLASS. -/
structure F2n where
  d : XReg
  a : XReg
  fw : FWidth
  deriving DecidableEq, Repr

/-- Operands of FCVTI, FCVTF. -/
structure FcvtOp where
  d : XReg
  a : XReg
  fw : FWidth
  rnd : Rnd
  it : IntWidth
  deriving DecidableEq, Repr

/-- Operands of FEQ, FLT, FLE, FUN. -/
structure FcmpOp where
  d : CReg
  a : XReg
  b : XReg
  fw : FWidth
  comb : Comb
  deriving DecidableEq, Repr

/-- Operands of LD. -/
structure LdOp where
  d : XReg
  a : XReg
  b : XReg
  disp : BitVec 16
  size : Size
  sext : Bool
  mode : LdMode
  md : Md
  deriving DecidableEq, Repr

/-- Operands of ST, TST. -/
structure StOp where
  d : XReg
  a : XReg
  b : XReg
  disp : BitVec 16
  size : Size
  md : Md
  deriving DecidableEq, Repr

/-- Operands of ATOM_XCHG, ATOM_ADD, ATOM_AND, ATOM_OR, ATOM_XOR, ATOM_MIN, ATOM_MAX, ATOM_MINN and others. -/
structure AtomOp where
  d : XReg
  a : XReg
  b : XReg
  disp : BitVec 16
  w64 : Bool
  md : Md
  deriving DecidableEq, Repr

/-- Operands of ATOM_CAS. -/
structure AtomCasOp where
  d : XReg
  a : XReg
  b : XReg
  disp : BitVec 16
  c : XReg
  w64 : Bool
  md : Md
  deriving DecidableEq, Repr

/-- Operands of ATOM_FADD, ATOM_FMIN, ATOM_FMAX. -/
structure AtomFOp where
  d : XReg
  a : XReg
  b : XReg
  disp : BitVec 16
  md : Md
  deriving DecidableEq, Repr

/-- Operands of VLD, VLDS, VLDB, VST, VSTS, TLDV, TLDVS, TSTV and others. -/
structure VMemOp where
  d : VReg
  a : XReg
  b : XReg
  disp : BitVec 16
  m : KReg
  md : Md
  deriving DecidableEq, Repr

/-- Operands of VGATHER, VSCATTER, VSCADD. -/
structure VgsOp where
  d : VReg
  a : XReg
  b : VReg
  disp : BitVec 16
  m : KReg
  md : Md
  deriving DecidableEq, Repr

/-- Operands of PREFETCH_DC, PREFETCH_CS. -/
structure PrefOp where
  a : XReg
  b : XReg
  disp : BitVec 16
  scope : Scope
  h : HReg
  deriving DecidableEq, Repr

/-- Operands of TLD. -/
structure TldOp where
  d : XReg
  a : XReg
  b : XReg
  disp : BitVec 16
  size : Size
  sext : Bool
  md : Md
  deriving DecidableEq, Repr

/-- Operands of MMA. -/
structure MmaOp where
  d : ZReg
  ta : MatType
  tb : MatType
  a : BitVec 8
  b : BitVec 8
  deriving DecidableEq, Repr

/-- Operands of MMA_REG. -/
structure MmaROp where
  d : ZReg
  ta : MatType
  tb : MatType
  a : XReg
  b : XReg
  deriving DecidableEq, Repr

/-- Operands of MMAS. -/
structure MmasOp where
  d : ZReg
  ta : MatType
  tb : MatType
  st : ScaleType
  a : BitVec 8
  b : BitVec 8
  c : XReg
  deriving DecidableEq, Repr

/-- Operands of MMAS_REG. -/
structure MmasROp where
  d : ZReg
  ta : MatType
  tb : MatType
  st : ScaleType
  a : XReg
  b : XReg
  c : XReg
  deriving DecidableEq, Repr

/-- Operands of ZZERO. -/
structure Z1 where
  d : ZReg
  deriving DecidableEq, Repr

/-- Operands of ZLD. -/
structure ZldOp where
  d : ZReg
  a : XReg
  deriving DecidableEq, Repr

/-- Operands of ZST. -/
structure ZstOp where
  z : ZReg
  a : XReg
  dt : ElemType
  st : ElemType
  rnd : Rnd
  sat : Bool
  col : BitVec 3
  deriving DecidableEq, Repr

/-- Operands of ZSTS. -/
structure ZstsOp where
  d : XReg
  z : ZReg
  a : XReg
  b : XReg
  dt : ElemType
  rnd : Rnd
  sat : Bool
  col : BitVec 3
  deriving DecidableEq, Repr

/-- Operands of ZBIAS. -/
structure ZbiasOp where
  d : ZReg
  b : VReg
  t : RedElem
  rnd : Rnd
  deriving DecidableEq, Repr

/-- Operands of TARM. -/
structure TarmOp where
  t : TileRef
  n : BitVec 6
  b : XReg
  deriving DecidableEq, Repr

/-- Operands of TWAIT. -/
structure TwaitOp where
  d : CReg
  t : TileRef
  scope : Scope
  deriving DecidableEq, Repr

/-- Operands of TTAKE, TMARK, TPOIS, TZERO. -/
structure TagOp where
  t : TileRef
  scope : Scope
  h : HReg
  deriving DecidableEq, Repr

/-- Operands of TSTAT. -/
structure TstatOp where
  d : XReg
  t : TileRef
  notify : Bool
  clr : Bool
  deriving DecidableEq, Repr

/-- Operands of TSCLS, BAREXP. -/
structure TagAOp where
  t : TileRef
  a : XReg
  scope : Scope
  h : HReg
  deriving DecidableEq, Repr

/-- Operands of TSCLG. -/
structure TsclgOp where
  d : XReg
  t : TileRef
  deriving DecidableEq, Repr

/-- Operands of TSEND. -/
structure SendOp where
  a : XReg
  b : XReg
  n : BitVec 13
  md : Md
  deriving DecidableEq, Repr

/-- Operands of TSENDV. -/
structure SendVOp where
  d : VReg
  b : XReg
  md : Md
  deriving DecidableEq, Repr

/-- Operands of TSENDX, RGPUT. -/
structure AbcOp where
  a : XReg
  b : XReg
  c : XReg
  md : Md
  deriving DecidableEq, Repr

/-- Operands of TNOTE, TRGMARK. -/
structure BmdOp where
  b : XReg
  md : Md
  deriving DecidableEq, Repr

/-- Operands of HFORK, HJOIN. -/
structure HforkOp where
  d : HReg
  s : HReg
  scope : Scope
  deriving DecidableEq, Repr

/-- Operands of HWAIT. -/
structure HwaitOp where
  s : HReg
  scope : Scope
  deriving DecidableEq, Repr

/-- Operands of HPASS. -/
structure HpassOp where
  s : HReg
  b : XReg
  scope : Scope
  deriving DecidableEq, Repr

/-- Operands of HRECV. -/
structure HrecvOp where
  d : HReg
  a : XReg
  scope : Scope
  deriving DecidableEq, Repr

/-- Operands of HCNT. -/
structure HcntOp where
  d : XReg
  s : HReg
  deriving DecidableEq, Repr

/-- Operands of BARINIT. -/
structure BarinitOp where
  t : TileRef
  a : XReg
  deriving DecidableEq, Repr

/-- Operands of BARARR. -/
structure BararrOp where
  d : XReg
  t : TileRef
  scope : Scope
  h : HReg
  deriving DecidableEq, Repr

/-- Operands of BARARX. -/
structure BararxOp where
  d : XReg
  t : TileRef
  a : XReg
  scope : Scope
  h : HReg
  deriving DecidableEq, Repr

/-- Operands of BARWAIT. -/
structure BarwaitOp where
  t : TileRef
  a : XReg
  scope : Scope
  deriving DecidableEq, Repr

/-- Operands of BARTRY. -/
structure BartryOp where
  d : CReg
  t : TileRef
  a : XReg
  scope : Scope
  deriving DecidableEq, Repr

/-- Operands of BARINV. -/
structure BarinvOp where
  t : TileRef
  deriving DecidableEq, Repr

/-- Operands of SPAWN. -/
structure SpawnOp where
  d : CReg
  a : XReg
  scope : Scope
  h : HReg
  deriving DecidableEq, Repr

/-- Operands of CPYGO. -/
structure CpygoOp where
  d : XReg
  a : XReg
  md : Md
  deriving DecidableEq, Repr

/-- Operands of LAYSET, LAYGET. -/
structure LayOp where
  e : EntryRef
  a : XReg
  deriving DecidableEq, Repr

/-- Operands of RGREAD. -/
structure RgreadOp where
  d : XReg
  b : XReg
  a : XReg
  c : XReg
  n : BitVec 13
  scope : Scope
  deriving DecidableEq, Repr

/-- Operands of RGPOS, TRGNEXT. -/
structure RgposOp where
  d : XReg
  b : XReg
  scope : Scope
  deriving DecidableEq, Repr

/-- Operands of TRGFWD, TRGACC. -/
structure TrgOp where
  d : XReg
  a : XReg
  b : XReg
  md : Md
  deriving DecidableEq, Repr

/-- Operands of TRGREJ. -/
structure TrgrejOp where
  a : XReg
  b : XReg
  md : Md
  deriving DecidableEq, Repr

/-- Operands of VADD, VSUB, VMUL, VMULH, VMADD, VAND, VOR, VXOR and others. -/
structure V3i where
  d : VReg
  a : VReg
  b : VReg
  m : KReg
  t : IntElem
  deriving DecidableEq, Repr

/-- Operands of VABS, VNEG, VPOP, VCLZ. -/
structure V2i where
  d : VReg
  a : VReg
  m : KReg
  t : IntElem
  deriving DecidableEq, Repr

/-- Operands of VFADD, VFSUB, VFMUL, VFFMA, VFFMS, VFDIV, VFSCL. -/
structure V3f where
  d : VReg
  a : VReg
  b : VReg
  m : KReg
  t : FloatElem
  rnd : Rnd
  deriving DecidableEq, Repr

/-- Operands of VFMIN, VFMAX. -/
structure V3fn where
  d : VReg
  a : VReg
  b : VReg
  m : KReg
  t : FloatElem
  deriving DecidableEq, Repr

/-- Operands of VFSQRT, VFRCP, VFRSQ, VFEXP2, VFLOG2. -/
structure V2f where
  d : VReg
  a : VReg
  m : KReg
  t : FloatElem
  rnd : Rnd
  deriving DecidableEq, Repr

/-- Operands of VFABS, VFNEG. -/
structure V2fn where
  d : VReg
  a : VReg
  m : KReg
  t : FloatElem
  deriving DecidableEq, Repr

/-- Operands of VCVT. -/
structure VcvtOp where
  d : VReg
  a : VReg
  m : KReg
  dt : ElemType
  st : ElemType
  rnd : CvtRnd
  sat : Bool
  part : BitVec 3
  kr : KReg
  deriving DecidableEq, Repr

/-- Operands of VCVTSC. -/
structure VcvtscOp where
  d : VReg
  a : VReg
  b : XReg
  m : KReg
  dt : ElemType
  st : ElemType
  rnd : CvtRnd
  sat : Bool
  part : BitVec 3
  kr : KReg
  deriving DecidableEq, Repr

/-- Operands of VPERM. -/
structure V3m where
  d : VReg
  a : VReg
  b : VReg
  m : KReg
  deriving DecidableEq, Repr

/-- Operands of VBCAST, VIOTA. -/
structure VxOp where
  d : VReg
  a : XReg
  m : KReg
  deriving DecidableEq, Repr

/-- Operands of VINS. -/
structure VinsOp where
  d : VReg
  a : XReg
  b : XReg
  deriving DecidableEq, Repr

/-- Operands of VEXT. -/
structure VextOp where
  d : XReg
  a : VReg
  b : XReg
  deriving DecidableEq, Repr

/-- Operands of VRED. -/
structure VredOp where
  d : XReg
  a : VReg
  m : KReg
  op : RedOp
  t : RedElem
  rnd : Rnd
  deriving DecidableEq, Repr

/-- Operands of VSCAN. -/
structure VscanOp where
  d : VReg
  a : VReg
  m : KReg
  op : RedOp
  t : RedElem
  rnd : Rnd
  deriving DecidableEq, Repr

/-- Operands of VCOMP, VEXPD, VMOV. -/
structure V2m where
  d : VReg
  a : VReg
  m : KReg
  deriving DecidableEq, Repr

/-- Operands of VSLIDE. -/
structure VslideOp where
  d : VReg
  a : VReg
  b : XReg
  m : KReg
  deriving DecidableEq, Repr

/-- Operands of VCMP_EQ, VCMP_NE, VCMP_LT, VCMP_GE, VCMP_LE, VCMP_GT, VCMP_LTN, VCMP_GEN and others. -/
structure VcmpOp where
  d : KReg
  a : VReg
  b : VReg
  m : KReg
  deriving DecidableEq, Repr

/-- Operands of VRAND. -/
structure VrandOp where
  d : VReg
  a : XReg
  b : VReg
  m : KReg
  deriving DecidableEq, Repr

/-- Operands of VMOVI. -/
structure VmoviOp where
  d : VReg
  imm : BitVec 21
  t : RedElem
  m : KReg
  deriving DecidableEq, Repr

/-- Operands of KAND, KOR, KXOR. -/
structure K3 where
  d : KReg
  a : KReg
  b : KReg
  deriving DecidableEq, Repr

/-- Operands of KNOT. -/
structure K2 where
  d : KReg
  a : KReg
  deriving DecidableEq, Repr

/-- Operands of KSETX. -/
structure KsetxOp where
  d : KReg
  a : XReg
  deriving DecidableEq, Repr

/-- Operands of KGETX, KPOP. -/
structure KgetxOp where
  d : XReg
  a : KReg
  deriving DecidableEq, Repr

/-- Operands of VBDOT. -/
structure VdotOp where
  d : VReg
  a : VReg
  b : VReg
  c : VReg
  st : ScaleType
  m : KReg
  deriving DecidableEq, Repr

/-- Operands of VBDOTS. -/
structure VdotsOp where
  d : XReg
  a : VReg
  b : VReg
  c : VReg
  st : ScaleType
  m : KReg
  deriving DecidableEq, Repr

end Sys2Proof
end

