-- ==== Sys2Proof/Config.lean ====
section
/-!
DEFINITION. Config.lean: what the spec leaves to a package, a board or a moment, as constants with no body. A
claim about the machine holds whatever they are.
-/

namespace Sys2Proof.Config

/-- A word that nothing constrains; the argument is the counter `free` of the state, which each use advances.
Left open by the spec: log entry 7 (DESIGN CHOICE). -/
opaque freeWord : Nat → BitVec 64

/-- The digest that Insole measures of its boot ROM, and that of the configuration: of the world bits, and of the secure
image area with its bytes that are not 0 (R405). Left open by the spec: log entry 8 (DESIGN CHOICE). -/
opaque romDigest : BitVec 512
/-- Left open by the spec: log entry 8 (DESIGN CHOICE). -/
opaque configDigest : List Bool → Nat × Nat → List (Nat × BitVec 8) → BitVec 512

/-- The digest of the fuse map and of the SRAM repair maps of the clusters (R406).
Left open by the spec: log entry 8 (DESIGN CHOICE). -/
opaque repairDigest : List (List (BitVec 8)) → BitVec 512

/-- What the flash holds at first, the key digest in the fuses, and whether a signature over a digest verifies by
ML-DSA-87 with a public key (R405). Left open by the spec: log entry 8 (DESIGN CHOICE). -/
opaque nysetImage : List (BitVec 8)
/-- Left open by the spec: log entry 8 (DESIGN CHOICE). -/
opaque fuseKeyDigest : BitVec 512
/-- Left open by the spec: log entry 8 (DESIGN CHOICE). -/
opaque verifies : List (BitVec 8) → List (BitVec 8) → List (BitVec 8) → Bool

/-- The package's serial number (R403). Left open by the spec: log entry 8 (DESIGN CHOICE). -/
opaque packageId : BitVec 64

/-- The die-cache slice, one of 16, that is the home of a device address (R394).
Left open by the spec: log entry 8 (DESIGN CHOICE). -/
opaque homeSlice : Nat → Fin 16

/-- Clock generator calibration and SRAM repair map of a cluster (R384).
Left open by the spec: log entry 8 (DESIGN CHOICE). -/
opaque calibration : Nat → BitVec 64
/-- Left open by the spec: log entry 8 (DESIGN CHOICE). -/
opaque repairMap : Nat → List (BitVec 8)

/-- The fused secret and the identity key derived from it and PKGID; the certificate chain that ends in a key, and a
signature over bytes with it (R406). Left open by the spec: log entry 8 (DESIGN CHOICE). -/
opaque fusedSecret : List (BitVec 8)
/-- Left open by the spec: log entry 8 (DESIGN CHOICE). -/
opaque identityKey : List (BitVec 8) → BitVec 64 → List (BitVec 8)
/-- Left open by the spec: log entry 8 (DESIGN CHOICE). -/
opaque certificateChain : List (BitVec 8) → List (BitVec 8)
/-- Left open by the spec: log entry 8 (DESIGN CHOICE). -/
opaque sign : List (BitVec 8) → List (BitVec 8) → List (BitVec 8)

/-- The address of Nyset's first instruction (R402). Left open by the spec: log entry 8 (DESIGN CHOICE). -/
opaque nysetEntry : BitVec 64

end Sys2Proof.Config
end

