-- ==== Sys2Proof/EventArgs.lean ====
section
/-!
DEFINITION. EventArgs.lean: the choices that a step of the machine leaves open, and the words, frames and
answers that arrive from outside the package with it.
-/

namespace Sys2Proof

/-- A strand: its crew's identity in the model and its index in the crew. Crew 0 is Insole's (R409). -/
structure StrandKey where
  crew : Nat
  idx : Nat
  deriving DecidableEq, Repr

/-- What comes back with an access (R366, R367, R390): nothing, where the home is the package's or the host's; a
corrected or an uncorrectable error of that home; and from another package a value with its poison, a refusal, or for a
ring function the ring unit's own refusal (R241); the 64 bytes of a SPAWN's record, with whether any is poisoned (R223);
of an item voted there, no agreement, or the value that the other two copies agreed on (R42, R395). -/
inductive Reply where
  | none
  | corrected
  | uncorrectable
  | value (w : Word) (p : Bool)
  | refused
  | ring
  | bytes (bs : List Byte) (p : Bool)
  | voteFail
  | dissent (w : Word) (p : Bool)
  deriving DecidableEq, Repr

/-- Who writes a register of BAR 0: a host function, 0 to 16 (R300), or Insole (R347, R356). -/
inductive Agent where
  | fn (n : Nat)
  | insole
  deriving DecidableEq, Repr

/-- A host access through BAR 4 (R300). -/
inductive Bar4Op where
  | read (n : Nat)
  | write (bs : List Byte) (poison : Bool)
  | fetchAdd (w64 : Bool) (b : Word)
  | swap (w64 : Bool) (b : Word)
  | cas (w64 : Bool) (c b : Word)
  deriving DecidableEq, Repr

/-- A form in which a host request reaches BAR 2 (R304): a Deferrable Memory Write or a posted one, with its
offset in BAR 2 and its bytes. -/
structure SubmitOp where
  agent : Agent
  deferrable : Bool
  off : Nat
  bytes : List Byte
  deriving DecidableEq, Repr

/-- The owner of a copy set: a core's read-only set, or a cluster's (R49). -/
inductive CopySet where
  | core (n : Nat)
  | cluster (n : Nat)
  deriving DecidableEq, Repr

/-- The way of an access to another package, fixed when the access issues (R365): the issuing partition, its window, and
that window's NODE, REMPART and MODE (true for MARKER). -/
structure Via where
  part : Nat
  win : Nat
  node : Nat
  rem : Nat
  marker : Bool
  deriving DecidableEq, Repr

/-- Where bytes have their home (R49): package memory by physical address, host memory, a tile byte (core
number × 2^20 + tile × 4,096 + offset), or another package's memory by the way to it and its physical address there. -/
inductive Place where
  | dev (a : Nat)
  | host (a : Nat)
  | tile (a : Nat)
  | remote (via : Via) (a : Nat)
  deriving DecidableEq, Repr

/-- How a transfer in the bag is settled (R65): at a tile of the package, by that tile; at another package's, which
lands it or reports why it did not: TILE_OVERRUN, ACCESS, or REMOTE (R33, R65, R366), to the sender's partition from a
cluster that is given back (R351); of a transfer voted there, no agreement, or the other two copies' transfer landed
(R42, R395). -/
inductive Landing where
  | here
  | landed | overrun | denied | gone | released | voteFail | dissent
  deriving DecidableEq, Repr

/-- An item on its way to another package (R367): at the head of a queue, the entry of that number in the fabric
sets, a transfer by its number, or a strand's wait for a ring or for the record of SPAWN. -/
inductive FarItem where
  | head (k : StrandKey) (h : HReg)
  | fabric (i : Nat)
  | bag (id : Nat)
  | ring (k : StrandKey)
  deriving DecidableEq, Repr

/-- An event that reaches a barrier in one cycle with another (R63): a barrier item at the head of a queue, an element
operation of a job. -/
inductive BarMore where
  | item (k : StrandKey) (h : HReg)
  | element (engine slot n : Nat) (rs : List Reply)
  deriving DecidableEq, Repr

/-- The barrier item at the head of the queue of `h`, and what reaches its barrier in the same cycle (R63). -/
structure BarArgs where
  h : HReg
  more : List BarMore
  deriving DecidableEq, Repr

/-- The replies that an element operation takes, and what reaches its barrier in the same cycle (R63). -/
structure ElemArgs where
  rs : List Reply
  more : List BarMore
  deriving DecidableEq, Repr

/-- Where the dispatcher puts one crew, or one copy of a voted crew (R10, R311): the core, the strand slots of
its strands in order, the first tile, the first barrier, and the stack slots of its strands. -/
structure Spot where
  core : Nat
  slots : List Nat
  tileBase : Nat
  barBase : Nat
  stackBlocks : List Nat
  deriving DecidableEq, Repr

/-- The moments of a pre-emption (R35): a launch has a crew evicted; a crew leaves a cluster that is going out of
service (R382); an evicted crew whose queues are drained is saved, with its copies, in slots. -/
inductive Eviction where
  | evict (launch : Nat)
  | quiesce (crew : Nat)
  | save (crew : Nat) (slots : List Nat)
  deriving DecidableEq, Repr

/-- The cause of a control fault (R393): a core, or the dispatcher of a partition. -/
inductive ControlSite where
  | core (n : Nat)
  | dispatcher (p : Nat)
  deriving DecidableEq, Repr

/-- A part that fails in service (R403), or whose Welt edge does (R392). -/
inductive PowerPart where
  | edge (e : Nat)
  | host
  | die (d : Nat)
  | hbm (d : Nat)
  | preath (p : Nat)
  | cxl (p : Nat)
  | click (k : Nat)
  deriving DecidableEq, Repr

/-- A part that a step of bring-up starts (R402). -/
inductive BringPart where
  | rom
  | nyset
  | edge (e : Nat)
  | host
  | die (d : Nat)
  | hbm (d : Nat)
  | dispatch
  | preath (p : Nat)
  | cxl (p : Nat)
  | click (k : Nat)
  | cluster (c : Nat)
  deriving DecidableEq, Repr

/-- Which access a host page is asked for (R334). -/
inductive PageKind where
  | load | store | atomic | fetch
  deriving DecidableEq, Repr

/-- The key of a translation that a unit's caches hold or a walk seeks: the unit (a core, 2,000 + a cluster for
its engine, 3,000 + a ring, 4,000 + a partition for its dispatcher), the ASID, the virtual address. -/
structure WalkKey where
  unit : Nat
  asid : Nat
  va : Word
  deriving DecidableEq, Repr

/-- What a walk starts from (R330): the root table, an upper-level entry that the die's walk cache holds, or for a
core the leaf that its cluster's TLB holds. -/
inductive WalkFrom where
  | root
  | upper (level : Nat)
  | cluster
  deriving DecidableEq, Repr

/-- A Translation Request or a Page Request (R333, R334): the die, the ASID it came from, the page by its first
virtual byte, and the kind of access (a Translation Request has one for all kinds). -/
structure PageKey where
  die : Nat
  asid : Nat
  va : Word
  kind : PageKind
  deriving DecidableEq, Repr

/-- A Translation Completion (R333): an error status, or the page's size and frame and what it permits. -/
inductive AtsAnswer where
  | error
  | page (log2size frame : Nat) (read write exec : Bool)
  deriving DecidableEq, Repr

/-- A Page Request Group Response (R334). -/
inductive PriAnswer where
  | success | invalid | failure
  deriving DecidableEq, Repr

end Sys2Proof
end

