-- ==== Sys2Proof/Syntax.lean ====
section
/-!
DEFINITION. Syntax.lean: one constructor for every row of spec/opcode_table.json. The first 286 are the
encoded instructions, with their guard (R106); the others are the steps of the machine that no word
encodes (R52, and the chapters named with each), with the choices the step leaves open as arguments.
-/

namespace Sys2Proof

/-- Every row of the opcode table (R126 to R128; spec/95). -/
inductive Instr where
  /-- STORE_PERFORM: A store item at the head of its queue updates the cluster copy and appends uplink entries (R56) -/
  | storePerform (k : StrandKey) (h : HReg)
  /-- LOAD_PERFORM: A load item binds its value from a copy, the home or a tile (R57) -/
  | loadPerform (k : StrandKey) (h : HReg) (i : Nat) (r : Reply)
  /-- ATOMIC_PERFORM: An atomic item is performed indivisibly at its home (R58) -/
  | atomicPerform (k : StrandKey) (h : HReg) (r : Reply)
  /-- TRANSFER_PERFORM: A transfer item reads its bytes and enters the transfer bag (R65) -/
  | transferPerform (k : StrandKey) (h : HReg)
  /-- TAG_ITEM_PERFORM: A take, TMARK, TPOIS, TSCLS or TZERO item is applied at its tile (R62) -/
  | tagItemPerform (k : StrandKey) (h : HReg)
  /-- BARRIER_ITEM_PERFORM: A barrier item is applied and the phase is tested once (R63) -/
  | barrierItemPerform (k : StrandKey) (x : BarArgs)
  /-- COPY_COMMAND_PERFORM: A copy command's job is created once the release condition holds (R64) -/
  | copyCommandPerform (k : StrandKey) (h : HReg)
  /-- RING_ITEM_PERFORM: The ring unit receives a ring item, and its deadline is tested (R73) -/
  | ringItemPerform (k : StrandKey) (h : HReg) (r : Reply)
  /-- GATE: A gate at the head of its queue is removed once its condition holds; for HRECV this applies the take and
  the acquire (R66) -/
  | gate (k : StrandKey) (h : HReg)
  /-- UPLINK: The head entry of a cluster's uplink FIFO is written at its home or joins a fabric set (R52) -/
  | uplink (cluster : Nat)
  /-- FABRIC: A fabric-set entry is written at its home on the target package (R52) -/
  | fabric (i : Nat) (r : Reply)
  /-- FILL: An absent copy is filled (R52) -/
  | fill (o : CopySet) (p : Place)
  /-- DROP: A present copy is discarded (R52) -/
  | drop (o : CopySet) (p : Place)
  /-- DELIVER: A transfer in the bag lands whole at its tile or is refused (R65) -/
  | deliver (id : Nat) (l : Landing)
  /-- WAIT_END: A waiting strand becomes ready once its condition holds, applying the acquire of its wait where one is
  laid down (R30) -/
  | waitEnd (k : StrandKey) (r : Reply)
  /-- TIMED_WAIT_EXPIRY: A PARK or WAITI limit passes and the wait completes without a trap (R224) -/
  | timedWaitExpiry (k : StrandKey)
  /-- VOTE_WINDOW_EXPIRY: A vote window closes and the missing or late copy is recorded as a disagreement, or all
  copies fail (R395) -/
  | voteWindowExpiry (i : Nat)
  /-- VOTE_BUFFER_DISCARD: An unclaimed vote-buffer entry is discarded at the end of the window (R43) -/
  | voteBufferDiscard (i : Nat)
  /-- EVENT_TAKEN: The oldest pending asynchronous event is taken as a trap at an instruction boundary (R340) -/
  | eventTaken (k : StrandKey)
  /-- DEFERRED_POISON: A checked load that bound poisoned data traps at the next boundary (R185) -/
  | deferredPoison (k : StrandKey)
  /-- INSTRUCTION_FETCH_FAULT: A fetch of a poisoned or untranslatable word traps before decode (R113) -/
  | instructionFetchFault (k : StrandKey)
  /-- PAGE_WALK_END: A table walk ends and the access held at issue continues, or faults (R330) -/
  | pageWalkEnd (k : WalkKey) (f : WalkFrom)
  /-- CREW_PLACEMENT: The dispatcher places the next crew of a chosen launch on a core that fits it (R311) -/
  | crewPlacement (launch : Nat) (spots : List Spot)
  /-- CREW_RETIREMENT: A crew retires once its strands have exited and its items and jobs are done (R32) -/
  | crewRetirement (crew : Nat)
  /-- DONE_INCREMENT: The release increment of DONE_ADDR is performed, followed by the DONE event (R34) -/
  | doneIncrement (launch : Nat) (r : Reply)
  /-- WAIT_COUNTER_CHECK: The dispatcher re-reads a wait word on a write at its home or on the POLL timer (R314) -/
  | waitCounterCheck (launch : Nat) (r : Reply)
  /-- AGING_STEP: A launch's aging count reaches 2^AGE and its level rises, possibly taking a reservation (R310) -/
  | agingStep (launch : Nat)
  /-- PREEMPT: The dispatcher evicts a crew, drains its queues and saves it (R35) -/
  | preempt (e : Eviction)
  /-- QUANTUM_EXPIRY: A launch waits a quantum and may evict a crew of its level (R313) -/
  | quantumExpiry (launch : Nat)
  /-- CREW_RESTORE: A saved crew is placed, loaded from its slot, and resumed (R346) -/
  | crewRestore (launch : Nat) (spots : List Spot)
  /-- HANG: The watchdog count expires and the crew is frozen, with a wait map and a HANG event (R318) -/
  | hang (crew : Nat) (slots : List Nat)
  /-- RESUME: PDFROZ CMD 1 returns a frozen crew to dispatch (R320) -/
  | resume (by_ : Agent) (p slot : Nat)
  /-- KILL: PDFROZ CMD 2 discards a frozen crew (R320) -/
  | kill (by_ : Agent) (p slot : Nat)
  /-- TEARDOWN: PDTEAR GO starts tear-down of a partition (R321) -/
  | teardown (by_ : Agent) (p : Nat)
  /-- TEARDOWN_DONE: Queued items finish, then the TEARDOWN event is written and DONE is set (R321) -/
  | teardownDone (p : Nat)
  /-- DMWR_SUBMISSION: A 64-byte Deferrable Memory Write submits a launch record to a work queue (R304) -/
  | dmwrSubmission (o : SubmitOp)
  /-- SEQ_WRITE: A write covering byte 71 of a posted window submits its record (R305) -/
  | seqWrite (by_ : Agent) (q : BitVec 13) (off : Nat) (bs : List Byte)
  /-- BAR4_ACCESS: A host read, write or AtomicOp through BAR 4 is performed at the home (R300) -/
  | bar4Access (fn off : Nat) (op : Bar4Op) (r : Reply)
  /-- WQCFG_WRITE: A write to WQCFG sets or clears EN, subject to its checks (R303) -/
  | wqcfgWrite (by_ : Agent) (q : BitVec 13) (w : Word)
  /-- PDCFG_WRITE: A write to PDCFG enables the dispatcher, subject to its range checks (R307) -/
  | pdcfgWrite (by_ : Agent) (p : BitVec 4) (w : Word)
  /-- REGISTER_WRITE: A write to a register that has no row of its own (R6) -/
  | registerWrite (by_ : Agent) (off : Nat) (w : Word)
  /-- XLINV: A write to XLINV starts the removal of every translation of an ASID (R325) -/
  | xlinv (by_ : Agent) (asid : BitVec 16)
  /-- ASSIGN: CLPART ASSIGN gives a free cluster to a partition (R348) -/
  | assign (by_ : Agent) (c : Nat) (p : BitVec 4)
  /-- RELEASE: CLPART RELEASE quiesces a cluster and begins evicting its crews (R351) -/
  | release (by_ : Agent) (c : Nat)
  /-- RELEASE_EVICT_DONE: Every crew has left the cluster and engine completion begins (R351) -/
  | releaseEvictDone (c : Nat)
  /-- RELEASE_ENGINE_TIMEOUT: Jobs still waiting after 2^16 cycles, and keep-copies, are aborted (R351) -/
  | releaseEngineTimeout (c : Nat)
  /-- RELEASE_DRAIN_DONE: The drain ends; the cluster is scrubbed and becomes FREE (R351) -/
  | releaseDrainDone (c : Nat)
  /-- MRBASE_WRITE: Setting or clearing VALID of a memory region, with overlap checks (R353) -/
  | mrbaseWrite (by_ : Agent) (r : BitVec 6) (w : Word)
  /-- WNCFG_WRITE: Enabling or disabling a Preath window, with its checks (R364) -/
  | wncfgWrite (by_ : Agent) (p : BitVec 4) (n : BitVec 6) (w : Word)
  /-- CXDCFG_WRITE: Enabling or disabling a CXL decoder (R369) -/
  | cxdcfgWrite (by_ : Agent) (i : BitVec 3) (w : Word)
  /-- LINK_TRAINED: A Preath port whose EN is set finishes training and becomes UP (R360) -/
  | linkTrained (p : Nat)
  /-- PACKET_RECEIVED: A Preath packet passes its CRC and is accepted or refused at the target (R366) -/
  | packetReceived (port : Nat) (bs : List Byte)
  /-- PACKET_CRC_FAIL: A packet fails its CRC and is replayed from the sender (R363) -/
  | packetCrcFail (p : Nat)
  /-- LINK_RETRAIN: After 8 failed replays the link retrains and may map out a lane (R363) -/
  | linkRetrain (p : Nat) (laneFails : Bool)
  /-- REMOTE_TIMEOUT: An item gets no response within 2^24 cycles and completes with REMOTE (R367) -/
  | remoteTimeout (i : FarItem)
  /-- CXL_PORT_DOWN: A CXL port goes down; reads bind poison and writes are dropped (R369) -/
  | cxlPortDown (p : Nat)
  /-- HPCFG_WRITE: Enabling the hot-page tracker, with range checks (R370) -/
  | hpcfgWrite (by_ : Agent) (w : Word)
  /-- ATS_TRANSLATION_COMPLETION: An ATS Translation Completion arrives and is kept, or sends its accesses to a page
  request (R373) -/
  | atsTranslationCompletion (k : PageKey) (a : AtsAnswer)
  /-- PAGE_REQUEST_RESPONSE: A PRI group response arrives; accesses waiting on it retry or fail (R334) -/
  | pageRequestResponse (k : PageKey) (a : PriAnswer)
  /-- ATS_INVALIDATE_REQUEST: An ATS Invalidate Request removes the matching ATC entries in one step (R335) -/
  | atsInvalidateRequest (pasid va size itag : Nat)
  /-- INVALIDATE_COMPLETION: The Invalidate Completion is sent once the accesses that used the entries are performed
  (R335) -/
  | invalidateCompletion (itag : Nat)
  /-- HOST_ATOMICOP_ERROR: The host completes a device AtomicOp with an error, raising ACCESS as an event (R70) -/
  | hostAtomicopError (k : StrandKey) (h : HReg)
  /-- JOB_START: An engine starts a job in creation order, up to 8 at once (R273) -/
  | jobStart (engine slot : Nat)
  /-- ELEMENT_OPERATION: One element operation of a copy job reads, converts and writes, possibly paying barrier bytes
  (R231) -/
  | elementOperation (engine slot n : Nat) (x : ElemArgs)
  /-- COMPLETION_ACTION: A job's SCALE writes, status and DONE_KIND action are taken, and its slot is freed (R232) -/
  | completionAction (engine slot : Nat) (r : Reply)
  /-- ROWSTREAM_RESERVATION: A ROWSTREAM job obtains a DRAM bank reservation (R282) -/
  | rowstreamReservation (engine slot : Nat)
  /-- ROWSTREAM_IDLE_RELEASE: A held reservation unused for 4,096 cycles is released (R282) -/
  | rowstreamIdleRelease (i : Nat)
  /-- SLOT_TABLE_WRITE: An engine-port slot-table entry write takes effect at the next round (R275) -/
  | slotTableWrite (by_ : Agent) (d : BitVec 3) (slice : BitVec 4) (e : BitVec 6) (w : Word)
  /-- RING_ENABLE: An SWR setting RGCTL.EN checks the configuration and starts the ring (R246) -/
  | ringEnable (ring : Nat)
  /-- RING_DISABLE: Clearing EN stops the writer and discards the queues, holds and open claims (R246) -/
  | ringDisable (ring : Nat)
  /-- RING_FAULT: A ring-unit access faults and disables the ring with a RING event (R246) -/
  | ringFault (ring : Nat)
  /-- FRAME_RECEIVED: A Clicker Ethernet frame is checked, matched to a ring, and stored or dropped (R250) -/
  | frameReceived (port : Nat) (bs : List Byte)
  /-- FRAME_BUFFER_DROP: A frame finds the port buffer full behind a stalled writer and logs a PAUSED gap (R254) -/
  | frameBufferDrop (port : Nat) (bs : List Byte)
  /-- SAMPLE_WRITE: The writer writes a sample at its home and advances HEAD (R253) -/
  | sampleWrite (ring : Nat)
  /-- HEAD_DELIVERY: A completed block is sent to its delivery tile, or counted as dead time (R260) -/
  | headDelivery (ring : Nat)
  /-- VACANCY_NOTICE: A vacancy notice reaches the writer and the delivery tile becomes vacant (R293) -/
  | vacancyNotice (ring : Nat) (tileB : Bool)
  /-- CLAIM_CLOSE: A claim's copying and hold are done; its header is written when there is room and PROD advances
  (R266) -/
  | claimClose (ring claim : Nat)
  /-- KEEP_COPY_SUBMIT: The ring unit submits a keep-copy job when a slot and keep-area room are free (R267) -/
  | keepCopySubmit (ring claim slot : Nat)
  /-- KEEP_COPY_FAULT: A keep-area fault ends the keep-copy; the claim closes truncated (R283) -/
  | keepCopyFault (engine slot : Nat)
  /-- QREQ_RISE: Raising CPCTL.QREQ moves ACTIVE to QUIESCING, or records DENY (R381) -/
  | qreqRise (c : Nat)
  /-- QREQ_CLEAR: Clearing QREQ returns the cluster to ACTIVE (R381) -/
  | qreqClear (c : Nat)
  /-- SAVE: CPCTL SAVE starts writing the retention image (R384) -/
  | save (c : Nat)
  /-- RESTORE: CPCTL RESTORE starts the verified restore of the retention image (R384) -/
  | restore (c : Nat)
  /-- CLKEN_CLEAR: Clearing CLKEN gates the cluster clock into STOPPED (R381) -/
  | clkenClear (c : Nat)
  /-- CLKEN_SET: Setting CLKEN starts the clock from STOPPED, or starts INIT from COLD (R381) -/
  | clkenSet (c : Nat)
  /-- RAIL_OFF: CPRAIL EN 0 turns the rail off from STOPPED or RAMPING (R381) -/
  | railOff (c : Nat)
  /-- RAIL_ON: CPRAIL EN 1 starts the ramp from OFF (R381) -/
  | railOn (c : Nat)
  /-- WAKE: A write sets CPWAKE.WAKE (R379) -/
  | wake (by_ : Agent) (c : Nat)
  /-- WAKE_CLR: A write of CLR clears CPWAKE.WAKE (R379) -/
  | wakeClr (by_ : Agent) (c : Nat)
  /-- QUIESCE_DRAIN_COMPLETE: The cluster is empty and the controller enters QUIESCED (R382) -/
  | quiesceDrainComplete (c : Nat)
  /-- QUIESCE_JOB_LIMIT: A job still running LIMIT cycles after quiesce began is aborted and counted (R382) -/
  | quiesceJobLimit (c slot : Nat)
  /-- SAVE_DONE: The image is performed at its home; SAVING returns to QUIESCED (R384) -/
  | saveDone (c : Nat)
  /-- RESTORE_DONE: The restore ends, loading CYCLES and SEQ or failing (R384) -/
  | restoreDone (c : Nat)
  /-- POWER_GOOD: PG rises during RAMPING and the controller enters COLD (R381) -/
  | powerGood (c : Nat)
  /-- RAMP_TIMEOUT: The RAMP limit expires and the controller enters OFF with FAULT (R381) -/
  | rampTimeout (c : Nat)
  /-- INIT_DONE: INIT finishes repairs and zeroing, entering QUIESCED (R381) -/
  | initDone (c : Nat)
  /-- RAIL_FAULT: Overcurrent or undervoltage drops the rail and discards the crews (R386) -/
  | railFault (c : Nat)
  /-- CONTROL_FAULT: An uncorrectable error in control state discards the core's crews or tears down the partition
  (R393) -/
  | controlFault (site : ControlSite)
  /-- ERRCFG_WRITE: Enabling error records, with range checks (R397) -/
  | errcfgWrite (by_ : Agent) (w : Word)
  /-- MAPOUT_GO: HBMO GO starts a layer map-out in VACATE (R398) -/
  | mapoutGo (by_ : Agent) (d : BitVec 3) (range : BitVec 4)
  /-- VACATED: The driver reports the top range empty and COPY begins (R399) -/
  | vacated (by_ : Agent) (d : BitVec 3)
  /-- MAPOUT_SWITCH: The copy ends and the range switches layers in one step (R399) -/
  | mapoutSwitch (d : Nat)
  /-- PATROL_SCRUB: The patrol scrub reads an access and writes corrected data back (R398) -/
  | patrolScrub (d a : Nat) (last : Bool) (r : Reply)
  /-- BRINGUP_STEP_DONE: A bring-up step's part finishes and its ready bits are set (R402) -/
  | bringupStepDone (p : BringPart) (ok : Bool)
  /-- GET_VERSION: SPDM request answered by Insole (R406) -/
  | getVersion (req : List Byte)
  /-- GET_CAPABILITIES: SPDM capabilities request (R406) -/
  | getCapabilities (req : List Byte)
  /-- NEGOTIATE_ALGORITHMS: SPDM algorithm negotiation (R406) -/
  | negotiateAlgorithms (req : List Byte)
  /-- GET_DIGESTS: SPDM certificate digests request (R406) -/
  | getDigests (req : List Byte)
  /-- GET_CERTIFICATE: SPDM certificate chain request (R406) -/
  | getCertificate (req : List Byte)
  /-- CHALLENGE: SPDM challenge signed with ML-DSA-87 (R406) -/
  | challenge (req : List Byte)
  /-- GET_MEASUREMENTS: SPDM request for the measurement blocks (R406) -/
  | getMeasurements (req : List Byte)
  /-- POWER_SAMPLE: Every 2^20 cycles Insole samples input power and applies the cap (R408) -/
  | powerSample (watts tmax : Nat)
  /-- MATRIX_INSTRUCTION_COMPLETE: The matrix unit completes an issued matrix instruction, ending its accumulator's
  pending state and freeing one of the core's 8 places (R197) -/
  | matrixInstructionComplete (core : Nat)
  /-- CONTROLLER_EVALUATION: The cluster power controller's per-cycle evaluation takes a transition from CPCTL or
  CPRAIL levels written earlier, such as STOPPED with EN 0 moving to OFF, or a held CLKEN 0 acting after SAVING
  returns (R380) -/
  | controllerEvaluation (c : Nat)
  /-- WELT_REPLAY: A Welt flit group fails its CRC-32 and is replayed, counted in the edge's counter, and a Welt edge
  that fails its replay takes the package out of service (R392) -/
  | weltReplay (d e : Nat) (fails : Bool)
  /-- CXL_PORT_UP: A CXL port that was down comes back up with its expander, so that accesses through its decoders are
  served again (R369) -/
  | cxlPortUp (p : Nat)
  /-- DIE_RAIL_FAULT: A die, edge or HBM rail fails in service, its part's ready bit returns to 0 and accesses to that
  part fail (R403) -/
  | dieRailFault (p : PowerPart)
  /-- NOP: Does nothing except advance PC (R152) -/
  | nop (g : Guard)
  /-- TRAP: Raises SOFTWARE precisely, with the immediate code in TRAP_INFO (R152) -/
  | trap (g : Guard) (o : TrapOp)
  /-- BRK: Raises BREAK precisely (R152) -/
  | brk (g : Guard)
  /-- ERET: Returns to TRAP_PC at the saved privilege level and clears INHANDLER (R153) -/
  | eret (g : Guard)
  /-- SRD: Reads a system register into xD after the checks are made in order (R154) -/
  | srd (g : Guard) (o : SrdOp)
  /-- SWR: Writes xA to a system register after the checks are made in order; the write takes effect at issue (R154) -/
  | swr (g : Guard) (o : SwrOp)
  /-- FENCE: Waits until every item in all eight handle queues is performed at the scope, then acquires (R156) -/
  | fence (g : Guard) (o : ScopeOp)
  /-- FENCER: Waits only for items that overlap a range, then acquires (R156) -/
  | fencer (g : Guard) (o : RangeOp)
  /-- CHK: Raises POISON if xA is poisoned (R157) -/
  | chk (g : Guard) (o : SrcX)
  /-- CHKV: Raises POISON at the lowest poisoned lane selected by the mask (R157) -/
  | chkv (g : Guard) (o : ChkvOp)
  /-- ROINV: Drops every read-only copy of the core at issue (R158) -/
  | roinv (g : Guard)
  /-- TLBI: Removes translations of a page, an ASID or the partition and waits until the accesses that used them are
  performed (R159) -/
  | tlbi (g : Guard) (o : TlbiOp)
  /-- WAITI: Waits for an event, or for the cycle limit to pass (R160) -/
  | waiti (g : Guard) (o : SrcX)
  /-- JMP: Jumps to a PC-relative target (R112) -/
  | jmp (g : Guard) (o : JmpOp)
  /-- CALL: Writes PC+8 to xD and jumps to a PC-relative target (R148) -/
  | call (g : Guard) (o : CallOp)
  /-- JR: Jumps to the address in xA (R149) -/
  | jr (g : Guard) (o : SrcX)
  /-- CALLR: Writes the link to xD and jumps to the address in xA (R149) -/
  | callr (g : Guard) (o : X2)
  /-- RET: Returns to the address in xA (x62 by default) (R149) -/
  | ret (g : Guard) (o : SrcX)
  /-- MOVL: Writes the 64-bit literal that follows the instruction to xD (R113) -/
  | movl (g : Guard) (o : MovlOp)
  /-- ADD: Integer add, register form (R134) -/
  | add (g : Guard) (o : X3w)
  /-- SUB: Integer subtract (R134) -/
  | sub (g : Guard) (o : X3w)
  /-- AND: Bitwise and (R134) -/
  | and (g : Guard) (o : X3)
  /-- OR: Bitwise or (R134) -/
  | or (g : Guard) (o : X3)
  /-- XOR: Bitwise exclusive or (R134) -/
  | xor (g : Guard) (o : X3)
  /-- ANDN: a and not b (R134) -/
  | andn (g : Guard) (o : X3)
  /-- ORN: a or not b (R134) -/
  | orn (g : Guard) (o : X3)
  /-- SHL: Shift left (R134) -/
  | shl (g : Guard) (o : X3w)
  /-- SHR: Logical shift right (R134) -/
  | shr (g : Guard) (o : X3w)
  /-- SAR: Arithmetic shift right (R134) -/
  | sar (g : Guard) (o : X3w)
  /-- ROL: Rotate left (R134) -/
  | rol (g : Guard) (o : X3w)
  /-- ROR: Rotate right (R134) -/
  | ror (g : Guard) (o : X3w)
  /-- MUL: Low 64 bits of the product (R134) -/
  | mul (g : Guard) (o : X3w)
  /-- MULH: High bits of the signed product (R134) -/
  | mulh (g : Guard) (o : X3w)
  /-- MULHN: High bits of the natural product (R134) -/
  | mulhn (g : Guard) (o : X3w)
  /-- MADD: Multiply and add (R134) -/
  | madd (g : Guard) (o : X4w)
  /-- DIV: Signed division, truncated (R134) -/
  | div (g : Guard) (o : X3w)
  /-- DIVN: Natural division (R134) -/
  | divn (g : Guard) (o : X3w)
  /-- REM: Signed remainder (R134) -/
  | rem (g : Guard) (o : X3w)
  /-- REMN: Natural remainder (R134) -/
  | remn (g : Guard) (o : X3w)
  /-- MIN: Signed minimum (R134) -/
  | min (g : Guard) (o : X3w)
  /-- MAX: Signed maximum (R134) -/
  | max (g : Guard) (o : X3w)
  /-- MINN: Natural minimum (R134) -/
  | minn (g : Guard) (o : X3w)
  /-- MAXN: Natural maximum (R134) -/
  | maxn (g : Guard) (o : X3w)
  /-- SEL: Selects a or b by a condition register (R134) -/
  | sel (g : Guard) (o : SelOp)
  /-- CLZ: Counts leading zeros (R134) -/
  | clz (g : Guard) (o : X2w)
  /-- CTZ: Counts trailing zeros (R134) -/
  | ctz (g : Guard) (o : X2w)
  /-- POP: Counts set bits (R134) -/
  | pop (g : Guard) (o : X2w)
  /-- BREV: Reverses bits (R134) -/
  | brev (g : Guard) (o : X2w)
  /-- BSWAP: Reverses bytes (R134) -/
  | bswap (g : Guard) (o : X2w)
  /-- SEXT: Sign-extends from a bit position (R134) -/
  | sext (g : Guard) (o : X3)
  /-- ZEXT: Zero-extends from a bit position (R134) -/
  | zext (g : Guard) (o : X3)
  /-- BFX: Extracts a bit field (R134) -/
  | bfx (g : Guard) (o : X4)
  /-- BFI: Inserts a bit field into xD (R134) -/
  | bfi (g : Guard) (o : X4)
  /-- IOPI_ADD: Add of an immediate (R136) -/
  | iopiAdd (g : Guard) (o : XIw)
  /-- IOPI_AND: And with an immediate (R136) -/
  | iopiAnd (g : Guard) (o : XI)
  /-- IOPI_OR: Or with an immediate (R136) -/
  | iopiOr (g : Guard) (o : XI)
  /-- IOPI_XOR: Exclusive or with an immediate (R136) -/
  | iopiXor (g : Guard) (o : XI)
  /-- IOPI_SHL: Shift left by an immediate (R136) -/
  | iopiShl (g : Guard) (o : XIw)
  /-- IOPI_SHR: Logical shift right by an immediate (R136) -/
  | iopiShr (g : Guard) (o : XIw)
  /-- IOPI_SAR: Arithmetic shift right by an immediate (R136) -/
  | iopiSar (g : Guard) (o : XIw)
  /-- IOPI_ROL: Rotate left by an immediate (R136) -/
  | iopiRol (g : Guard) (o : XIw)
  /-- IOPI_ROR: Rotate right by an immediate (R136) -/
  | iopiRor (g : Guard) (o : XIw)
  /-- IOPI_MUL: Multiply by an immediate (R136) -/
  | iopiMul (g : Guard) (o : XIw)
  /-- IOPI_MIN: Signed minimum with an immediate (R136) -/
  | iopiMin (g : Guard) (o : XIw)
  /-- IOPI_MAX: Signed maximum with an immediate (R136) -/
  | iopiMax (g : Guard) (o : XIw)
  /-- IOPI_MINN: Natural minimum with a sign-extended immediate (R136) -/
  | iopiMinn (g : Guard) (o : XIw)
  /-- IOPI_MAXN: Natural maximum with a sign-extended immediate (R136) -/
  | iopiMaxn (g : Guard) (o : XIw)
  /-- IOPI_SEXT: Sign-extends from an immediate bit position (R136) -/
  | iopiSext (g : Guard) (o : ExtI)
  /-- IOPI_ZEXT: Zero-extends from an immediate bit position (R136) -/
  | iopiZext (g : Guard) (o : ExtI)
  /-- IOPI_BFX: Extracts a field given by an immediate position and length (R136) -/
  | iopiBfx (g : Guard) (o : BfI)
  /-- IOPI_BFI: Inserts a field given by an immediate position and length (R136) -/
  | iopiBfi (g : Guard) (o : BfI)
  /-- CMP_EQ: Writes or combines a = b into cD (R138) -/
  | cmpEq (g : Guard) (o : CmpOp)
  /-- CMP_NE: Compare, not equal (R138) -/
  | cmpNe (g : Guard) (o : CmpOp)
  /-- CMP_LT: Compare, signed less than (R138) -/
  | cmpLt (g : Guard) (o : CmpOp)
  /-- CMP_GE: Compare, signed greater or equal (R138) -/
  | cmpGe (g : Guard) (o : CmpOp)
  /-- CMP_LE: Compare, signed less or equal (R138) -/
  | cmpLe (g : Guard) (o : CmpOp)
  /-- CMP_GT: Compare, signed greater than (R138) -/
  | cmpGt (g : Guard) (o : CmpOp)
  /-- CMP_LTN: Compare, natural less than (R138) -/
  | cmpLtn (g : Guard) (o : CmpOp)
  /-- CMP_GEN: Compare, natural greater or equal (R138) -/
  | cmpGen (g : Guard) (o : CmpOp)
  /-- CMP_LEN: Compare, natural less or equal (R138) -/
  | cmpLen (g : Guard) (o : CmpOp)
  /-- CMP_GTN: Compare, natural greater than (R138) -/
  | cmpGtn (g : Guard) (o : CmpOp)
  /-- CMP_TST: Compare, a and b not zero (R138) -/
  | cmpTst (g : Guard) (o : CmpOp)
  /-- CMP_NTST: Compare, a and b zero (R138) -/
  | cmpNtst (g : Guard) (o : CmpOp)
  /-- CMPI_EQ: Compare with an immediate, equal (R138) -/
  | cmpiEq (g : Guard) (o : CmpIOp)
  /-- CMPI_NE: Compare with an immediate, not equal (R138) -/
  | cmpiNe (g : Guard) (o : CmpIOp)
  /-- CMPI_LT: Compare with an immediate, signed less than (R138) -/
  | cmpiLt (g : Guard) (o : CmpIOp)
  /-- CMPI_GE: Compare with an immediate, signed greater or equal (R138) -/
  | cmpiGe (g : Guard) (o : CmpIOp)
  /-- CMPI_LE: Compare with an immediate, signed less or equal (R138) -/
  | cmpiLe (g : Guard) (o : CmpIOp)
  /-- CMPI_GT: Compare with an immediate, signed greater than (R138) -/
  | cmpiGt (g : Guard) (o : CmpIOp)
  /-- CMPI_LTN: Compare with an immediate, natural less than (R138) -/
  | cmpiLtn (g : Guard) (o : CmpIOp)
  /-- CMPI_GEN: Compare with an immediate, natural greater or equal (R138) -/
  | cmpiGen (g : Guard) (o : CmpIOp)
  /-- CMPI_LEN: Compare with an immediate, natural less or equal (R138) -/
  | cmpiLen (g : Guard) (o : CmpIOp)
  /-- CMPI_GTN: Compare with an immediate, natural greater than (R138) -/
  | cmpiGtn (g : Guard) (o : CmpIOp)
  /-- CMPI_TST: Compare with an immediate, test bits (R138) -/
  | cmpiTst (g : Guard) (o : CmpIOp)
  /-- CMPI_NTST: Compare with an immediate, test bits clear (R138) -/
  | cmpiNtst (g : Guard) (o : CmpIOp)
  /-- MOVW: Places a 16-bit value in one quarter of xD and clears the rest (R141) -/
  | movw (g : Guard) (o : MovwOp)
  /-- MOVK: Replaces one 16-bit quarter of xD (R141) -/
  | movk (g : Guard) (o : MovwOp)
  /-- LEA: Computes an address without accessing memory (R142) -/
  | lea (g : Guard) (o : LeaOp)
  /-- PAND: And of condition registers (R139) -/
  | pand (g : Guard) (o : C3)
  /-- POR: Or of condition registers (R139) -/
  | por (g : Guard) (o : C3)
  /-- PXOR: Exclusive or of condition registers (R139) -/
  | pxor (g : Guard) (o : C3)
  /-- PANDN: And-not of condition registers (R139) -/
  | pandn (g : Guard) (o : C3)
  /-- PNOT: Negates a condition register (R139) -/
  | pnot (g : Guard) (o : C2)
  /-- PSETX: Sets c1-c7 from bits of xA (R139) -/
  | psetx (g : Guard) (o : SrcX)
  /-- XGETP: Copies c0-c7 into xD (R139) -/
  | xgetp (g : Guard) (o : DstX)
  /-- FADD: Scalar floating-point add (R144) -/
  | fadd (g : Guard) (o : F3)
  /-- FSUB: Scalar floating-point subtract (R144) -/
  | fsub (g : Guard) (o : F3)
  /-- FMUL: Scalar floating-point multiply (R144) -/
  | fmul (g : Guard) (o : F3)
  /-- FFMA: Scalar fused multiply-add (R144) -/
  | ffma (g : Guard) (o : F4)
  /-- FDIV: Scalar division, correctly rounded (R144) -/
  | fdiv (g : Guard) (o : F3)
  /-- FSQRT: Scalar square root (R144) -/
  | fsqrt (g : Guard) (o : F2)
  /-- FMIN: Scalar minimum by R86 (R144) -/
  | fmin (g : Guard) (o : F3n)
  /-- FMAX: Scalar maximum by R86 (R144) -/
  | fmax (g : Guard) (o : F3n)
  /-- FABS: Clears the sign bit (R144) -/
  | fabs (g : Guard) (o : F2n)
  /-- FNEG: Inverts the sign bit (R144) -/
  | fneg (g : Guard) (o : F2n)
  /-- FCVTI: Converts a float to an integer type (R145) -/
  | fcvti (g : Guard) (o : FcvtOp)
  /-- FCVTF: Converts an integer to a float (R145) -/
  | fcvtf (g : Guard) (o : FcvtOp)
  /-- FCVTW: Converts between f32 and f64 (R145) -/
  | fcvtw (g : Guard) (o : F2)
  /-- FCLASS: Writes a one-hot class mask (R146) -/
  | fclass (g : Guard) (o : F2n)
  /-- FEQ: Floating-point equality into a condition register (R147) -/
  | feq (g : Guard) (o : FcmpOp)
  /-- FLT: Floating-point less than into a condition register (R147) -/
  | flt (g : Guard) (o : FcmpOp)
  /-- FLE: Floating-point less or equal into a condition register (R147) -/
  | fle (g : Guard) (o : FcmpOp)
  /-- FUN: Unordered test into a condition register (R147) -/
  | fun_ (g : Guard) (o : FcmpOp)
  /-- LD: Checks an address and appends a scalar load item; with .spec a failure gives 0, poisoned (R186) -/
  | ld (g : Guard) (o : LdOp)
  /-- ST: Checks an address and appends a scalar store item (R186) -/
  | st (g : Guard) (o : StOp)
  /-- ATOM_XCHG: Appends an atomic exchange item (R188) -/
  | atomXchg (g : Guard) (o : AtomOp)
  /-- ATOM_CAS: Appends an atomic compare-and-swap item (R188) -/
  | atomCas (g : Guard) (o : AtomCasOp)
  /-- ATOM_ADD: Appends an atomic add item (R188) -/
  | atomAdd (g : Guard) (o : AtomOp)
  /-- ATOM_AND: Appends an atomic and item (R188) -/
  | atomAnd (g : Guard) (o : AtomOp)
  /-- ATOM_OR: Appends an atomic or item (R188) -/
  | atomOr (g : Guard) (o : AtomOp)
  /-- ATOM_XOR: Appends an atomic exclusive-or item (R188) -/
  | atomXor (g : Guard) (o : AtomOp)
  /-- ATOM_MIN: Appends an atomic signed minimum item (R188) -/
  | atomMin (g : Guard) (o : AtomOp)
  /-- ATOM_MAX: Appends an atomic signed maximum item (R188) -/
  | atomMax (g : Guard) (o : AtomOp)
  /-- ATOM_MINN: Appends an atomic natural minimum item (R188) -/
  | atomMinn (g : Guard) (o : AtomOp)
  /-- ATOM_MAXN: Appends an atomic natural maximum item (R188) -/
  | atomMaxn (g : Guard) (o : AtomOp)
  /-- ATOM_FADD: Appends an atomic f32 add item (R188) -/
  | atomFadd (g : Guard) (o : AtomFOp)
  /-- ATOM_FMIN: Appends an atomic f32 minimum item (R188) -/
  | atomFmin (g : Guard) (o : AtomFOp)
  /-- ATOM_FMAX: Appends an atomic f32 maximum item (R188) -/
  | atomFmax (g : Guard) (o : AtomFOp)
  /-- ATOM_INCW: Appends an atomic wrapping increment item (R188) -/
  | atomIncw (g : Guard) (o : AtomOp)
  /-- ATOM_DECW: Appends an atomic wrapping decrement item (R188) -/
  | atomDecw (g : Guard) (o : AtomOp)
  /-- VLD: Appends a contiguous vector load item (R190) -/
  | vld (g : Guard) (o : VMemOp)
  /-- VLDS: Appends a strided vector load item (R190) -/
  | vlds (g : Guard) (o : VMemOp)
  /-- VLDB: Appends a load of one word broadcast to the unmasked lanes (R190) -/
  | vldb (g : Guard) (o : VMemOp)
  /-- VST: Appends a contiguous vector store item (R191) -/
  | vst (g : Guard) (o : VMemOp)
  /-- VSTS: Appends a strided vector store item (R191) -/
  | vsts (g : Guard) (o : VMemOp)
  /-- VGATHER: Appends an indexed vector load item (R190) -/
  | vgather (g : Guard) (o : VgsOp)
  /-- VSCATTER: Appends an indexed vector store item (R191) -/
  | vscatter (g : Guard) (o : VgsOp)
  /-- VSCADD: Appends one f32 add atomic per unmasked lane, all together (R192) -/
  | vscadd (g : Guard) (o : VgsOp)
  /-- PREFETCH_DC: Prefetch toward the die cache, with no effect on outcomes (R193) -/
  | prefetchDc (g : Guard) (o : PrefOp)
  /-- PREFETCH_CS: Prefetch that may take a fill step of the cluster copy (R193) -/
  | prefetchCs (g : Guard) (o : PrefOp)
  /-- TLD: Appends a scalar scratchpad load item (R194) -/
  | tld (g : Guard) (o : TldOp)
  /-- TLDV: Appends a contiguous vector scratchpad load item (R194) -/
  | tldv (g : Guard) (o : VMemOp)
  /-- TLDVS: Appends a strided vector scratchpad load item (R194) -/
  | tldvs (g : Guard) (o : VMemOp)
  /-- TST: Appends a scalar scratchpad store item (R194) -/
  | tst (g : Guard) (o : StOp)
  /-- TSTV: Appends a contiguous vector scratchpad store item (R194) -/
  | tstv (g : Guard) (o : VMemOp)
  /-- TSTVS: Appends a strided vector scratchpad store item (R194) -/
  | tstvs (g : Guard) (o : VMemOp)
  /-- MMA: Adds the product of two tiles named by immediates into an accumulator (R199) -/
  | mma (g : Guard) (o : MmaOp)
  /-- MMA_REG: MMA with the tile numbers taken from registers (R199) -/
  | mmaReg (g : Guard) (o : MmaROp)
  /-- MMAS: Block-scaled MMA with immediate tile numbers (R200) -/
  | mmas (g : Guard) (o : MmasOp)
  /-- MMAS_REG: Block-scaled MMA with the tile numbers taken from registers (R200) -/
  | mmasReg (g : Guard) (o : MmasROp)
  /-- ZZERO: Zeroes an accumulator tile (R201) -/
  | zzero (g : Guard) (o : Z1)
  /-- ZLD: Loads an accumulator tile from a tile (R201) -/
  | zld (g : Guard) (o : ZldOp)
  /-- ZST: Converts an accumulator and stores it into a tile column slot (R202) -/
  | zst (g : Guard) (o : ZstOp)
  /-- ZSTS: Quantises an accumulator into a tile, sets SCALE and counts saturations (R203) -/
  | zsts (g : Guard) (o : ZstsOp)
  /-- ZBIAS: Adds a vector bias to each accumulator row (R201) -/
  | zbias (g : Guard) (o : ZbiasOp)
  /-- TARM: Arms a tile with an expected count and a notify address (R208) -/
  | tarm (g : Guard) (o : TarmOp)
  /-- TWAIT: Waits for a tile to become FULL or POISON, then acquires (R209) -/
  | twait (g : Guard) (o : TwaitOp)
  /-- TTAKE: Waits for a FULL tile, then appends a take item (R209) -/
  | ttake (g : Guard) (o : TagOp)
  /-- TSTAT: Reads a tile tag or NOTIFY, and can clear OVERRUN (R210) -/
  | tstat (g : Guard) (o : TstatOp)
  /-- TMARK: Appends a tag item that marks the tile FULL (R211) -/
  | tmark (g : Guard) (o : TagOp)
  /-- TPOIS: Appends a tag item that marks the tile POISON (R211) -/
  | tpois (g : Guard) (o : TagOp)
  /-- TSCLS: Appends a tag item that sets SCALE (R211) -/
  | tscls (g : Guard) (o : TagAOp)
  /-- TSCLG: Reads the SCALE of a tile (R210) -/
  | tsclg (g : Guard) (o : TsclgOp)
  /-- TZERO: Appends a tag item that zeroes a tile's bytes and tag (R211) -/
  | tzero (g : Guard) (o : TagOp)
  /-- TSEND: Appends a transfer of n scratchpad bytes to a global tile (R213) -/
  | tsend (g : Guard) (o : SendOp)
  /-- TSENDV: Appends a transfer of a vector register (R213) -/
  | tsendv (g : Guard) (o : SendVOp)
  /-- TSENDX: Appends a transfer of a count of bytes held in a register (R213) -/
  | tsendx (g : Guard) (o : AbcOp)
  /-- TNOTE: Appends a zero-byte notice transfer (R213) -/
  | tnote (g : Guard) (o : BmdOp)
  /-- HFORK: Appends to hD a gate on the earlier items of hS (R66) -/
  | hfork (g : Guard) (o : HforkOp)
  /-- HJOIN: Appends gates to both handles, on the items of either (R66) -/
  | hjoin (g : Guard) (o : HforkOp)
  /-- HJOINA: Appends a gate to all eight queues (R66) -/
  | hjoina (g : Guard) (o : ScopeOp)
  /-- HWAIT: Waits until the earlier items of hS are performed (R66) -/
  | hwait (g : Guard) (o : HwaitOp)
  /-- HPASS: Appends a release token to a global tile (R66) -/
  | hpass (g : Guard) (o : HpassOp)
  /-- HRECV: Appends a gate that opens when a crew tile is FULL or POISON (R66) -/
  | hrecv (g : Guard) (o : HrecvOp)
  /-- HCNT: Reads the entry count of a handle queue (R66) -/
  | hcnt (g : Guard) (o : HcntOp)
  /-- BARINIT: Sets EXPECT and clears a quiet or poisoned barrier (R218) -/
  | barinit (g : Guard) (o : BarinitOp)
  /-- BARARR: Appends an arrival item that returns the PHASE (R219) -/
  | bararr (g : Guard) (o : BararrOp)
  /-- BARARX: Appends an arrival item that also posts bytes (R219) -/
  | bararx (g : Guard) (o : BararxOp)
  /-- BAREXP: Appends an item that posts expected bytes (R219) -/
  | barexp (g : Guard) (o : TagAOp)
  /-- BARWAIT: Waits for PHASE to differ from xA, then acquires (R220) -/
  | barwait (g : Guard) (o : BarwaitOp)
  /-- BARTRY: Tests whether PHASE differs, without waiting (R220) -/
  | bartry (g : Guard) (o : BartryOp)
  /-- BARINV: Poisons a barrier (R218) -/
  | barinv (g : Guard) (o : BarinvOp)
  /-- SPAWN: Reads a launch record and offers it to the partition's spawn queue (R223) -/
  | spawn (g : Guard) (o : SpawnOp)
  /-- EXIT: Retires the strand at once (R224) -/
  | exit (g : Guard)
  /-- YIELD: Gives the other ready strands one issue each (R224) -/
  | yield (g : Guard)
  /-- PARK: Waits for an event, a crew tag or barrier change, or the cycle limit (R224) -/
  | park (g : Guard) (o : SrcX)
  /-- CPYGO: Checks a command block, takes an engine slot and appends a copy command (R230) -/
  | cpygo (g : Guard) (o : CpygoOp)
  /-- CPYSTAT: Reads the state of a copy job by its ticket (R233) -/
  | cpystat (g : Guard) (o : X2)
  /-- CPYABORT: Stops a copy job with CODE 3 (R233) -/
  | cpyabort (g : Guard) (o : SrcX)
  /-- LAYSET: Loads a layout entry from scratchpad, after checking it (R228) -/
  | layset (g : Guard) (o : LayOp)
  /-- LAYGET: Writes a layout entry to scratchpad (R228) -/
  | layget (g : Guard) (o : LayOp)
  /-- RGPUT: Appends a ring item that writes samples at the ring head (R238) -/
  | rgput (g : Guard) (o : AbcOp)
  /-- RGREAD: Copies ring samples into scratchpad and counts the lost ones (R238) -/
  | rgread (g : Guard) (o : RgreadOp)
  /-- RGPOS: Reads the ring head index (R238) -/
  | rgpos (g : Guard) (o : RgposOp)
  /-- TRGNEXT: Waits for a takeable candidate and takes it (R239) -/
  | trgnext (g : Guard) (o : RgposOp)
  /-- TRGFWD: Appends an item that forwards a candidate to the next level (R240) -/
  | trgfwd (g : Guard) (o : TrgOp)
  /-- TRGACC: Appends an item that accepts a candidate and claims its window (R240) -/
  | trgacc (g : Guard) (o : TrgOp)
  /-- TRGREJ: Appends an item that rejects a candidate and releases its hold (R240) -/
  | trgrej (g : Guard) (o : TrgrejOp)
  /-- TRGMARK: Appends an item that sets a replay checkpoint (R240) -/
  | trgmark (g : Guard) (o : BmdOp)
  /-- VADD: Vector integer add (R165) -/
  | vadd (g : Guard) (o : V3i)
  /-- VSUB: Vector integer subtract (R165) -/
  | vsub (g : Guard) (o : V3i)
  /-- VMUL: Vector integer multiply, low bits (R165) -/
  | vmul (g : Guard) (o : V3i)
  /-- VMULH: Vector integer multiply, high bits (R165) -/
  | vmulh (g : Guard) (o : V3i)
  /-- VMADD: Vector integer multiply-add (R165) -/
  | vmadd (g : Guard) (o : V3i)
  /-- VAND: Vector bitwise and (R165) -/
  | vand (g : Guard) (o : V3i)
  /-- VOR: Vector bitwise or (R165) -/
  | vor (g : Guard) (o : V3i)
  /-- VXOR: Vector bitwise exclusive or (R165) -/
  | vxor (g : Guard) (o : V3i)
  /-- VSHL: Vector shift left (R165) -/
  | vshl (g : Guard) (o : V3i)
  /-- VSHR: Vector logical shift right (R165) -/
  | vshr (g : Guard) (o : V3i)
  /-- VSAR: Vector arithmetic shift right (R165) -/
  | vsar (g : Guard) (o : V3i)
  /-- VMIN: Vector integer minimum (R165) -/
  | vmin (g : Guard) (o : V3i)
  /-- VMAX: Vector integer maximum (R165) -/
  | vmax (g : Guard) (o : V3i)
  /-- VABS: Vector integer absolute value (R165) -/
  | vabs (g : Guard) (o : V2i)
  /-- VNEG: Vector integer negation (R165) -/
  | vneg (g : Guard) (o : V2i)
  /-- VADDS: Vector saturating add (R165) -/
  | vadds (g : Guard) (o : V3i)
  /-- VSUBS: Vector saturating subtract (R165) -/
  | vsubs (g : Guard) (o : V3i)
  /-- VPOP: Vector population count (R165) -/
  | vpop (g : Guard) (o : V2i)
  /-- VCLZ: Vector leading-zero count (R165) -/
  | vclz (g : Guard) (o : V2i)
  /-- VDOT4: Four-way byte dot product accumulated into each lane (R165) -/
  | vdot4 (g : Guard) (o : V3i)
  /-- VSEL: Selects lanes of vA or vB by a mask (R165) -/
  | vsel (g : Guard) (o : V3i)
  /-- VFADD: Vector floating-point add (R166) -/
  | vfadd (g : Guard) (o : V3f)
  /-- VFSUB: Vector floating-point subtract (R166) -/
  | vfsub (g : Guard) (o : V3f)
  /-- VFMUL: Vector floating-point multiply (R166) -/
  | vfmul (g : Guard) (o : V3f)
  /-- VFFMA: Vector fused multiply-add (R166) -/
  | vffma (g : Guard) (o : V3f)
  /-- VFFMS: Vector fused multiply-subtract (R166) -/
  | vffms (g : Guard) (o : V3f)
  /-- VFMIN: Vector floating-point minimum (R166) -/
  | vfmin (g : Guard) (o : V3fn)
  /-- VFMAX: Vector floating-point maximum (R166) -/
  | vfmax (g : Guard) (o : V3fn)
  /-- VFABS: Vector sign clear (R166) -/
  | vfabs (g : Guard) (o : V2fn)
  /-- VFNEG: Vector sign inversion (R166) -/
  | vfneg (g : Guard) (o : V2fn)
  /-- VFDIV: Vector division (R166) -/
  | vfdiv (g : Guard) (o : V3f)
  /-- VFSQRT: Vector square root (R166) -/
  | vfsqrt (g : Guard) (o : V2f)
  /-- VFRCP: Vector reciprocal (R166) -/
  | vfrcp (g : Guard) (o : V2f)
  /-- VFRSQ: Vector reciprocal square root (R166) -/
  | vfrsq (g : Guard) (o : V2f)
  /-- VFEXP2: Vector power of two (R166) -/
  | vfexp2 (g : Guard) (o : V2f)
  /-- VFLOG2: Vector base-2 logarithm (R166) -/
  | vflog2 (g : Guard) (o : V2f)
  /-- VFSCL: Vector scaling by a power of two (R166) -/
  | vfscl (g : Guard) (o : V3f)
  /-- VCVT: Converts the elements of one block of lanes between types (R169) -/
  | vcvt (g : Guard) (o : VcvtOp)
  /-- VCVTSC: Quantising conversion with a scalar scale (R169) -/
  | vcvtsc (g : Guard) (o : VcvtscOp)
  /-- VPERM: Permutes lanes by index (R171) -/
  | vperm (g : Guard) (o : V3m)
  /-- VBCAST: Broadcasts xA to the lanes (R171) -/
  | vbcast (g : Guard) (o : VxOp)
  /-- VINS: Inserts xA into one lane (R171) -/
  | vins (g : Guard) (o : VinsOp)
  /-- VEXT: Extracts one lane into xD (R171) -/
  | vext (g : Guard) (o : VextOp)
  /-- VRED: Reduces the lanes by a tree into xD (R172) -/
  | vred (g : Guard) (o : VredOp)
  /-- VSCAN: Inclusive scan over the lanes (R172) -/
  | vscan (g : Guard) (o : VscanOp)
  /-- VCOMP: Compresses the selected lanes downward (R173) -/
  | vcomp (g : Guard) (o : V2m)
  /-- VEXPD: Expands lanes into the selected positions (R173) -/
  | vexpd (g : Guard) (o : V2m)
  /-- VSLIDE: Slides lanes by a signed offset (R173) -/
  | vslide (g : Guard) (o : VslideOp)
  /-- VCMP_EQ: Vector compare, equal, into a mask (R174) -/
  | vcmpEq (g : Guard) (o : VcmpOp)
  /-- VCMP_NE: Vector compare, not equal (R174) -/
  | vcmpNe (g : Guard) (o : VcmpOp)
  /-- VCMP_LT: Vector compare, signed less than (R174) -/
  | vcmpLt (g : Guard) (o : VcmpOp)
  /-- VCMP_GE: Vector compare, signed greater or equal (R174) -/
  | vcmpGe (g : Guard) (o : VcmpOp)
  /-- VCMP_LE: Vector compare, signed less or equal (R174) -/
  | vcmpLe (g : Guard) (o : VcmpOp)
  /-- VCMP_GT: Vector compare, signed greater than (R174) -/
  | vcmpGt (g : Guard) (o : VcmpOp)
  /-- VCMP_LTN: Vector compare, natural less than (R174) -/
  | vcmpLtn (g : Guard) (o : VcmpOp)
  /-- VCMP_GEN: Vector compare, natural greater or equal (R174) -/
  | vcmpGen (g : Guard) (o : VcmpOp)
  /-- VCMP_LEN: Vector compare, natural less or equal (R174) -/
  | vcmpLen (g : Guard) (o : VcmpOp)
  /-- VCMP_GTN: Vector compare, natural greater than (R174) -/
  | vcmpGtn (g : Guard) (o : VcmpOp)
  /-- VCMP_TST: Vector compare, bits test (R174) -/
  | vcmpTst (g : Guard) (o : VcmpOp)
  /-- VCMP_NTST: Vector compare, bits test clear (R174) -/
  | vcmpNtst (g : Guard) (o : VcmpOp)
  /-- VCMP_FEQ: Vector float compare, equal (R174) -/
  | vcmpFeq (g : Guard) (o : VcmpOp)
  /-- VCMP_FLT: Vector float compare, less than (R174) -/
  | vcmpFlt (g : Guard) (o : VcmpOp)
  /-- VCMP_FLE: Vector float compare, less or equal (R174) -/
  | vcmpFle (g : Guard) (o : VcmpOp)
  /-- VCMP_FUN: Vector float compare, unordered (R174) -/
  | vcmpFun (g : Guard) (o : VcmpOp)
  /-- VRAND: Computes reproducible random bits from a seed and an index (R177) -/
  | vrand (g : Guard) (o : VrandOp)
  /-- VMOV: Copies lanes (R175) -/
  | vmov (g : Guard) (o : V2m)
  /-- VMOVI: Fills lanes from a 21-bit immediate (R176) -/
  | vmovi (g : Guard) (o : VmoviOp)
  /-- VIOTA: Writes xA + i into each lane i (R175) -/
  | viota (g : Guard) (o : VxOp)
  /-- KAND: Mask and (R175) -/
  | kand (g : Guard) (o : K3)
  /-- KOR: Mask or (R175) -/
  | kor (g : Guard) (o : K3)
  /-- KXOR: Mask exclusive or (R175) -/
  | kxor (g : Guard) (o : K3)
  /-- KNOT: Mask negation (R175) -/
  | knot (g : Guard) (o : K2)
  /-- KSETX: Sets a mask from xA (R175) -/
  | ksetx (g : Guard) (o : KsetxOp)
  /-- KGETX: Copies a mask into xD (R175) -/
  | kgetx (g : Guard) (o : KgetxOp)
  /-- KPOP: Counts the set bits of a mask (R175) -/
  | kpop (g : Guard) (o : KgetxOp)
  /-- VBDOT: Writes each lane's block-scaled FP4 contribution (R179) -/
  | vbdot (g : Guard) (o : VdotOp)
  /-- VBDOTS: Sums the block contributions by two chains into xD (R179) -/
  | vbdots (g : Guard) (o : VdotsOp)
  /-- XLINV_DONE: The accesses that used the removed translations are performed and BUSY clears (R325) -/
  | xlinvDone
  /-- HOT_PAGE_PERIOD_END: At the end of a period the tracker publishes the hot-page list (R371) -/
  | hotPagePeriodEnd
  /-- POWER_UP: The 48 V input reaches its range and the boot ROM starts bring-up (R402) -/
  | powerUp
  /-- THERMAL_SHUTDOWN: A die reaching 105 °C takes the package out of service (R408) -/
  | thermalShutdown
  deriving DecidableEq, Repr

end Sys2Proof
end

