-- ==== Sys2Proof/Decode.lean ====
section
/-!
DEFINITION. Decode.lean: reading an instruction from its words (R104 to R113, R126 to R132) and writing it
back. A word is rejected by the name of the first check of R131 that it fails.
-/

namespace Sys2Proof

/-- Why bytes are not an instruction: the checks of R131 in their order, and too few bytes. -/
inductive DecodeError where
  | major | function | mustBeZero | register | modifier | guard | truncated
  deriving DecidableEq, Repr

/-- TRAP_INFO bits 2:0 of the ILLEGAL a failed check raises (R131). -/
def DecodeError.info : DecodeError → Word
  | .major => 1 | .function => 2 | .mustBeZero => 3 | .register => 4 | .modifier => 5 | .guard => 6
  | .truncated => 0

/-- The fields of the 64-bit word (R104), from bit 63 down. -/
structure Fields where
  imm : BitVec 16
  md : BitVec 8
  fn : BitVec 6
  qn : BitVec 1
  q : BitVec 3
  c : BitVec 6
  b : BitVec 6
  a : BitVec 6
  d : BitVec 6
  maj : BitVec 6
  deriving DecidableEq, Repr

/-- The fields of a word (R104). -/
def Fields.ofWord (w : Word) : Fields where
  imm := w.extractLsb' 48 16
  md := w.extractLsb' 40 8
  fn := w.extractLsb' 34 6
  qn := w.extractLsb' 33 1
  q := w.extractLsb' 30 3
  c := w.extractLsb' 24 6
  b := w.extractLsb' 18 6
  a := w.extractLsb' 12 6
  d := w.extractLsb' 6 6
  maj := w.extractLsb' 0 6

/-- The word of its fields (R104). -/
def Fields.toWord (f : Fields) : Word :=
  f.imm ++ f.md ++ f.fn ++ f.qn ++ f.q ++ f.c ++ f.b ++ f.a ++ f.d ++ f.maj

/-- What a 6-bit register field may hold (R108, R130, R237). -/
inductive FieldKind where
  | zero | x | v | cDst | cSrc | kDst | kSrc | h | z | pair | pairDst | raw
  deriving DecidableEq, Repr

/-- The layout of MD in a row (R129): which bits must be zero, which values are reserved. -/
inductive MdKind where
  | zero3
  | zero5
  | scope3
  | scope5
  | item (acq rel : Bool)
  | w (ok : Bool)
  | comb
  | lea
  | fop (rounds : Bool)
  | vec (types : BitVec 16) (rounds rs sat : Bool)
  | raw
  | mma
  | mmas
  deriving DecidableEq, Repr

/-- The layout of one row's word: its register fields, MD, the IMM16 bits that must be zero (check 3 of
R131), and the row's own further limit on modifier values (check 5). -/
structure Format where
  d : FieldKind := .zero
  a : FieldKind := .zero
  b : FieldKind := .zero
  c : FieldKind := .zero
  md : MdKind := .zero3
  immZero : BitVec 16 := 0xFFFF#16
  extra : Bool := true
  deriving DecidableEq, Repr

/-- A row of the opcode map with the instruction its fields name. -/
structure Row where
  format : Format
  instr : Instr
  deriving DecidableEq, Repr

/-! ### Field values and the names they stand for -/

def Fields.guard (f : Fields) : Guard := ⟨f.qn == 1#1, f.q⟩
def r5 (r : BitVec 6) : BitVec 5 := r.setWidth 5
def r3 (r : BitVec 6) : BitVec 3 := r.setWidth 3
def up {n : Nat} (r : BitVec n) : BitVec 6 := r.setWidth 6
def bit8 (b : Bool) : BitVec 8 := (BitVec.ofBool b).setWidth 8

/-- Scope codes (R54); code 7 is reserved, and never reaches a meaning. -/
def Scope.ofBits (n : BitVec 3) : Scope :=
  match n with
  | 0#3 => .strand | 1#3 => .core | 2#3 => .cluster | 3#3 => .die | 4#3 => .package | 5#3 => .domain
  | _ => .system

def Scope.toBits : Scope → BitVec 3
  | .strand => 0 | .core => 1 | .cluster => 2 | .die => 3 | .package => 4 | .domain => 5 | .system => 6

/-- Order codes (R54). -/
def Order.ofBits (n : BitVec 2) : Order :=
  match n with
  | 0#2 => .plain | 1#2 => .acquire | 2#2 => .release | _ => .acqRel

def Order.toBits : Order → BitVec 2
  | .plain => 0 | .acquire => 1 | .release => 2 | .acqRel => 3

def scopeOf (md : BitVec 8) : Scope := .ofBits (md.extractLsb' 3 3)
def mdOf (md : BitVec 8) : Md := ⟨.ofBits (md.extractLsb' 6 2), scopeOf md, md.setWidth 3⟩
def mdBits (m : Md) : BitVec 8 := m.order.toBits ++ m.scope.toBits ++ m.h
def shBits (s : Scope) (h : HReg) : BitVec 8 := mdBits ⟨.plain, s, h⟩
def scopeBits (s : Scope) : BitVec 8 := shBits s 0

/-- Type codes (R79); code 0xF is reserved. -/
def ElemType.ofBits (n : BitVec 4) : ElemType :=
  match n with
  | 0#4 => .i8 | 1#4 => .n8 | 2#4 => .i16 | 3#4 => .n16 | 4#4 => .i32 | 5#4 => .n32 | 6#4 => .f16
  | 7#4 => .bf16 | 8#4 => .f32 | 9#4 => .e4m3 | 10#4 => .e5m2 | 11#4 => .e2m1 | 12#4 => .i4
  | 13#4 => .e8m0 | _ => .sc20

def ElemType.toBits : ElemType → BitVec 4
  | .i8 => 0 | .n8 => 1 | .i16 => 2 | .n16 => 3 | .i32 => 4 | .n32 => 5 | .f16 => 6 | .bf16 => 7
  | .f32 => 8 | .e4m3 => 9 | .e5m2 => 10 | .e2m1 => 11 | .i4 => 12 | .e8m0 => 13 | .sc20 => 14

def IntElem.ofBits (n : BitVec 4) : IntElem :=
  match n with
  | 0#4 => .i8 | 1#4 => .n8 | 2#4 => .i16 | 3#4 => .n16 | 4#4 => .i32 | _ => .n32

def IntElem.toBits : IntElem → BitVec 4
  | .i8 => 0 | .n8 => 1 | .i16 => 2 | .n16 => 3 | .i32 => 4 | .n32 => 5

def FloatElem.ofBits (n : BitVec 4) : FloatElem :=
  match n with
  | 6#4 => .f16 | 7#4 => .bf16 | _ => .f32

def FloatElem.toBits : FloatElem → BitVec 4
  | .f16 => 6 | .bf16 => 7 | .f32 => 8

def RedElem.ofBits (n : BitVec 4) : RedElem :=
  match n with
  | 4#4 => .i32 | 5#4 => .n32 | _ => .f32

def RedElem.toBits : RedElem → BitVec 4
  | .i32 => 4 | .n32 => 5 | .f32 => 8

def RedOp.ofBits (n : BitVec 2) : RedOp :=
  match n with
  | 0#2 => .add | 1#2 => .min | _ => .max

def RedOp.toBits : RedOp → BitVec 2
  | .add => 0 | .min => 1 | .max => 2

def ScaleType.ofBits (n : BitVec 4) : ScaleType :=
  match n with
  | 9#4 => .e4m3 | 10#4 => .e5m2 | _ => .e8m0

def ScaleType.toBits : ScaleType → BitVec 4
  | .e4m3 => 9 | .e5m2 => 10 | .e8m0 => 13

/-- Tile type codes of MMA (R128). -/
def MatType.ofBits (n : BitVec 3) : MatType :=
  match n with
  | 0#3 => .bf16 | 1#3 => .f16 | 2#3 => .e4m3 | 3#3 => .e5m2 | 4#3 => .e2m1 | 5#3 => .i8 | _ => .n8

def MatType.toBits : MatType → BitVec 3
  | .bf16 => 0 | .f16 => 1 | .e4m3 => 2 | .e5m2 => 3 | .e2m1 => 4 | .i8 => 5 | .n8 => 6

/-- The classes whose types may meet in one MMA (R128). -/
def MatType.group : MatType → Nat
  | .bf16 | .f16 => 0
  | .e4m3 | .e5m2 => 1
  | .e2m1 => 2
  | .i8 | .n8 => 3

def matFn (ta tb : MatType) : BitVec 6 := tb.toBits ++ ta.toBits

/-- The type pairs MMA accepts; any other FN is reserved (R128). -/
def matFnOk (fn : BitVec 6) : Bool :=
  fn.setWidth 3 != 7#3 && fn.extractLsb' 3 3 != 7#3 &&
    (MatType.ofBits (fn.setWidth 3)).group == (MatType.ofBits (fn.extractLsb' 3 3)).group

/-- The type pairs MMAS accepts: codes 2, 3 and 4 (R128). -/
def scaledFnOk (fn : BitVec 6) : Bool :=
  matFnOk fn && ((MatType.ofBits (fn.setWidth 3)).group == 1 || (MatType.ofBits (fn.setWidth 3)).group == 2)

/-- Rounding code with the DYN bit (R81, R111); the reserved codes never reach a meaning. -/
def rndOf (dyn : Bool) (n : BitVec 3) : Rnd :=
  if dyn then .dyn else
    match n with
    | 0#3 => .rne | 1#3 => .rtz | 2#3 => .rdn | _ => .rup

def Rnd.toBits : Rnd → BitVec 3
  | .dyn => 0 | .rne => 0 | .rtz => 1 | .rdn => 2 | .rup => 3

/-- IMM16 with the DYN bit set as the rounding asks (R111). -/
def dynBit (r : Rnd) : BitVec 16 := if r = .dyn then 0x8000#16 else 0

def fopBits (fw : FWidth) (r : Rnd) : BitVec 8 :=
  (r.toBits ++ (match fw with | .f32 => 0#1 | .f64 => 1#1)).setWidth 8

def vecBits (t : BitVec 4) (r : Rnd) (sat : Bool) : BitVec 8 := BitVec.ofBool sat ++ r.toBits ++ t

def FWidth.ofBit (b : Bool) : FWidth := if b then .f64 else .f32
def FWidth.toBit : FWidth → Bool
  | .f32 => false | .f64 => true

def IntWidth.ofBits (n : BitVec 2) : IntWidth :=
  match n with
  | 0#2 => .i32 | 1#2 => .n32 | 2#2 => .i64 | _ => .n64

def IntWidth.toBits : IntWidth → BitVec 2
  | .i32 => 0 | .n32 => 1 | .i64 => 2 | .n64 => 3

def Comb.ofBits (n : BitVec 2) : Comb :=
  match n with
  | 0#2 => .set | 1#2 => .and | _ => .or

def Comb.toBits : Comb → BitVec 2
  | .set => 0 | .and => 1 | .or => 2

def combBits (c : Comb) (w : Bool) : BitVec 8 := (BitVec.ofBool w ++ c.toBits).setWidth 8

def Size.ofBits (n : BitVec 2) : Size :=
  match n with
  | 0#2 => .s8 | 1#2 => .s16 | 2#2 => .s32 | _ => .s64

def Size.toBits : Size → BitVec 2
  | .s8 => 0 | .s16 => 1 | .s32 => 2 | .s64 => 3

/-- Bytes of an access size. -/
def Size.bytes : Size → Nat
  | .s8 => 1 | .s16 => 2 | .s32 => 4 | .s64 => 8

def LdMode.ofBits (spec ro : Bool) : LdMode := if spec then .spec else if ro then .ro else .plain

/-- FN of LD and TLD (R127). -/
def ldFn (sz : Size) (sext : Bool) (m : LdMode) : BitVec 6 :=
  (match m with | .plain => 0#3 | .spec => 1#3 | .ro => 2#3) ++ BitVec.ofBool sext ++ sz.toBits

/-- The FN values LD accepts (R127). -/
def ldFnOk (fn : BitVec 6) : Bool :=
  fn.setWidth 3 != 7#3 && !(fn[3] && fn[4]) && !fn[5]

/-- FN of an atomic: bit 5 selects 64 bits (R127). -/
def atomFn (op : BitVec 6) (w64 : Bool) : BitVec 6 := if w64 then op ||| 0x20#6 else op

def TlbiKind.ofBits (n : BitVec 2) : TlbiKind :=
  match n with
  | 0#2 => .page | 1#2 => .space | _ => .all

def TlbiKind.toBits : TlbiKind → BitVec 2
  | .page => 0 | .space => 1 | .all => 2

/-- The 30-bit word offset of format J (R112). -/
def offOf (f : Fields) : BitVec 30 := f.imm ++ f.md ++ f.fn
def offImm (o : BitVec 30) : BitVec 16 := o.extractLsb' 14 16
def offMd (o : BitVec 30) : BitVec 8 := o.extractLsb' 6 8
def offFn (o : BitVec 30) : BitVec 6 := o.setWidth 6

/-! ### Tile, barrier and layout-entry operands (R205) -/

def tileRefOf (f : Fields) : TileRef := if f.imm[15] then .reg f.c else .imm (f.imm.setWidth 8)
def entryRefOf (f : Fields) : EntryRef := if f.imm[15] then .reg f.c else .imm (f.imm.setWidth 6)
def TileRef.cField : TileRef → BitVec 6
  | .imm _ => 0 | .reg c => c
def TileRef.immField : TileRef → BitVec 16
  | .imm n => n.setWidth 16 | .reg _ => 0x8000#16
def EntryRef.cField : EntryRef → BitVec 6
  | .imm _ => 0 | .reg c => c
def EntryRef.immField : EntryRef → BitVec 16
  | .imm n => n.setWidth 16 | .reg _ => 0x8000#16

/-- C names a register only in the register form of R205. -/
def refC (f : Fields) : FieldKind := if f.imm[15] then .x else .zero

/-- The zero bits of IMM16 under R205: bits 7:0 as well in the register form. -/
def refZero (f : Fields) (m : BitVec 16) : BitVec 16 := if f.imm[15] then m ||| 0x00FF#16 else m

def selClr (notify clr : Bool) : BitVec 16 :=
  (if notify then 0x4000#16 else 0) ||| (if clr then 0x2000#16 else 0)

/-! ### Limits on types (R165 to R179, R201 to R203, R213) -/

/-- Bits of an element type (R79); SC20 fills a 32-bit lane (R169). -/
def ElemType.width : ElemType → Nat
  | .i8 | .n8 | .e4m3 | .e5m2 | .e8m0 => 8
  | .i16 | .n16 | .f16 | .bf16 => 16
  | .i32 | .n32 | .f32 | .sc20 => 32
  | .e2m1 | .i4 => 4

/-- Destinations on which .sat is allowed in a conversion (R168). -/
def satDest (t : BitVec 4) : Bool := t == 0x6#4 || t == 0x7#4 || t == 0xA#4 || t == 0xE#4

/-- How many parts a conversion between two types has (R169). -/
def cvtRatio (dt st : ElemType) : Nat := max dt.width st.width / min dt.width st.width

/-- The limits of VCVT that are modifier values (R168, R169): the source type, PART, and vR only under .rs. -/
def cvtOk (f : Fields) : Bool :=
  f.imm.setWidth 4 != 0xF#4 &&
    decide ((f.imm.extractLsb' 4 3).toNat <
      cvtRatio (.ofBits (f.md.setWidth 4)) (.ofBits (f.imm.setWidth 4)))

def cvtZero (f : Fields) : BitVec 16 := if f.md.extractLsb' 4 3 == 4#3 then 0 else 0x7C00#16

def cvtRndOf (f : Fields) : CvtRnd :=
  if f.md.extractLsb' 4 3 == 4#3 then .rs (f.imm.extractLsb' 10 5)
  else .fixed (rndOf f.imm[15] (f.md.extractLsb' 4 3))

def cvtMd (dt : ElemType) (r : CvtRnd) (sat : Bool) : BitVec 8 :=
  match r with
  | .fixed r => vecBits dt.toBits r sat
  | .rs _ => BitVec.ofBool sat ++ 4#3 ++ dt.toBits

def cvtImm (st : ElemType) (part : BitVec 3) (kr : KReg) (r : CvtRnd) : BitVec 16 :=
  match r with
  | .fixed r => dynBit r ||| (kr ++ part ++ st.toBits).setWidth 16
  | .rs v => (v ++ kr ++ part ++ st.toBits).setWidth 16

/-- Only the f32 sum of VRED and VSCAN rounds (R172). -/
def redRounds (f : Fields) : Bool := f.imm.setWidth 2 == 0#2 && f.md.setWidth 4 == 0x8#4

/-- The destination types of ZST for a source type (R202), one bit a code. -/
def zstDests (st : BitVec 4) : BitVec 16 :=
  match st with
  | 0x8#4 => 0x0FC0#16
  | 0x4#4 => 0x111F#16
  | _ => 0

/-- The destination types of ZSTS (R203). -/
def zstsDests : BitVec 16 := 0x1EC1#16

/-- Where ZST and ZSTS allow .sat (R202). -/
def zstSat (st dt : BitVec 4) : Bool := st == 0x8#4 && (dt == 0x6#4 || dt == 0x7#4 || dt == 0xA#4)

/-- COL of ZST and ZSTS lies in 0 to 32/w − 1 (R202). -/
def colOk (dt : BitVec 4) (col : BitVec 3) : Bool :=
  decide (col.toNat < 32 / (ElemType.ofBits dt).width)

/-- The byte counts TSEND accepts (R213). -/
def sendLenOk (n : BitVec 13) : Bool :=
  n.setWidth 2 == 0#2 && n != 0#13 && decide (n ≤ 4096#13)

/-! ### The rows of the opcode map -/

/-- The functions of major 0x01 (SYS, R126 to R128). -/
noncomputable def rowSys (f : Fields) : Option Row :=
  match f.fn with
  | 0x00#6 => some ⟨{ }, .nop f.guard⟩
  | 0x01#6 => some ⟨{ immZero := 0 }, .trap f.guard ⟨f.imm⟩⟩
  | 0x02#6 => some ⟨{ }, .brk f.guard⟩
  | 0x03#6 => some ⟨{ }, .eret f.guard⟩
  | 0x04#6 => some ⟨{ d := .x, immZero := 0 }, .srd f.guard ⟨f.d, f.imm⟩⟩
  | 0x05#6 => some ⟨{ a := .x, immZero := 0 }, .swr f.guard ⟨f.a, f.imm⟩⟩
  | 0x06#6 => some ⟨{ md := .scope3 }, .fence f.guard ⟨scopeOf f.md⟩⟩
  | 0x07#6 => some ⟨{ a := .x, b := .x, md := .scope3 }, .fencer f.guard ⟨f.a, f.b, scopeOf f.md⟩⟩
  | 0x08#6 => some ⟨{ a := .x }, .chk f.guard ⟨f.a⟩⟩
  | 0x09#6 => some ⟨{ a := .v, c := .kSrc }, .chkv f.guard ⟨r5 f.a, r3 f.c⟩⟩
  | 0x0A#6 => some ⟨{ }, .roinv f.guard⟩
  | 0x0B#6 => some ⟨{ a := .x, b := .x, immZero := 0xFFFC#16, extra := f.imm.setWidth 2 != 3#2 }, .tlbi f.guard ⟨f.a, f.b, TlbiKind.ofBits (f.imm.setWidth 2)⟩⟩
  | 0x0C#6 => some ⟨{ a := .x }, .waiti f.guard ⟨f.a⟩⟩
  | _ => none

/-- The functions of major 0x02 (JMP, R126 to R128). -/
noncomputable def rowJmp (f : Fields) : Option Row :=
  some ⟨{ md := .raw, immZero := 0 }, .jmp f.guard ⟨offOf f⟩⟩

/-- The functions of major 0x03 (CALL, R126 to R128). -/
noncomputable def rowCall (f : Fields) : Option Row :=
  some ⟨{ d := .x, md := .raw, immZero := 0 }, .call f.guard ⟨f.d, offOf f⟩⟩

/-- The functions of major 0x04 (JREG, R126 to R128). -/
noncomputable def rowJreg (f : Fields) : Option Row :=
  match f.fn with
  | 0x00#6 => some ⟨{ a := .x }, .jr f.guard ⟨f.a⟩⟩
  | 0x01#6 => some ⟨{ d := .x, a := .x }, .callr f.guard ⟨f.d, f.a⟩⟩
  | 0x02#6 => some ⟨{ a := .x }, .ret f.guard ⟨f.a⟩⟩
  | _ => none

/-- The functions of major 0x06 (MOVL, R126 to R128). -/
noncomputable def rowMovl (f : Fields) (lit : Word) : Option Row :=
  match f.fn with
  | 0x00#6 => some ⟨{ d := .x }, .movl f.guard ⟨f.d, lit⟩⟩
  | _ => none

/-- The functions of major 0x08 (IOP, R126 to R128). -/
noncomputable def rowIop (f : Fields) : Option Row :=
  match f.fn with
  | 0x00#6 => some ⟨{ d := .x, a := .x, b := .x, md := .w true }, .add f.guard ⟨f.d, f.a, f.b, f.md[0]⟩⟩
  | 0x01#6 => some ⟨{ d := .x, a := .x, b := .x, md := .w true }, .sub f.guard ⟨f.d, f.a, f.b, f.md[0]⟩⟩
  | 0x02#6 => some ⟨{ d := .x, a := .x, b := .x, md := .w false }, .and f.guard ⟨f.d, f.a, f.b⟩⟩
  | 0x03#6 => some ⟨{ d := .x, a := .x, b := .x, md := .w false }, .or f.guard ⟨f.d, f.a, f.b⟩⟩
  | 0x04#6 => some ⟨{ d := .x, a := .x, b := .x, md := .w false }, .xor f.guard ⟨f.d, f.a, f.b⟩⟩
  | 0x05#6 => some ⟨{ d := .x, a := .x, b := .x, md := .w false }, .andn f.guard ⟨f.d, f.a, f.b⟩⟩
  | 0x06#6 => some ⟨{ d := .x, a := .x, b := .x, md := .w false }, .orn f.guard ⟨f.d, f.a, f.b⟩⟩
  | 0x07#6 => some ⟨{ d := .x, a := .x, b := .x, md := .w true }, .shl f.guard ⟨f.d, f.a, f.b, f.md[0]⟩⟩
  | 0x08#6 => some ⟨{ d := .x, a := .x, b := .x, md := .w true }, .shr f.guard ⟨f.d, f.a, f.b, f.md[0]⟩⟩
  | 0x09#6 => some ⟨{ d := .x, a := .x, b := .x, md := .w true }, .sar f.guard ⟨f.d, f.a, f.b, f.md[0]⟩⟩
  | 0x0A#6 => some ⟨{ d := .x, a := .x, b := .x, md := .w true }, .rol f.guard ⟨f.d, f.a, f.b, f.md[0]⟩⟩
  | 0x0B#6 => some ⟨{ d := .x, a := .x, b := .x, md := .w true }, .ror f.guard ⟨f.d, f.a, f.b, f.md[0]⟩⟩
  | 0x0C#6 => some ⟨{ d := .x, a := .x, b := .x, md := .w true }, .mul f.guard ⟨f.d, f.a, f.b, f.md[0]⟩⟩
  | 0x0D#6 => some ⟨{ d := .x, a := .x, b := .x, md := .w true }, .mulh f.guard ⟨f.d, f.a, f.b, f.md[0]⟩⟩
  | 0x0E#6 => some ⟨{ d := .x, a := .x, b := .x, md := .w true }, .mulhn f.guard ⟨f.d, f.a, f.b, f.md[0]⟩⟩
  | 0x0F#6 => some ⟨{ d := .x, a := .x, b := .x, c := .x, md := .w true }, .madd f.guard ⟨f.d, f.a, f.b, f.c, f.md[0]⟩⟩
  | 0x10#6 => some ⟨{ d := .x, a := .x, b := .x, md := .w true }, .div f.guard ⟨f.d, f.a, f.b, f.md[0]⟩⟩
  | 0x11#6 => some ⟨{ d := .x, a := .x, b := .x, md := .w true }, .divn f.guard ⟨f.d, f.a, f.b, f.md[0]⟩⟩
  | 0x12#6 => some ⟨{ d := .x, a := .x, b := .x, md := .w true }, .rem f.guard ⟨f.d, f.a, f.b, f.md[0]⟩⟩
  | 0x13#6 => some ⟨{ d := .x, a := .x, b := .x, md := .w true }, .remn f.guard ⟨f.d, f.a, f.b, f.md[0]⟩⟩
  | 0x14#6 => some ⟨{ d := .x, a := .x, b := .x, md := .w true }, .min f.guard ⟨f.d, f.a, f.b, f.md[0]⟩⟩
  | 0x15#6 => some ⟨{ d := .x, a := .x, b := .x, md := .w true }, .max f.guard ⟨f.d, f.a, f.b, f.md[0]⟩⟩
  | 0x16#6 => some ⟨{ d := .x, a := .x, b := .x, md := .w true }, .minn f.guard ⟨f.d, f.a, f.b, f.md[0]⟩⟩
  | 0x17#6 => some ⟨{ d := .x, a := .x, b := .x, md := .w true }, .maxn f.guard ⟨f.d, f.a, f.b, f.md[0]⟩⟩
  | 0x18#6 => some ⟨{ d := .x, a := .x, b := .x, c := .cSrc, md := .w false }, .sel f.guard ⟨f.d, f.a, f.b, r3 f.c⟩⟩
  | 0x19#6 => some ⟨{ d := .x, a := .x, md := .w true }, .clz f.guard ⟨f.d, f.a, f.md[0]⟩⟩
  | 0x1A#6 => some ⟨{ d := .x, a := .x, md := .w true }, .ctz f.guard ⟨f.d, f.a, f.md[0]⟩⟩
  | 0x1B#6 => some ⟨{ d := .x, a := .x, md := .w true }, .pop f.guard ⟨f.d, f.a, f.md[0]⟩⟩
  | 0x1C#6 => some ⟨{ d := .x, a := .x, md := .w true }, .brev f.guard ⟨f.d, f.a, f.md[0]⟩⟩
  | 0x1D#6 => some ⟨{ d := .x, a := .x, md := .w true }, .bswap f.guard ⟨f.d, f.a, f.md[0]⟩⟩
  | 0x1E#6 => some ⟨{ d := .x, a := .x, b := .x, md := .w false }, .sext f.guard ⟨f.d, f.a, f.b⟩⟩
  | 0x1F#6 => some ⟨{ d := .x, a := .x, b := .x, md := .w false }, .zext f.guard ⟨f.d, f.a, f.b⟩⟩
  | 0x20#6 => some ⟨{ d := .x, a := .x, b := .x, c := .x, md := .w false }, .bfx f.guard ⟨f.d, f.a, f.b, f.c⟩⟩
  | 0x21#6 => some ⟨{ d := .x, a := .x, b := .x, c := .x, md := .w false }, .bfi f.guard ⟨f.d, f.a, f.b, f.c⟩⟩
  | _ => none

/-- The functions of major 0x09 (IOPI, R126 to R128). -/
noncomputable def rowIopi (f : Fields) : Option Row :=
  match f.fn with
  | 0x00#6 => some ⟨{ d := .x, a := .x, c := .raw, md := .w true, immZero := 0 }, .iopiAdd f.guard ⟨f.d, f.a, f.c ++ f.imm, f.md[0]⟩⟩
  | 0x02#6 => some ⟨{ d := .x, a := .x, c := .raw, md := .w false, immZero := 0 }, .iopiAnd f.guard ⟨f.d, f.a, f.c ++ f.imm⟩⟩
  | 0x03#6 => some ⟨{ d := .x, a := .x, c := .raw, md := .w false, immZero := 0 }, .iopiOr f.guard ⟨f.d, f.a, f.c ++ f.imm⟩⟩
  | 0x04#6 => some ⟨{ d := .x, a := .x, c := .raw, md := .w false, immZero := 0 }, .iopiXor f.guard ⟨f.d, f.a, f.c ++ f.imm⟩⟩
  | 0x07#6 => some ⟨{ d := .x, a := .x, c := .raw, md := .w true, immZero := 0 }, .iopiShl f.guard ⟨f.d, f.a, f.c ++ f.imm, f.md[0]⟩⟩
  | 0x08#6 => some ⟨{ d := .x, a := .x, c := .raw, md := .w true, immZero := 0 }, .iopiShr f.guard ⟨f.d, f.a, f.c ++ f.imm, f.md[0]⟩⟩
  | 0x09#6 => some ⟨{ d := .x, a := .x, c := .raw, md := .w true, immZero := 0 }, .iopiSar f.guard ⟨f.d, f.a, f.c ++ f.imm, f.md[0]⟩⟩
  | 0x0A#6 => some ⟨{ d := .x, a := .x, c := .raw, md := .w true, immZero := 0 }, .iopiRol f.guard ⟨f.d, f.a, f.c ++ f.imm, f.md[0]⟩⟩
  | 0x0B#6 => some ⟨{ d := .x, a := .x, c := .raw, md := .w true, immZero := 0 }, .iopiRor f.guard ⟨f.d, f.a, f.c ++ f.imm, f.md[0]⟩⟩
  | 0x0C#6 => some ⟨{ d := .x, a := .x, c := .raw, md := .w true, immZero := 0 }, .iopiMul f.guard ⟨f.d, f.a, f.c ++ f.imm, f.md[0]⟩⟩
  | 0x14#6 => some ⟨{ d := .x, a := .x, c := .raw, md := .w true, immZero := 0 }, .iopiMin f.guard ⟨f.d, f.a, f.c ++ f.imm, f.md[0]⟩⟩
  | 0x15#6 => some ⟨{ d := .x, a := .x, c := .raw, md := .w true, immZero := 0 }, .iopiMax f.guard ⟨f.d, f.a, f.c ++ f.imm, f.md[0]⟩⟩
  | 0x16#6 => some ⟨{ d := .x, a := .x, c := .raw, md := .w true, immZero := 0 }, .iopiMinn f.guard ⟨f.d, f.a, f.c ++ f.imm, f.md[0]⟩⟩
  | 0x17#6 => some ⟨{ d := .x, a := .x, c := .raw, md := .w true, immZero := 0 }, .iopiMaxn f.guard ⟨f.d, f.a, f.c ++ f.imm, f.md[0]⟩⟩
  | 0x1E#6 => some ⟨{ d := .x, a := .x, md := .w false, immZero := 0xFFC0#16 }, .iopiSext f.guard ⟨f.d, f.a, f.imm.setWidth 6⟩⟩
  | 0x1F#6 => some ⟨{ d := .x, a := .x, md := .w false, immZero := 0xFFC0#16 }, .iopiZext f.guard ⟨f.d, f.a, f.imm.setWidth 6⟩⟩
  | 0x20#6 => some ⟨{ d := .x, a := .x, md := .w false, immZero := 0xE000#16, extra := decide (f.imm.extractLsb' 6 7 ≤ 64#7) }, .iopiBfx f.guard ⟨f.d, f.a, f.imm.setWidth 6, f.imm.extractLsb' 6 7⟩⟩
  | 0x21#6 => some ⟨{ d := .x, a := .x, md := .w false, immZero := 0xE000#16, extra := decide (f.imm.extractLsb' 6 7 ≤ 64#7) }, .iopiBfi f.guard ⟨f.d, f.a, f.imm.setWidth 6, f.imm.extractLsb' 6 7⟩⟩
  | _ => none

/-- The functions of major 0x0A (CMP, R126 to R128). -/
noncomputable def rowCmp (f : Fields) : Option Row :=
  match f.fn with
  | 0x00#6 => some ⟨{ d := .cDst, a := .x, b := .x, md := .comb }, .cmpEq f.guard ⟨r3 f.d, f.a, f.b, Comb.ofBits (f.md.setWidth 2), f.md[2]⟩⟩
  | 0x01#6 => some ⟨{ d := .cDst, a := .x, b := .x, md := .comb }, .cmpNe f.guard ⟨r3 f.d, f.a, f.b, Comb.ofBits (f.md.setWidth 2), f.md[2]⟩⟩
  | 0x02#6 => some ⟨{ d := .cDst, a := .x, b := .x, md := .comb }, .cmpLt f.guard ⟨r3 f.d, f.a, f.b, Comb.ofBits (f.md.setWidth 2), f.md[2]⟩⟩
  | 0x03#6 => some ⟨{ d := .cDst, a := .x, b := .x, md := .comb }, .cmpGe f.guard ⟨r3 f.d, f.a, f.b, Comb.ofBits (f.md.setWidth 2), f.md[2]⟩⟩
  | 0x04#6 => some ⟨{ d := .cDst, a := .x, b := .x, md := .comb }, .cmpLe f.guard ⟨r3 f.d, f.a, f.b, Comb.ofBits (f.md.setWidth 2), f.md[2]⟩⟩
  | 0x05#6 => some ⟨{ d := .cDst, a := .x, b := .x, md := .comb }, .cmpGt f.guard ⟨r3 f.d, f.a, f.b, Comb.ofBits (f.md.setWidth 2), f.md[2]⟩⟩
  | 0x06#6 => some ⟨{ d := .cDst, a := .x, b := .x, md := .comb }, .cmpLtn f.guard ⟨r3 f.d, f.a, f.b, Comb.ofBits (f.md.setWidth 2), f.md[2]⟩⟩
  | 0x07#6 => some ⟨{ d := .cDst, a := .x, b := .x, md := .comb }, .cmpGen f.guard ⟨r3 f.d, f.a, f.b, Comb.ofBits (f.md.setWidth 2), f.md[2]⟩⟩
  | 0x08#6 => some ⟨{ d := .cDst, a := .x, b := .x, md := .comb }, .cmpLen f.guard ⟨r3 f.d, f.a, f.b, Comb.ofBits (f.md.setWidth 2), f.md[2]⟩⟩
  | 0x09#6 => some ⟨{ d := .cDst, a := .x, b := .x, md := .comb }, .cmpGtn f.guard ⟨r3 f.d, f.a, f.b, Comb.ofBits (f.md.setWidth 2), f.md[2]⟩⟩
  | 0x0A#6 => some ⟨{ d := .cDst, a := .x, b := .x, md := .comb }, .cmpTst f.guard ⟨r3 f.d, f.a, f.b, Comb.ofBits (f.md.setWidth 2), f.md[2]⟩⟩
  | 0x0B#6 => some ⟨{ d := .cDst, a := .x, b := .x, md := .comb }, .cmpNtst f.guard ⟨r3 f.d, f.a, f.b, Comb.ofBits (f.md.setWidth 2), f.md[2]⟩⟩
  | _ => none

/-- The functions of major 0x0B (CMPI, R126 to R128). -/
noncomputable def rowCmpi (f : Fields) : Option Row :=
  match f.fn with
  | 0x00#6 => some ⟨{ d := .cDst, a := .x, c := .raw, md := .comb, immZero := 0 }, .cmpiEq f.guard ⟨r3 f.d, f.a, f.c ++ f.imm, Comb.ofBits (f.md.setWidth 2), f.md[2]⟩⟩
  | 0x01#6 => some ⟨{ d := .cDst, a := .x, c := .raw, md := .comb, immZero := 0 }, .cmpiNe f.guard ⟨r3 f.d, f.a, f.c ++ f.imm, Comb.ofBits (f.md.setWidth 2), f.md[2]⟩⟩
  | 0x02#6 => some ⟨{ d := .cDst, a := .x, c := .raw, md := .comb, immZero := 0 }, .cmpiLt f.guard ⟨r3 f.d, f.a, f.c ++ f.imm, Comb.ofBits (f.md.setWidth 2), f.md[2]⟩⟩
  | 0x03#6 => some ⟨{ d := .cDst, a := .x, c := .raw, md := .comb, immZero := 0 }, .cmpiGe f.guard ⟨r3 f.d, f.a, f.c ++ f.imm, Comb.ofBits (f.md.setWidth 2), f.md[2]⟩⟩
  | 0x04#6 => some ⟨{ d := .cDst, a := .x, c := .raw, md := .comb, immZero := 0 }, .cmpiLe f.guard ⟨r3 f.d, f.a, f.c ++ f.imm, Comb.ofBits (f.md.setWidth 2), f.md[2]⟩⟩
  | 0x05#6 => some ⟨{ d := .cDst, a := .x, c := .raw, md := .comb, immZero := 0 }, .cmpiGt f.guard ⟨r3 f.d, f.a, f.c ++ f.imm, Comb.ofBits (f.md.setWidth 2), f.md[2]⟩⟩
  | 0x06#6 => some ⟨{ d := .cDst, a := .x, c := .raw, md := .comb, immZero := 0 }, .cmpiLtn f.guard ⟨r3 f.d, f.a, f.c ++ f.imm, Comb.ofBits (f.md.setWidth 2), f.md[2]⟩⟩
  | 0x07#6 => some ⟨{ d := .cDst, a := .x, c := .raw, md := .comb, immZero := 0 }, .cmpiGen f.guard ⟨r3 f.d, f.a, f.c ++ f.imm, Comb.ofBits (f.md.setWidth 2), f.md[2]⟩⟩
  | 0x08#6 => some ⟨{ d := .cDst, a := .x, c := .raw, md := .comb, immZero := 0 }, .cmpiLen f.guard ⟨r3 f.d, f.a, f.c ++ f.imm, Comb.ofBits (f.md.setWidth 2), f.md[2]⟩⟩
  | 0x09#6 => some ⟨{ d := .cDst, a := .x, c := .raw, md := .comb, immZero := 0 }, .cmpiGtn f.guard ⟨r3 f.d, f.a, f.c ++ f.imm, Comb.ofBits (f.md.setWidth 2), f.md[2]⟩⟩
  | 0x0A#6 => some ⟨{ d := .cDst, a := .x, c := .raw, md := .comb, immZero := 0 }, .cmpiTst f.guard ⟨r3 f.d, f.a, f.c ++ f.imm, Comb.ofBits (f.md.setWidth 2), f.md[2]⟩⟩
  | 0x0B#6 => some ⟨{ d := .cDst, a := .x, c := .raw, md := .comb, immZero := 0 }, .cmpiNtst f.guard ⟨r3 f.d, f.a, f.c ++ f.imm, Comb.ofBits (f.md.setWidth 2), f.md[2]⟩⟩
  | _ => none

/-- The functions of major 0x0C (CONST, R126 to R128). -/
noncomputable def rowConst (f : Fields) : Option Row :=
  match f.fn with
  | 0x00#6 | 0x01#6 | 0x02#6 | 0x03#6 => some ⟨{ d := .x, immZero := 0 }, .movw f.guard ⟨f.d, f.fn.setWidth 2, f.imm⟩⟩
  | 0x04#6 | 0x05#6 | 0x06#6 | 0x07#6 => some ⟨{ d := .x, immZero := 0 }, .movk f.guard ⟨f.d, f.fn.setWidth 2, f.imm⟩⟩
  | 0x08#6 => some ⟨{ d := .x, a := .x, b := .x, md := .lea, immZero := 0 }, .lea f.guard ⟨f.d, f.a, f.b, f.md.setWidth 2, f.imm⟩⟩
  | _ => none

/-- The functions of major 0x0D (PLOG, R126 to R128). -/
noncomputable def rowPlog (f : Fields) : Option Row :=
  match f.fn with
  | 0x00#6 => some ⟨{ d := .cDst, a := .cSrc, b := .cSrc }, .pand f.guard ⟨r3 f.d, r3 f.a, r3 f.b⟩⟩
  | 0x01#6 => some ⟨{ d := .cDst, a := .cSrc, b := .cSrc }, .por f.guard ⟨r3 f.d, r3 f.a, r3 f.b⟩⟩
  | 0x02#6 => some ⟨{ d := .cDst, a := .cSrc, b := .cSrc }, .pxor f.guard ⟨r3 f.d, r3 f.a, r3 f.b⟩⟩
  | 0x03#6 => some ⟨{ d := .cDst, a := .cSrc, b := .cSrc }, .pandn f.guard ⟨r3 f.d, r3 f.a, r3 f.b⟩⟩
  | 0x04#6 => some ⟨{ d := .cDst, a := .cSrc }, .pnot f.guard ⟨r3 f.d, r3 f.a⟩⟩
  | 0x05#6 => some ⟨{ a := .x }, .psetx f.guard ⟨f.a⟩⟩
  | 0x06#6 => some ⟨{ d := .x }, .xgetp f.guard ⟨f.d⟩⟩
  | _ => none

/-- The functions of major 0x0E (FOP, R126 to R128). -/
noncomputable def rowFop (f : Fields) : Option Row :=
  match f.fn with
  | 0x00#6 => some ⟨{ d := .x, a := .x, b := .x, md := .fop true, immZero := 0x7FFF#16 }, .fadd f.guard ⟨f.d, f.a, f.b, FWidth.ofBit f.md[0], rndOf f.imm[15] (f.md.extractLsb' 1 3)⟩⟩
  | 0x01#6 => some ⟨{ d := .x, a := .x, b := .x, md := .fop true, immZero := 0x7FFF#16 }, .fsub f.guard ⟨f.d, f.a, f.b, FWidth.ofBit f.md[0], rndOf f.imm[15] (f.md.extractLsb' 1 3)⟩⟩
  | 0x02#6 => some ⟨{ d := .x, a := .x, b := .x, md := .fop true, immZero := 0x7FFF#16 }, .fmul f.guard ⟨f.d, f.a, f.b, FWidth.ofBit f.md[0], rndOf f.imm[15] (f.md.extractLsb' 1 3)⟩⟩
  | 0x03#6 => some ⟨{ d := .x, a := .x, b := .x, c := .x, md := .fop true, immZero := 0x7FFF#16 }, .ffma f.guard ⟨f.d, f.a, f.b, f.c, FWidth.ofBit f.md[0], rndOf f.imm[15] (f.md.extractLsb' 1 3)⟩⟩
  | 0x04#6 => some ⟨{ d := .x, a := .x, b := .x, md := .fop true, immZero := 0x7FFF#16 }, .fdiv f.guard ⟨f.d, f.a, f.b, FWidth.ofBit f.md[0], rndOf f.imm[15] (f.md.extractLsb' 1 3)⟩⟩
  | 0x05#6 => some ⟨{ d := .x, a := .x, md := .fop true, immZero := 0x7FFF#16 }, .fsqrt f.guard ⟨f.d, f.a, FWidth.ofBit f.md[0], rndOf f.imm[15] (f.md.extractLsb' 1 3)⟩⟩
  | 0x06#6 => some ⟨{ d := .x, a := .x, b := .x, md := .fop false, immZero := 0x7FFF#16 }, .fmin f.guard ⟨f.d, f.a, f.b, FWidth.ofBit f.md[0]⟩⟩
  | 0x07#6 => some ⟨{ d := .x, a := .x, b := .x, md := .fop false, immZero := 0x7FFF#16 }, .fmax f.guard ⟨f.d, f.a, f.b, FWidth.ofBit f.md[0]⟩⟩
  | 0x08#6 => some ⟨{ d := .x, a := .x, md := .fop false, immZero := 0x7FFF#16 }, .fabs f.guard ⟨f.d, f.a, FWidth.ofBit f.md[0]⟩⟩
  | 0x09#6 => some ⟨{ d := .x, a := .x, md := .fop false, immZero := 0x7FFF#16 }, .fneg f.guard ⟨f.d, f.a, FWidth.ofBit f.md[0]⟩⟩
  | 0x0A#6 => some ⟨{ d := .x, a := .x, md := .fop true, immZero := 0x7FFC#16 }, .fcvti f.guard ⟨f.d, f.a, FWidth.ofBit f.md[0], rndOf f.imm[15] (f.md.extractLsb' 1 3), IntWidth.ofBits (f.imm.setWidth 2)⟩⟩
  | 0x0B#6 => some ⟨{ d := .x, a := .x, md := .fop true, immZero := 0x7FFC#16 }, .fcvtf f.guard ⟨f.d, f.a, FWidth.ofBit f.md[0], rndOf f.imm[15] (f.md.extractLsb' 1 3), IntWidth.ofBits (f.imm.setWidth 2)⟩⟩
  | 0x0C#6 => some ⟨{ d := .x, a := .x, md := .fop (!f.md[0]), immZero := 0x7FFF#16 }, .fcvtw f.guard ⟨f.d, f.a, FWidth.ofBit f.md[0], rndOf f.imm[15] (f.md.extractLsb' 1 3)⟩⟩
  | 0x0D#6 => some ⟨{ d := .x, a := .x, md := .fop false, immZero := 0x7FFF#16 }, .fclass f.guard ⟨f.d, f.a, FWidth.ofBit f.md[0]⟩⟩
  | _ => none

/-- The functions of major 0x0F (FCMP, R126 to R128). -/
noncomputable def rowFcmp (f : Fields) : Option Row :=
  match f.fn with
  | 0x00#6 => some ⟨{ d := .cDst, a := .x, b := .x, md := .comb }, .feq f.guard ⟨r3 f.d, f.a, f.b, FWidth.ofBit f.md[2], Comb.ofBits (f.md.setWidth 2)⟩⟩
  | 0x01#6 => some ⟨{ d := .cDst, a := .x, b := .x, md := .comb }, .flt f.guard ⟨r3 f.d, f.a, f.b, FWidth.ofBit f.md[2], Comb.ofBits (f.md.setWidth 2)⟩⟩
  | 0x02#6 => some ⟨{ d := .cDst, a := .x, b := .x, md := .comb }, .fle f.guard ⟨r3 f.d, f.a, f.b, FWidth.ofBit f.md[2], Comb.ofBits (f.md.setWidth 2)⟩⟩
  | 0x03#6 => some ⟨{ d := .cDst, a := .x, b := .x, md := .comb }, .fun_ f.guard ⟨r3 f.d, f.a, f.b, FWidth.ofBit f.md[2], Comb.ofBits (f.md.setWidth 2)⟩⟩
  | _ => none

/-- The functions of major 0x10 (LD, R126 to R128). -/
noncomputable def rowLd (f : Fields) : Option Row :=
  if ldFnOk f.fn then some ⟨{ d := .x, a := .x, b := .x, md := .item true false, immZero := 0 }, .ld f.guard ⟨f.d, f.a, f.b, f.imm, Size.ofBits (f.fn.setWidth 2), f.fn[2], LdMode.ofBits f.fn[3] f.fn[4], mdOf f.md⟩⟩ else none

/-- The functions of major 0x11 (ST, R126 to R128). -/
noncomputable def rowSt (f : Fields) : Option Row :=
  match f.fn with
  | 0x00#6 | 0x01#6 | 0x02#6 | 0x03#6 => some ⟨{ d := .x, a := .x, b := .x, md := .item false true, immZero := 0 }, .st f.guard ⟨f.d, f.a, f.b, f.imm, Size.ofBits (f.fn.setWidth 2), mdOf f.md⟩⟩
  | _ => none

/-- The functions of major 0x12 (ATOM, R126 to R128). -/
noncomputable def rowAtom (f : Fields) : Option Row :=
  match f.fn with
  | 0x00#6 | 0x20#6 => some ⟨{ d := .x, a := .x, b := .x, md := .item true true, immZero := 0 }, .atomXchg f.guard ⟨f.d, f.a, f.b, f.imm, f.fn[5], mdOf f.md⟩⟩
  | 0x01#6 | 0x21#6 => some ⟨{ d := .x, a := .x, b := .x, c := .x, md := .item true true, immZero := 0 }, .atomCas f.guard ⟨f.d, f.a, f.b, f.imm, f.c, f.fn[5], mdOf f.md⟩⟩
  | 0x02#6 | 0x22#6 => some ⟨{ d := .x, a := .x, b := .x, md := .item true true, immZero := 0 }, .atomAdd f.guard ⟨f.d, f.a, f.b, f.imm, f.fn[5], mdOf f.md⟩⟩
  | 0x03#6 | 0x23#6 => some ⟨{ d := .x, a := .x, b := .x, md := .item true true, immZero := 0 }, .atomAnd f.guard ⟨f.d, f.a, f.b, f.imm, f.fn[5], mdOf f.md⟩⟩
  | 0x04#6 | 0x24#6 => some ⟨{ d := .x, a := .x, b := .x, md := .item true true, immZero := 0 }, .atomOr f.guard ⟨f.d, f.a, f.b, f.imm, f.fn[5], mdOf f.md⟩⟩
  | 0x05#6 | 0x25#6 => some ⟨{ d := .x, a := .x, b := .x, md := .item true true, immZero := 0 }, .atomXor f.guard ⟨f.d, f.a, f.b, f.imm, f.fn[5], mdOf f.md⟩⟩
  | 0x06#6 | 0x26#6 => some ⟨{ d := .x, a := .x, b := .x, md := .item true true, immZero := 0 }, .atomMin f.guard ⟨f.d, f.a, f.b, f.imm, f.fn[5], mdOf f.md⟩⟩
  | 0x07#6 | 0x27#6 => some ⟨{ d := .x, a := .x, b := .x, md := .item true true, immZero := 0 }, .atomMax f.guard ⟨f.d, f.a, f.b, f.imm, f.fn[5], mdOf f.md⟩⟩
  | 0x08#6 | 0x28#6 => some ⟨{ d := .x, a := .x, b := .x, md := .item true true, immZero := 0 }, .atomMinn f.guard ⟨f.d, f.a, f.b, f.imm, f.fn[5], mdOf f.md⟩⟩
  | 0x09#6 | 0x29#6 => some ⟨{ d := .x, a := .x, b := .x, md := .item true true, immZero := 0 }, .atomMaxn f.guard ⟨f.d, f.a, f.b, f.imm, f.fn[5], mdOf f.md⟩⟩
  | 0x0A#6 => some ⟨{ d := .x, a := .x, b := .x, md := .item true true, immZero := 0 }, .atomFadd f.guard ⟨f.d, f.a, f.b, f.imm, mdOf f.md⟩⟩
  | 0x0B#6 => some ⟨{ d := .x, a := .x, b := .x, md := .item true true, immZero := 0 }, .atomFmin f.guard ⟨f.d, f.a, f.b, f.imm, mdOf f.md⟩⟩
  | 0x0C#6 => some ⟨{ d := .x, a := .x, b := .x, md := .item true true, immZero := 0 }, .atomFmax f.guard ⟨f.d, f.a, f.b, f.imm, mdOf f.md⟩⟩
  | 0x0D#6 | 0x2D#6 => some ⟨{ d := .x, a := .x, b := .x, md := .item true true, immZero := 0 }, .atomIncw f.guard ⟨f.d, f.a, f.b, f.imm, f.fn[5], mdOf f.md⟩⟩
  | 0x0E#6 | 0x2E#6 => some ⟨{ d := .x, a := .x, b := .x, md := .item true true, immZero := 0 }, .atomDecw f.guard ⟨f.d, f.a, f.b, f.imm, f.fn[5], mdOf f.md⟩⟩
  | _ => none

/-- The functions of major 0x13 (VLD, R126 to R128). -/
noncomputable def rowVld (f : Fields) : Option Row :=
  match f.fn with
  | 0x00#6 => some ⟨{ d := .v, a := .x, b := .x, c := .kSrc, md := .item true false, immZero := 0 }, .vld f.guard ⟨r5 f.d, f.a, f.b, f.imm, r3 f.c, mdOf f.md⟩⟩
  | 0x01#6 => some ⟨{ d := .v, a := .x, b := .x, c := .kSrc, md := .item true false, immZero := 0 }, .vlds f.guard ⟨r5 f.d, f.a, f.b, f.imm, r3 f.c, mdOf f.md⟩⟩
  | 0x02#6 => some ⟨{ d := .v, a := .x, b := .x, c := .kSrc, md := .item true false, immZero := 0 }, .vldb f.guard ⟨r5 f.d, f.a, f.b, f.imm, r3 f.c, mdOf f.md⟩⟩
  | _ => none

/-- The functions of major 0x14 (VST, R126 to R128). -/
noncomputable def rowVst (f : Fields) : Option Row :=
  match f.fn with
  | 0x00#6 => some ⟨{ d := .v, a := .x, b := .x, c := .kSrc, md := .item false true, immZero := 0 }, .vst f.guard ⟨r5 f.d, f.a, f.b, f.imm, r3 f.c, mdOf f.md⟩⟩
  | 0x01#6 => some ⟨{ d := .v, a := .x, b := .x, c := .kSrc, md := .item false true, immZero := 0 }, .vsts f.guard ⟨r5 f.d, f.a, f.b, f.imm, r3 f.c, mdOf f.md⟩⟩
  | _ => none

/-- The functions of major 0x15 (VGS, R126 to R128). -/
noncomputable def rowVgs (f : Fields) : Option Row :=
  match f.fn with
  | 0x00#6 => some ⟨{ d := .v, a := .x, b := .v, c := .kSrc, md := .item true false, immZero := 0 }, .vgather f.guard ⟨r5 f.d, f.a, r5 f.b, f.imm, r3 f.c, mdOf f.md⟩⟩
  | 0x01#6 => some ⟨{ d := .v, a := .x, b := .v, c := .kSrc, md := .item false true, immZero := 0 }, .vscatter f.guard ⟨r5 f.d, f.a, r5 f.b, f.imm, r3 f.c, mdOf f.md⟩⟩
  | 0x02#6 => some ⟨{ d := .v, a := .x, b := .v, c := .kSrc, md := .item true true, immZero := 0 }, .vscadd f.guard ⟨r5 f.d, f.a, r5 f.b, f.imm, r3 f.c, mdOf f.md⟩⟩
  | _ => none

/-- The functions of major 0x16 (PREFETCH, R126 to R128). -/
noncomputable def rowPrefetch (f : Fields) : Option Row :=
  match f.fn with
  | 0x00#6 => some ⟨{ a := .x, b := .x, md := .item false false, immZero := 0 }, .prefetchDc f.guard ⟨f.a, f.b, f.imm, scopeOf f.md, f.md.setWidth 3⟩⟩
  | 0x01#6 => some ⟨{ a := .x, b := .x, md := .item false false, immZero := 0 }, .prefetchCs f.guard ⟨f.a, f.b, f.imm, scopeOf f.md, f.md.setWidth 3⟩⟩
  | _ => none

/-- The functions of major 0x18 (TLD, R126 to R128). -/
noncomputable def rowTld (f : Fields) : Option Row :=
  match f.fn with
  | 0x00#6 | 0x01#6 | 0x02#6 | 0x03#6 | 0x04#6 | 0x05#6 | 0x06#6 => some ⟨{ d := .x, a := .x, b := .x, md := .item true false, immZero := 0 }, .tld f.guard ⟨f.d, f.a, f.b, f.imm, Size.ofBits (f.fn.setWidth 2), f.fn[2], mdOf f.md⟩⟩
  | 0x08#6 => some ⟨{ d := .v, a := .x, b := .x, c := .kSrc, md := .item true false, immZero := 0 }, .tldv f.guard ⟨r5 f.d, f.a, f.b, f.imm, r3 f.c, mdOf f.md⟩⟩
  | 0x09#6 => some ⟨{ d := .v, a := .x, b := .x, c := .kSrc, md := .item true false, immZero := 0 }, .tldvs f.guard ⟨r5 f.d, f.a, f.b, f.imm, r3 f.c, mdOf f.md⟩⟩
  | _ => none

/-- The functions of major 0x19 (TST, R126 to R128). -/
noncomputable def rowTst (f : Fields) : Option Row :=
  match f.fn with
  | 0x00#6 | 0x01#6 | 0x02#6 | 0x03#6 => some ⟨{ d := .x, a := .x, b := .x, md := .item false true, immZero := 0 }, .tst f.guard ⟨f.d, f.a, f.b, f.imm, Size.ofBits (f.fn.setWidth 2), mdOf f.md⟩⟩
  | 0x08#6 => some ⟨{ d := .v, a := .x, b := .x, c := .kSrc, md := .item false true, immZero := 0 }, .tstv f.guard ⟨r5 f.d, f.a, f.b, f.imm, r3 f.c, mdOf f.md⟩⟩
  | 0x09#6 => some ⟨{ d := .v, a := .x, b := .x, c := .kSrc, md := .item false true, immZero := 0 }, .tstvs f.guard ⟨r5 f.d, f.a, f.b, f.imm, r3 f.c, mdOf f.md⟩⟩
  | _ => none

/-- The functions of major 0x1A (TTAG, R126 to R128). -/
noncomputable def rowTtag (f : Fields) : Option Row :=
  match f.fn with
  | 0x00#6 => some ⟨{ b := .x, c := refC f, md := .zero5, immZero := refZero f 0x4000#16, extra := f.imm.extractLsb' 8 6 != 0#6 }, .tarm f.guard ⟨tileRefOf f, f.imm.extractLsb' 8 6, f.b⟩⟩
  | 0x01#6 => some ⟨{ d := .cDst, c := refC f, md := .scope5, immZero := refZero f 0x7F00#16 }, .twait f.guard ⟨r3 f.d, tileRefOf f, scopeOf f.md⟩⟩
  | 0x02#6 => some ⟨{ c := refC f, md := .item false false, immZero := refZero f 0x7F00#16 }, .ttake f.guard ⟨tileRefOf f, scopeOf f.md, f.md.setWidth 3⟩⟩
  | 0x03#6 => some ⟨{ d := .x, c := refC f, md := .zero5, immZero := refZero f 0x1F00#16 }, .tstat f.guard ⟨f.d, tileRefOf f, f.imm[14], f.imm[13]⟩⟩
  | 0x04#6 => some ⟨{ c := refC f, md := .item false false, immZero := refZero f 0x7F00#16 }, .tmark f.guard ⟨tileRefOf f, scopeOf f.md, f.md.setWidth 3⟩⟩
  | 0x05#6 => some ⟨{ c := refC f, md := .item false false, immZero := refZero f 0x7F00#16 }, .tpois f.guard ⟨tileRefOf f, scopeOf f.md, f.md.setWidth 3⟩⟩
  | 0x06#6 => some ⟨{ a := .x, c := refC f, md := .item false false, immZero := refZero f 0x7F00#16 }, .tscls f.guard ⟨tileRefOf f, f.a, scopeOf f.md, f.md.setWidth 3⟩⟩
  | 0x07#6 => some ⟨{ d := .x, c := refC f, md := .zero5, immZero := refZero f 0x7F00#16 }, .tsclg f.guard ⟨f.d, tileRefOf f⟩⟩
  | 0x08#6 => some ⟨{ c := refC f, md := .item false false, immZero := refZero f 0x7F00#16 }, .tzero f.guard ⟨tileRefOf f, scopeOf f.md, f.md.setWidth 3⟩⟩
  | _ => none

/-- The functions of major 0x1B (TSEND, R126 to R128). -/
noncomputable def rowTsend (f : Fields) : Option Row :=
  match f.fn with
  | 0x00#6 => some ⟨{ a := .x, b := .x, md := .item false true, immZero := 0xE000#16, extra := sendLenOk (f.imm.setWidth 13) }, .tsend f.guard ⟨f.a, f.b, f.imm.setWidth 13, mdOf f.md⟩⟩
  | 0x01#6 => some ⟨{ d := .v, b := .x, md := .item false true }, .tsendv f.guard ⟨r5 f.d, f.b, mdOf f.md⟩⟩
  | 0x02#6 => some ⟨{ a := .x, b := .x, c := .x, md := .item false true }, .tsendx f.guard ⟨f.a, f.b, f.c, mdOf f.md⟩⟩
  | 0x03#6 => some ⟨{ b := .x, md := .item false true }, .tnote f.guard ⟨f.b, mdOf f.md⟩⟩
  | _ => none

/-- The functions of major 0x1C (HOP, R126 to R128). -/
noncomputable def rowHop (f : Fields) : Option Row :=
  match f.fn with
  | 0x00#6 => some ⟨{ d := .h, a := .h, md := .scope5 }, .hfork f.guard ⟨r3 f.d, r3 f.a, scopeOf f.md⟩⟩
  | 0x01#6 => some ⟨{ d := .h, a := .h, md := .scope5 }, .hjoin f.guard ⟨r3 f.d, r3 f.a, scopeOf f.md⟩⟩
  | 0x02#6 => some ⟨{ md := .scope5 }, .hjoina f.guard ⟨scopeOf f.md⟩⟩
  | 0x03#6 => some ⟨{ a := .h, md := .scope5 }, .hwait f.guard ⟨r3 f.a, scopeOf f.md⟩⟩
  | 0x04#6 => some ⟨{ a := .h, b := .x, md := .scope5 }, .hpass f.guard ⟨r3 f.a, f.b, scopeOf f.md⟩⟩
  | 0x05#6 => some ⟨{ d := .h, a := .x, md := .scope5 }, .hrecv f.guard ⟨r3 f.d, f.a, scopeOf f.md⟩⟩
  | 0x06#6 => some ⟨{ d := .x, a := .h, md := .zero5 }, .hcnt f.guard ⟨f.d, r3 f.a⟩⟩
  | _ => none

/-- The functions of major 0x1D (BAR, R126 to R128). -/
noncomputable def rowBar (f : Fields) : Option Row :=
  match f.fn with
  | 0x00#6 => some ⟨{ a := .x, c := refC f, md := .zero5, immZero := refZero f 0x7F00#16 }, .barinit f.guard ⟨tileRefOf f, f.a⟩⟩
  | 0x01#6 => some ⟨{ d := .x, c := refC f, md := .item false false, immZero := refZero f 0x7F00#16 }, .bararr f.guard ⟨f.d, tileRefOf f, scopeOf f.md, f.md.setWidth 3⟩⟩
  | 0x02#6 => some ⟨{ d := .x, a := .x, c := refC f, md := .item false false, immZero := refZero f 0x7F00#16 }, .bararx f.guard ⟨f.d, tileRefOf f, f.a, scopeOf f.md, f.md.setWidth 3⟩⟩
  | 0x03#6 => some ⟨{ a := .x, c := refC f, md := .item false false, immZero := refZero f 0x7F00#16 }, .barexp f.guard ⟨tileRefOf f, f.a, scopeOf f.md, f.md.setWidth 3⟩⟩
  | 0x04#6 => some ⟨{ a := .x, c := refC f, md := .scope5, immZero := refZero f 0x7F00#16 }, .barwait f.guard ⟨tileRefOf f, f.a, scopeOf f.md⟩⟩
  | 0x05#6 => some ⟨{ d := .cDst, a := .x, c := refC f, md := .scope5, immZero := refZero f 0x7F00#16 }, .bartry f.guard ⟨r3 f.d, tileRefOf f, f.a, scopeOf f.md⟩⟩
  | 0x06#6 => some ⟨{ c := refC f, md := .zero5, immZero := refZero f 0x7F00#16 }, .barinv f.guard ⟨tileRefOf f⟩⟩
  | _ => none

/-- The functions of major 0x1E (TASK, R126 to R128). -/
noncomputable def rowTask (f : Fields) : Option Row :=
  match f.fn with
  | 0x00#6 => some ⟨{ d := .cDst, a := .x, md := .item false false }, .spawn f.guard ⟨r3 f.d, f.a, scopeOf f.md, f.md.setWidth 3⟩⟩
  | 0x01#6 => some ⟨{ md := .zero5 }, .exit f.guard⟩
  | 0x02#6 => some ⟨{ md := .zero5 }, .yield f.guard⟩
  | 0x03#6 => some ⟨{ a := .x, md := .zero5 }, .park f.guard ⟨f.a⟩⟩
  | _ => none

/-- The functions of major 0x20 (CPY, R126 to R128). -/
noncomputable def rowCpy (f : Fields) : Option Row :=
  match f.fn with
  | 0x00#6 => some ⟨{ d := .x, a := .x, md := .item false true }, .cpygo f.guard ⟨f.d, f.a, mdOf f.md⟩⟩
  | 0x01#6 => some ⟨{ d := .x, a := .x, md := .zero5 }, .cpystat f.guard ⟨f.d, f.a⟩⟩
  | 0x02#6 => some ⟨{ a := .x, md := .zero5 }, .cpyabort f.guard ⟨f.a⟩⟩
  | 0x03#6 => some ⟨{ a := .x, c := refC f, md := .zero5, immZero := refZero f 0x7FC0#16 }, .layset f.guard ⟨entryRefOf f, f.a⟩⟩
  | 0x04#6 => some ⟨{ a := .x, c := refC f, md := .zero5, immZero := refZero f 0x7FC0#16 }, .layget f.guard ⟨entryRefOf f, f.a⟩⟩
  | _ => none

/-- The functions of major 0x21 (RING, R126 to R128). -/
noncomputable def rowRing (f : Fields) : Option Row :=
  match f.fn with
  | 0x00#6 => some ⟨{ a := .x, b := .x, c := .x, md := .item false true }, .rgput f.guard ⟨f.a, f.b, f.c, mdOf f.md⟩⟩
  | 0x01#6 => some ⟨{ d := .x, a := .x, b := .x, c := .x, md := .scope5, immZero := 0xE000#16, extra := f.imm.setWidth 13 != 0#13 }, .rgread f.guard ⟨f.d, f.b, f.a, f.c, f.imm.setWidth 13, scopeOf f.md⟩⟩
  | 0x02#6 => some ⟨{ d := .x, b := .x, md := .scope5 }, .rgpos f.guard ⟨f.d, f.b, scopeOf f.md⟩⟩
  | 0x03#6 => some ⟨{ d := .pairDst, b := .x, md := .scope5 }, .trgnext f.guard ⟨f.d, f.b, scopeOf f.md⟩⟩
  | 0x04#6 => some ⟨{ d := .x, a := .pair, b := .x, md := .item false true }, .trgfwd f.guard ⟨f.d, f.a, f.b, mdOf f.md⟩⟩
  | 0x05#6 => some ⟨{ d := .x, a := .pair, b := .x, md := .item false true }, .trgacc f.guard ⟨f.d, f.a, f.b, mdOf f.md⟩⟩
  | 0x06#6 => some ⟨{ a := .pair, b := .x, md := .item false true }, .trgrej f.guard ⟨f.a, f.b, mdOf f.md⟩⟩
  | 0x07#6 => some ⟨{ b := .x, md := .item false true }, .trgmark f.guard ⟨f.b, mdOf f.md⟩⟩
  | _ => none

/-- The functions of major 0x28 (VIOP, R126 to R128). -/
noncomputable def rowViop (f : Fields) : Option Row :=
  match f.fn with
  | 0x00#6 => some ⟨{ d := .v, a := .v, b := .v, c := .kSrc, md := .vec 0x3F#16 false false false, immZero := 0x7FFF#16 }, .vadd f.guard ⟨r5 f.d, r5 f.a, r5 f.b, r3 f.c, IntElem.ofBits (f.md.setWidth 4)⟩⟩
  | 0x01#6 => some ⟨{ d := .v, a := .v, b := .v, c := .kSrc, md := .vec 0x3F#16 false false false, immZero := 0x7FFF#16 }, .vsub f.guard ⟨r5 f.d, r5 f.a, r5 f.b, r3 f.c, IntElem.ofBits (f.md.setWidth 4)⟩⟩
  | 0x02#6 => some ⟨{ d := .v, a := .v, b := .v, c := .kSrc, md := .vec 0x3F#16 false false false, immZero := 0x7FFF#16 }, .vmul f.guard ⟨r5 f.d, r5 f.a, r5 f.b, r3 f.c, IntElem.ofBits (f.md.setWidth 4)⟩⟩
  | 0x03#6 => some ⟨{ d := .v, a := .v, b := .v, c := .kSrc, md := .vec 0x3F#16 false false false, immZero := 0x7FFF#16 }, .vmulh f.guard ⟨r5 f.d, r5 f.a, r5 f.b, r3 f.c, IntElem.ofBits (f.md.setWidth 4)⟩⟩
  | 0x04#6 => some ⟨{ d := .v, a := .v, b := .v, c := .kSrc, md := .vec 0x3F#16 false false false, immZero := 0x7FFF#16 }, .vmadd f.guard ⟨r5 f.d, r5 f.a, r5 f.b, r3 f.c, IntElem.ofBits (f.md.setWidth 4)⟩⟩
  | 0x05#6 => some ⟨{ d := .v, a := .v, b := .v, c := .kSrc, md := .vec 0x3F#16 false false false, immZero := 0x7FFF#16 }, .vand f.guard ⟨r5 f.d, r5 f.a, r5 f.b, r3 f.c, IntElem.ofBits (f.md.setWidth 4)⟩⟩
  | 0x06#6 => some ⟨{ d := .v, a := .v, b := .v, c := .kSrc, md := .vec 0x3F#16 false false false, immZero := 0x7FFF#16 }, .vor f.guard ⟨r5 f.d, r5 f.a, r5 f.b, r3 f.c, IntElem.ofBits (f.md.setWidth 4)⟩⟩
  | 0x07#6 => some ⟨{ d := .v, a := .v, b := .v, c := .kSrc, md := .vec 0x3F#16 false false false, immZero := 0x7FFF#16 }, .vxor f.guard ⟨r5 f.d, r5 f.a, r5 f.b, r3 f.c, IntElem.ofBits (f.md.setWidth 4)⟩⟩
  | 0x08#6 => some ⟨{ d := .v, a := .v, b := .v, c := .kSrc, md := .vec 0x3F#16 false false false, immZero := 0x7FFF#16 }, .vshl f.guard ⟨r5 f.d, r5 f.a, r5 f.b, r3 f.c, IntElem.ofBits (f.md.setWidth 4)⟩⟩
  | 0x09#6 => some ⟨{ d := .v, a := .v, b := .v, c := .kSrc, md := .vec 0x3F#16 false false false, immZero := 0x7FFF#16 }, .vshr f.guard ⟨r5 f.d, r5 f.a, r5 f.b, r3 f.c, IntElem.ofBits (f.md.setWidth 4)⟩⟩
  | 0x0A#6 => some ⟨{ d := .v, a := .v, b := .v, c := .kSrc, md := .vec 0x3F#16 false false false, immZero := 0x7FFF#16 }, .vsar f.guard ⟨r5 f.d, r5 f.a, r5 f.b, r3 f.c, IntElem.ofBits (f.md.setWidth 4)⟩⟩
  | 0x0B#6 => some ⟨{ d := .v, a := .v, b := .v, c := .kSrc, md := .vec 0x3F#16 false false false, immZero := 0x7FFF#16 }, .vmin f.guard ⟨r5 f.d, r5 f.a, r5 f.b, r3 f.c, IntElem.ofBits (f.md.setWidth 4)⟩⟩
  | 0x0C#6 => some ⟨{ d := .v, a := .v, b := .v, c := .kSrc, md := .vec 0x3F#16 false false false, immZero := 0x7FFF#16 }, .vmax f.guard ⟨r5 f.d, r5 f.a, r5 f.b, r3 f.c, IntElem.ofBits (f.md.setWidth 4)⟩⟩
  | 0x0D#6 => some ⟨{ d := .v, a := .v, c := .kSrc, md := .vec 0x15#16 false false false, immZero := 0x7FFF#16 }, .vabs f.guard ⟨r5 f.d, r5 f.a, r3 f.c, IntElem.ofBits (f.md.setWidth 4)⟩⟩
  | 0x0E#6 => some ⟨{ d := .v, a := .v, c := .kSrc, md := .vec 0x15#16 false false false, immZero := 0x7FFF#16 }, .vneg f.guard ⟨r5 f.d, r5 f.a, r3 f.c, IntElem.ofBits (f.md.setWidth 4)⟩⟩
  | 0x0F#6 => some ⟨{ d := .v, a := .v, b := .v, c := .kSrc, md := .vec 0x3F#16 false false false, immZero := 0x7FFF#16 }, .vadds f.guard ⟨r5 f.d, r5 f.a, r5 f.b, r3 f.c, IntElem.ofBits (f.md.setWidth 4)⟩⟩
  | 0x10#6 => some ⟨{ d := .v, a := .v, b := .v, c := .kSrc, md := .vec 0x3F#16 false false false, immZero := 0x7FFF#16 }, .vsubs f.guard ⟨r5 f.d, r5 f.a, r5 f.b, r3 f.c, IntElem.ofBits (f.md.setWidth 4)⟩⟩
  | 0x11#6 => some ⟨{ d := .v, a := .v, c := .kSrc, md := .vec 0x3F#16 false false false, immZero := 0x7FFF#16 }, .vpop f.guard ⟨r5 f.d, r5 f.a, r3 f.c, IntElem.ofBits (f.md.setWidth 4)⟩⟩
  | 0x12#6 => some ⟨{ d := .v, a := .v, c := .kSrc, md := .vec 0x3F#16 false false false, immZero := 0x7FFF#16 }, .vclz f.guard ⟨r5 f.d, r5 f.a, r3 f.c, IntElem.ofBits (f.md.setWidth 4)⟩⟩
  | 0x13#6 => some ⟨{ d := .v, a := .v, b := .v, c := .kSrc, md := .vec 0x3#16 false false false, immZero := 0x7FFF#16 }, .vdot4 f.guard ⟨r5 f.d, r5 f.a, r5 f.b, r3 f.c, IntElem.ofBits (f.md.setWidth 4)⟩⟩
  | 0x14#6 => some ⟨{ d := .v, a := .v, b := .v, c := .kSrc, md := .vec 0x3F#16 false false false, immZero := 0x7FFF#16 }, .vsel f.guard ⟨r5 f.d, r5 f.a, r5 f.b, r3 f.c, IntElem.ofBits (f.md.setWidth 4)⟩⟩
  | _ => none

/-- The functions of major 0x29 (VFOP, R126 to R128). -/
noncomputable def rowVfop (f : Fields) : Option Row :=
  match f.fn with
  | 0x00#6 => some ⟨{ d := .v, a := .v, b := .v, c := .kSrc, md := .vec 0x1C0#16 true false false, immZero := 0x7FFF#16 }, .vfadd f.guard ⟨r5 f.d, r5 f.a, r5 f.b, r3 f.c, FloatElem.ofBits (f.md.setWidth 4), rndOf f.imm[15] (f.md.extractLsb' 4 3)⟩⟩
  | 0x01#6 => some ⟨{ d := .v, a := .v, b := .v, c := .kSrc, md := .vec 0x1C0#16 true false false, immZero := 0x7FFF#16 }, .vfsub f.guard ⟨r5 f.d, r5 f.a, r5 f.b, r3 f.c, FloatElem.ofBits (f.md.setWidth 4), rndOf f.imm[15] (f.md.extractLsb' 4 3)⟩⟩
  | 0x02#6 => some ⟨{ d := .v, a := .v, b := .v, c := .kSrc, md := .vec 0x1C0#16 true false false, immZero := 0x7FFF#16 }, .vfmul f.guard ⟨r5 f.d, r5 f.a, r5 f.b, r3 f.c, FloatElem.ofBits (f.md.setWidth 4), rndOf f.imm[15] (f.md.extractLsb' 4 3)⟩⟩
  | 0x03#6 => some ⟨{ d := .v, a := .v, b := .v, c := .kSrc, md := .vec 0x1C0#16 true false false, immZero := 0x7FFF#16 }, .vffma f.guard ⟨r5 f.d, r5 f.a, r5 f.b, r3 f.c, FloatElem.ofBits (f.md.setWidth 4), rndOf f.imm[15] (f.md.extractLsb' 4 3)⟩⟩
  | 0x04#6 => some ⟨{ d := .v, a := .v, b := .v, c := .kSrc, md := .vec 0x1C0#16 true false false, immZero := 0x7FFF#16 }, .vffms f.guard ⟨r5 f.d, r5 f.a, r5 f.b, r3 f.c, FloatElem.ofBits (f.md.setWidth 4), rndOf f.imm[15] (f.md.extractLsb' 4 3)⟩⟩
  | 0x05#6 => some ⟨{ d := .v, a := .v, b := .v, c := .kSrc, md := .vec 0x1C0#16 false false false, immZero := 0x7FFF#16 }, .vfmin f.guard ⟨r5 f.d, r5 f.a, r5 f.b, r3 f.c, FloatElem.ofBits (f.md.setWidth 4)⟩⟩
  | 0x06#6 => some ⟨{ d := .v, a := .v, b := .v, c := .kSrc, md := .vec 0x1C0#16 false false false, immZero := 0x7FFF#16 }, .vfmax f.guard ⟨r5 f.d, r5 f.a, r5 f.b, r3 f.c, FloatElem.ofBits (f.md.setWidth 4)⟩⟩
  | 0x07#6 => some ⟨{ d := .v, a := .v, c := .kSrc, md := .vec 0x1C0#16 false false false, immZero := 0x7FFF#16 }, .vfabs f.guard ⟨r5 f.d, r5 f.a, r3 f.c, FloatElem.ofBits (f.md.setWidth 4)⟩⟩
  | 0x08#6 => some ⟨{ d := .v, a := .v, c := .kSrc, md := .vec 0x1C0#16 false false false, immZero := 0x7FFF#16 }, .vfneg f.guard ⟨r5 f.d, r5 f.a, r3 f.c, FloatElem.ofBits (f.md.setWidth 4)⟩⟩
  | 0x09#6 => some ⟨{ d := .v, a := .v, b := .v, c := .kSrc, md := .vec 0x1C0#16 true false false, immZero := 0x7FFF#16 }, .vfdiv f.guard ⟨r5 f.d, r5 f.a, r5 f.b, r3 f.c, FloatElem.ofBits (f.md.setWidth 4), rndOf f.imm[15] (f.md.extractLsb' 4 3)⟩⟩
  | 0x0A#6 => some ⟨{ d := .v, a := .v, c := .kSrc, md := .vec 0x1C0#16 true false false, immZero := 0x7FFF#16 }, .vfsqrt f.guard ⟨r5 f.d, r5 f.a, r3 f.c, FloatElem.ofBits (f.md.setWidth 4), rndOf f.imm[15] (f.md.extractLsb' 4 3)⟩⟩
  | 0x0B#6 => some ⟨{ d := .v, a := .v, c := .kSrc, md := .vec 0x1C0#16 true false false, immZero := 0x7FFF#16 }, .vfrcp f.guard ⟨r5 f.d, r5 f.a, r3 f.c, FloatElem.ofBits (f.md.setWidth 4), rndOf f.imm[15] (f.md.extractLsb' 4 3)⟩⟩
  | 0x0C#6 => some ⟨{ d := .v, a := .v, c := .kSrc, md := .vec 0x1C0#16 true false false, immZero := 0x7FFF#16 }, .vfrsq f.guard ⟨r5 f.d, r5 f.a, r3 f.c, FloatElem.ofBits (f.md.setWidth 4), rndOf f.imm[15] (f.md.extractLsb' 4 3)⟩⟩
  | 0x0D#6 => some ⟨{ d := .v, a := .v, c := .kSrc, md := .vec 0x1C0#16 true false false, immZero := 0x7FFF#16 }, .vfexp2 f.guard ⟨r5 f.d, r5 f.a, r3 f.c, FloatElem.ofBits (f.md.setWidth 4), rndOf f.imm[15] (f.md.extractLsb' 4 3)⟩⟩
  | 0x0E#6 => some ⟨{ d := .v, a := .v, c := .kSrc, md := .vec 0x1C0#16 true false false, immZero := 0x7FFF#16 }, .vflog2 f.guard ⟨r5 f.d, r5 f.a, r3 f.c, FloatElem.ofBits (f.md.setWidth 4), rndOf f.imm[15] (f.md.extractLsb' 4 3)⟩⟩
  | 0x0F#6 => some ⟨{ d := .v, a := .v, b := .v, c := .kSrc, md := .vec 0x1C0#16 true false false, immZero := 0x7FFF#16 }, .vfscl f.guard ⟨r5 f.d, r5 f.a, r5 f.b, r3 f.c, FloatElem.ofBits (f.md.setWidth 4), rndOf f.imm[15] (f.md.extractLsb' 4 3)⟩⟩
  | _ => none

/-- The functions of major 0x2A (VCVT, R126 to R128). -/
noncomputable def rowVcvt (f : Fields) : Option Row :=
  match f.fn with
  | 0x00#6 => some ⟨{ d := .v, a := .v, c := .kSrc, md := .vec 0x7FFF#16 true true (satDest (f.md.setWidth 4)), immZero := cvtZero f, extra := cvtOk f }, .vcvt f.guard ⟨r5 f.d, r5 f.a, r3 f.c, ElemType.ofBits (f.md.setWidth 4), ElemType.ofBits (f.imm.setWidth 4), cvtRndOf f, f.md[7], f.imm.extractLsb' 4 3, f.imm.extractLsb' 7 3⟩⟩
  | 0x01#6 => some ⟨{ d := .v, a := .v, b := .x, c := .kSrc, md := .vec 0x7FFF#16 true true (satDest (f.md.setWidth 4)), immZero := cvtZero f, extra := cvtOk f }, .vcvtsc f.guard ⟨r5 f.d, r5 f.a, f.b, r3 f.c, ElemType.ofBits (f.md.setWidth 4), ElemType.ofBits (f.imm.setWidth 4), cvtRndOf f, f.md[7], f.imm.extractLsb' 4 3, f.imm.extractLsb' 7 3⟩⟩
  | _ => none

/-- The functions of major 0x2B (VPRM, R126 to R128). -/
noncomputable def rowVprm (f : Fields) : Option Row :=
  match f.fn with
  | 0x00#6 => some ⟨{ d := .v, a := .v, b := .v, c := .kSrc, md := .vec 0x1#16 false false false }, .vperm f.guard ⟨r5 f.d, r5 f.a, r5 f.b, r3 f.c⟩⟩
  | 0x01#6 => some ⟨{ d := .v, a := .x, c := .kSrc, md := .vec 0x1#16 false false false }, .vbcast f.guard ⟨r5 f.d, f.a, r3 f.c⟩⟩
  | 0x02#6 => some ⟨{ d := .v, a := .x, b := .x, md := .vec 0x1#16 false false false }, .vins f.guard ⟨r5 f.d, f.a, f.b⟩⟩
  | 0x03#6 => some ⟨{ d := .x, a := .v, b := .x, md := .vec 0x1#16 false false false }, .vext f.guard ⟨f.d, r5 f.a, f.b⟩⟩
  | 0x04#6 => some ⟨{ d := .x, a := .v, c := .kSrc, md := .vec 0x130#16 (redRounds f) false false, immZero := 0x7FFC#16, extra := f.imm.setWidth 2 != 3#2 }, .vred f.guard ⟨f.d, r5 f.a, r3 f.c, RedOp.ofBits (f.imm.setWidth 2), RedElem.ofBits (f.md.setWidth 4), rndOf f.imm[15] (f.md.extractLsb' 4 3)⟩⟩
  | 0x05#6 => some ⟨{ d := .v, a := .v, c := .kSrc, md := .vec 0x130#16 (redRounds f) false false, immZero := 0x7FFC#16, extra := f.imm.setWidth 2 != 3#2 }, .vscan f.guard ⟨r5 f.d, r5 f.a, r3 f.c, RedOp.ofBits (f.imm.setWidth 2), RedElem.ofBits (f.md.setWidth 4), rndOf f.imm[15] (f.md.extractLsb' 4 3)⟩⟩
  | 0x06#6 => some ⟨{ d := .v, a := .v, c := .kSrc, md := .vec 0x1#16 false false false }, .vcomp f.guard ⟨r5 f.d, r5 f.a, r3 f.c⟩⟩
  | 0x07#6 => some ⟨{ d := .v, a := .v, c := .kSrc, md := .vec 0x1#16 false false false }, .vexpd f.guard ⟨r5 f.d, r5 f.a, r3 f.c⟩⟩
  | 0x08#6 => some ⟨{ d := .v, a := .v, b := .x, c := .kSrc, md := .vec 0x1#16 false false false }, .vslide f.guard ⟨r5 f.d, r5 f.a, f.b, r3 f.c⟩⟩
  | _ => none

/-- The functions of major 0x2C (VCMP, R126 to R128). -/
noncomputable def rowVcmp (f : Fields) : Option Row :=
  match f.fn with
  | 0x00#6 => some ⟨{ d := .kDst, a := .v, b := .v, c := .kSrc, md := .vec 0x10#16 false false false, immZero := 0x7FFF#16 }, .vcmpEq f.guard ⟨r3 f.d, r5 f.a, r5 f.b, r3 f.c⟩⟩
  | 0x01#6 => some ⟨{ d := .kDst, a := .v, b := .v, c := .kSrc, md := .vec 0x10#16 false false false, immZero := 0x7FFF#16 }, .vcmpNe f.guard ⟨r3 f.d, r5 f.a, r5 f.b, r3 f.c⟩⟩
  | 0x02#6 => some ⟨{ d := .kDst, a := .v, b := .v, c := .kSrc, md := .vec 0x10#16 false false false, immZero := 0x7FFF#16 }, .vcmpLt f.guard ⟨r3 f.d, r5 f.a, r5 f.b, r3 f.c⟩⟩
  | 0x03#6 => some ⟨{ d := .kDst, a := .v, b := .v, c := .kSrc, md := .vec 0x10#16 false false false, immZero := 0x7FFF#16 }, .vcmpGe f.guard ⟨r3 f.d, r5 f.a, r5 f.b, r3 f.c⟩⟩
  | 0x04#6 => some ⟨{ d := .kDst, a := .v, b := .v, c := .kSrc, md := .vec 0x10#16 false false false, immZero := 0x7FFF#16 }, .vcmpLe f.guard ⟨r3 f.d, r5 f.a, r5 f.b, r3 f.c⟩⟩
  | 0x05#6 => some ⟨{ d := .kDst, a := .v, b := .v, c := .kSrc, md := .vec 0x10#16 false false false, immZero := 0x7FFF#16 }, .vcmpGt f.guard ⟨r3 f.d, r5 f.a, r5 f.b, r3 f.c⟩⟩
  | 0x06#6 => some ⟨{ d := .kDst, a := .v, b := .v, c := .kSrc, md := .vec 0x10#16 false false false, immZero := 0x7FFF#16 }, .vcmpLtn f.guard ⟨r3 f.d, r5 f.a, r5 f.b, r3 f.c⟩⟩
  | 0x07#6 => some ⟨{ d := .kDst, a := .v, b := .v, c := .kSrc, md := .vec 0x10#16 false false false, immZero := 0x7FFF#16 }, .vcmpGen f.guard ⟨r3 f.d, r5 f.a, r5 f.b, r3 f.c⟩⟩
  | 0x08#6 => some ⟨{ d := .kDst, a := .v, b := .v, c := .kSrc, md := .vec 0x10#16 false false false, immZero := 0x7FFF#16 }, .vcmpLen f.guard ⟨r3 f.d, r5 f.a, r5 f.b, r3 f.c⟩⟩
  | 0x09#6 => some ⟨{ d := .kDst, a := .v, b := .v, c := .kSrc, md := .vec 0x10#16 false false false, immZero := 0x7FFF#16 }, .vcmpGtn f.guard ⟨r3 f.d, r5 f.a, r5 f.b, r3 f.c⟩⟩
  | 0x0A#6 => some ⟨{ d := .kDst, a := .v, b := .v, c := .kSrc, md := .vec 0x10#16 false false false, immZero := 0x7FFF#16 }, .vcmpTst f.guard ⟨r3 f.d, r5 f.a, r5 f.b, r3 f.c⟩⟩
  | 0x0B#6 => some ⟨{ d := .kDst, a := .v, b := .v, c := .kSrc, md := .vec 0x10#16 false false false, immZero := 0x7FFF#16 }, .vcmpNtst f.guard ⟨r3 f.d, r5 f.a, r5 f.b, r3 f.c⟩⟩
  | 0x10#6 => some ⟨{ d := .kDst, a := .v, b := .v, c := .kSrc, md := .vec 0x100#16 false false false, immZero := 0x7FFF#16 }, .vcmpFeq f.guard ⟨r3 f.d, r5 f.a, r5 f.b, r3 f.c⟩⟩
  | 0x11#6 => some ⟨{ d := .kDst, a := .v, b := .v, c := .kSrc, md := .vec 0x100#16 false false false, immZero := 0x7FFF#16 }, .vcmpFlt f.guard ⟨r3 f.d, r5 f.a, r5 f.b, r3 f.c⟩⟩
  | 0x12#6 => some ⟨{ d := .kDst, a := .v, b := .v, c := .kSrc, md := .vec 0x100#16 false false false, immZero := 0x7FFF#16 }, .vcmpFle f.guard ⟨r3 f.d, r5 f.a, r5 f.b, r3 f.c⟩⟩
  | 0x13#6 => some ⟨{ d := .kDst, a := .v, b := .v, c := .kSrc, md := .vec 0x100#16 false false false, immZero := 0x7FFF#16 }, .vcmpFun f.guard ⟨r3 f.d, r5 f.a, r5 f.b, r3 f.c⟩⟩
  | _ => none

/-- The functions of major 0x2D (VMSC, R126 to R128). -/
noncomputable def rowVmsc (f : Fields) : Option Row :=
  match f.fn with
  | 0x00#6 => some ⟨{ d := .v, a := .x, b := .v, c := .kSrc, md := .vec 0x1#16 false false false }, .vrand f.guard ⟨r5 f.d, f.a, r5 f.b, r3 f.c⟩⟩
  | 0x01#6 => some ⟨{ d := .v, a := .v, c := .kSrc, md := .vec 0x1#16 false false false }, .vmov f.guard ⟨r5 f.d, r5 f.a, r3 f.c⟩⟩
  | 0x02#6 => some ⟨{ d := .v, a := .raw, c := .kSrc, md := .vec 0x130#16 false false false, immZero := 0 }, .vmovi f.guard ⟨r5 f.d, f.a ++ f.imm.setWidth 15, RedElem.ofBits (f.md.setWidth 4), r3 f.c⟩⟩
  | 0x03#6 => some ⟨{ d := .v, a := .x, c := .kSrc, md := .vec 0x1#16 false false false }, .viota f.guard ⟨r5 f.d, f.a, r3 f.c⟩⟩
  | 0x04#6 => some ⟨{ d := .kDst, a := .kSrc, b := .kSrc, md := .vec 0x1#16 false false false }, .kand f.guard ⟨r3 f.d, r3 f.a, r3 f.b⟩⟩
  | 0x05#6 => some ⟨{ d := .kDst, a := .kSrc, b := .kSrc, md := .vec 0x1#16 false false false }, .kor f.guard ⟨r3 f.d, r3 f.a, r3 f.b⟩⟩
  | 0x06#6 => some ⟨{ d := .kDst, a := .kSrc, b := .kSrc, md := .vec 0x1#16 false false false }, .kxor f.guard ⟨r3 f.d, r3 f.a, r3 f.b⟩⟩
  | 0x07#6 => some ⟨{ d := .kDst, a := .kSrc, md := .vec 0x1#16 false false false }, .knot f.guard ⟨r3 f.d, r3 f.a⟩⟩
  | 0x08#6 => some ⟨{ d := .kDst, a := .x, md := .vec 0x1#16 false false false }, .ksetx f.guard ⟨r3 f.d, f.a⟩⟩
  | 0x09#6 => some ⟨{ d := .x, a := .kSrc, md := .vec 0x1#16 false false false }, .kgetx f.guard ⟨f.d, r3 f.a⟩⟩
  | 0x0A#6 => some ⟨{ d := .x, a := .kSrc, md := .vec 0x1#16 false false false }, .kpop f.guard ⟨f.d, r3 f.a⟩⟩
  | _ => none

/-- The functions of major 0x2E (VDOT, R126 to R128). -/
noncomputable def rowVdot (f : Fields) : Option Row :=
  match f.fn with
  | 0x00#6 => some ⟨{ d := .v, a := .v, b := .v, c := .v, md := .vec 0x2600#16 false false false, immZero := 0xFFF8#16 }, .vbdot f.guard ⟨r5 f.d, r5 f.a, r5 f.b, r5 f.c, ScaleType.ofBits (f.md.setWidth 4), f.imm.setWidth 3⟩⟩
  | 0x01#6 => some ⟨{ d := .x, a := .v, b := .v, c := .v, md := .vec 0x2600#16 false false false, immZero := 0xFFF8#16 }, .vbdots f.guard ⟨f.d, r5 f.a, r5 f.b, r5 f.c, ScaleType.ofBits (f.md.setWidth 4), f.imm.setWidth 3⟩⟩
  | _ => none

/-- The functions of major 0x30 (MMA, R126 to R128). -/
noncomputable def rowMma (f : Fields) : Option Row :=
  if matFnOk f.fn then (if f.md[7] then some ⟨{ d := .z, md := .mma, immZero := 0 }, .mma f.guard ⟨r3 f.d, MatType.ofBits (f.fn.setWidth 3), MatType.ofBits (f.fn.extractLsb' 3 3), f.imm.setWidth 8, f.imm.extractLsb' 8 8⟩⟩
    else some ⟨{ d := .z, a := .x, b := .x, md := .mma }, .mmaReg f.guard ⟨r3 f.d, MatType.ofBits (f.fn.setWidth 3), MatType.ofBits (f.fn.extractLsb' 3 3), f.a, f.b⟩⟩) else none

/-- The functions of major 0x31 (MMAS, R126 to R128). -/
noncomputable def rowMmas (f : Fields) : Option Row :=
  if scaledFnOk f.fn then (if f.md[7] then some ⟨{ d := .z, c := .x, md := .mmas, immZero := 0 }, .mmas f.guard ⟨r3 f.d, MatType.ofBits (f.fn.setWidth 3), MatType.ofBits (f.fn.extractLsb' 3 3), ScaleType.ofBits (f.md.setWidth 4), f.imm.setWidth 8, f.imm.extractLsb' 8 8, f.c⟩⟩
    else some ⟨{ d := .z, a := .x, b := .x, c := .x, md := .mmas }, .mmasReg f.guard ⟨r3 f.d, MatType.ofBits (f.fn.setWidth 3), MatType.ofBits (f.fn.extractLsb' 3 3), ScaleType.ofBits (f.md.setWidth 4), f.a, f.b, f.c⟩⟩) else none

/-- The functions of major 0x32 (ZOP, R126 to R128). -/
noncomputable def rowZop (f : Fields) : Option Row :=
  match f.fn with
  | 0x00#6 => some ⟨{ d := .z, md := .zero5 }, .zzero f.guard ⟨r3 f.d⟩⟩
  | 0x01#6 => some ⟨{ d := .z, a := .x, md := .zero5 }, .zld f.guard ⟨r3 f.d, f.a⟩⟩
  | 0x02#6 => some ⟨{ a := .x, c := .z, md := .vec (zstDests (f.imm.setWidth 4)) true false (zstSat (f.imm.setWidth 4) (f.md.setWidth 4)), immZero := 0x7F80#16, extra := colOk (f.md.setWidth 4) (f.imm.extractLsb' 4 3) }, .zst f.guard ⟨r3 f.c, f.a, ElemType.ofBits (f.md.setWidth 4), ElemType.ofBits (f.imm.setWidth 4), rndOf f.imm[15] (f.md.extractLsb' 4 3), f.md[7], f.imm.extractLsb' 4 3⟩⟩
  | 0x03#6 => some ⟨{ d := .x, a := .x, b := .x, c := .z, md := .vec zstsDests true false (zstSat 0x8#4 (f.md.setWidth 4)), immZero := 0x7F80#16, extra := f.imm.setWidth 4 == 0x8#4 && colOk (f.md.setWidth 4) (f.imm.extractLsb' 4 3) }, .zsts f.guard ⟨f.d, r3 f.c, f.a, f.b, ElemType.ofBits (f.md.setWidth 4), rndOf f.imm[15] (f.md.extractLsb' 4 3), f.md[7], f.imm.extractLsb' 4 3⟩⟩
  | 0x04#6 => some ⟨{ d := .z, b := .v, md := .vec 0x110#16 (f.md.setWidth 4 == 0x8#4) false false, immZero := 0x7FFF#16 }, .zbias f.guard ⟨r3 f.d, r5 f.b, RedElem.ofBits (f.md.setWidth 4), rndOf f.imm[15] (f.md.extractLsb' 4 3)⟩⟩
  | _ => none

/-- The row a word names: its major (check 1 of R131) and its function within it (check 2). -/
noncomputable def rowOf (f : Fields) (lit : Word) : Except DecodeError Row :=
  let fnRow (r : Option Row) : Except DecodeError Row :=
    match r with
    | some r => .ok r
    | none => .error .function
  match f.maj with
  | 0x01#6 => fnRow (rowSys f)
  | 0x02#6 => fnRow (rowJmp f)
  | 0x03#6 => fnRow (rowCall f)
  | 0x04#6 => fnRow (rowJreg f)
  | 0x06#6 => fnRow (rowMovl f lit)
  | 0x08#6 => fnRow (rowIop f)
  | 0x09#6 => fnRow (rowIopi f)
  | 0x0A#6 => fnRow (rowCmp f)
  | 0x0B#6 => fnRow (rowCmpi f)
  | 0x0C#6 => fnRow (rowConst f)
  | 0x0D#6 => fnRow (rowPlog f)
  | 0x0E#6 => fnRow (rowFop f)
  | 0x0F#6 => fnRow (rowFcmp f)
  | 0x10#6 => fnRow (rowLd f)
  | 0x11#6 => fnRow (rowSt f)
  | 0x12#6 => fnRow (rowAtom f)
  | 0x13#6 => fnRow (rowVld f)
  | 0x14#6 => fnRow (rowVst f)
  | 0x15#6 => fnRow (rowVgs f)
  | 0x16#6 => fnRow (rowPrefetch f)
  | 0x18#6 => fnRow (rowTld f)
  | 0x19#6 => fnRow (rowTst f)
  | 0x1A#6 => fnRow (rowTtag f)
  | 0x1B#6 => fnRow (rowTsend f)
  | 0x1C#6 => fnRow (rowHop f)
  | 0x1D#6 => fnRow (rowBar f)
  | 0x1E#6 => fnRow (rowTask f)
  | 0x20#6 => fnRow (rowCpy f)
  | 0x21#6 => fnRow (rowRing f)
  | 0x28#6 => fnRow (rowViop f)
  | 0x29#6 => fnRow (rowVfop f)
  | 0x2A#6 => fnRow (rowVcvt f)
  | 0x2B#6 => fnRow (rowVprm f)
  | 0x2C#6 => fnRow (rowVcmp f)
  | 0x2D#6 => fnRow (rowVmsc f)
  | 0x2E#6 => fnRow (rowVdot f)
  | 0x30#6 => fnRow (rowMma f)
  | 0x31#6 => fnRow (rowMmas f)
  | 0x32#6 => fnRow (rowZop f)
  | _ => .error .major

/-! ### The checks of R131 -/

/-- Must-be-zero bits of a register field (check 3). -/
def FieldKind.zeroOk (k : FieldKind) (r : BitVec 6) : Bool :=
  match k with
  | .zero => r == 0#6
  | _ => true

/-- Range of a register field (check 4; R108, R130, R237). -/
def FieldKind.rangeOk (k : FieldKind) (r : BitVec 6) : Bool :=
  match k with
  | .zero | .x | .raw => true
  | .v => decide (r < 32#6)
  | .cDst | .kDst => r != 0#6 && decide (r < 8#6)
  | .cSrc | .kSrc | .h | .z => decide (r < 8#6)
  | .pair => !r[0]
  | .pairDst => !r[0] && r != 0#6

/-- Must-be-zero bits of MD (check 3; R129). -/
def MdKind.zeroOk (k : MdKind) (m : BitVec 8) : Bool :=
  match k with
  | .zero3 => m == 0#8
  | .scope3 => m &&& 0xC7#8 == 0#8
  | .w _ => m &&& 0xFE#8 == 0#8
  | .comb => m &&& 0xF8#8 == 0#8
  | .lea => m &&& 0xFC#8 == 0#8
  | .fop _ => m &&& 0xF0#8 == 0#8
  | .mma => m &&& 0x7F#8 == 0#8
  | .mmas => m &&& 0x70#8 == 0#8
  | .zero5 | .scope5 | .item _ _ | .vec _ _ _ _ | .raw => true

/-- A rounding field with DYN (R111): a mode is named, or DYN is set with the field 0. -/
def rndOk (rounds rs dyn : Bool) (r : BitVec 3) : Bool :=
  if !rounds then !dyn && r == 0#3
  else if dyn then r == 0#3
  else decide (r < 4#3) || (rs && r == 4#3)

/-- Reserved values of MD (check 5; R111, R129). -/
def MdKind.valueOk (k : MdKind) (m : BitVec 8) (dyn : Bool) : Bool :=
  match k with
  | .zero5 => m == 0#8
  | .scope3 => m.extractLsb' 3 3 != 7#3
  | .scope5 => m &&& 0xC7#8 == 0#8 && m.extractLsb' 3 3 != 7#3
  | .item acq rel =>
    m.extractLsb' 3 3 != 7#3 && (!m[6] || acq) && (!m[7] || rel)
  | .w ok => !m[0] || ok
  | .comb => m.setWidth 2 != 3#2
  | .fop rounds => rndOk rounds false dyn (m.extractLsb' 1 3)
  | .vec types rounds rs sat =>
    types.getLsbD (m.setWidth 4).toNat && rndOk rounds rs dyn (m.extractLsb' 4 3) && (!m[7] || sat)
  | .mmas => m.setWidth 4 == 0x9#4 || m.setWidth 4 == 0xA#4 || m.setWidth 4 == 0xD#4
  | .zero3 | .lea | .raw | .mma => true

/-- Check 3 of R131, must-be-zero. -/
def Format.zeroOk (t : Format) (f : Fields) : Bool :=
  t.d.zeroOk f.d && t.a.zeroOk f.a && t.b.zeroOk f.b && t.c.zeroOk f.c && t.md.zeroOk f.md &&
    f.imm &&& t.immZero == 0#16

/-- Check 4 of R131, register out of range. -/
def Format.rangeOk (t : Format) (f : Fields) : Bool :=
  t.d.rangeOk f.d && t.a.rangeOk f.a && t.b.rangeOk f.b && t.c.rangeOk f.c

/-- Check 5 of R131, reserved modifier value. -/
def Format.valueOk (t : Format) (f : Fields) : Bool :=
  t.md.valueOk f.md f.imm[15] && t.extra

/-- Check 6 of R131: a guard that never executes (R106). -/
def Guard.ok (g : Guard) : Bool := !(g.neg && g.c == 0#3)

/-- The instruction of a word, with the literal that follows it (read by MOVL alone), or the first check of
R131 that the word fails. -/
noncomputable def decodeWord (w lit : Word) : Except DecodeError Instr :=
  let f := Fields.ofWord w
  match rowOf f lit with
  | .error e => .error e
  | .ok r =>
    if !r.format.zeroOk f then .error .mustBeZero
    else if !r.format.rangeOk f then .error .register
    else if !r.format.valueOk f then .error .modifier
    else if !f.guard.ok then .error .guard
    else .ok r.instr

/-- Whether the word is MOVL, the one instruction of two words (R104, R105). -/
def isLong (w : Word) : Bool := w.extractLsb' 0 6 == 0x06#6

/-- Eight bytes, lowest address first, as a word (R4, R104). -/
def wordOfBytes : List Byte → Word
  | [] => 0
  | b :: bs => (wordOfBytes bs <<< 8) ||| b.setWidth 64

/-- The bytes of a word, lowest address first (R104). -/
def bytesOfWord (w : Word) : List Byte :=
  (List.range 8).map fun i => w.extractLsb' (8 * i) 8

/-- Decoding of bytes: the instruction at their front and the bytes after it. -/
noncomputable def decode (bs : List Byte) : Except DecodeError (Instr × List Byte) :=
  if bs.length < 8 then .error .truncated
  else
    let w := wordOfBytes (bs.take 8)
    let rest := bs.drop 8
    if isLong w && rest.length < 8 then .error .truncated
    else
      match decodeWord w (wordOfBytes (rest.take 8)) with
      | .error e => .error e
      | .ok i => .ok (i, if isLong w then rest.drop 8 else rest)

/-! ### The encoder -/

/-- A word with its guard, major and function, every other field zero. -/
def base (g : Guard) (maj fn : BitVec 6) : Fields where
  imm := 0
  md := 0
  fn := fn
  qn := BitVec.ofBool g.neg
  q := g.c
  c := 0
  b := 0
  a := 0
  d := 0
  maj := maj

/-- The fields of an instruction's first word, from the tables of R126 to R130; the rows that are steps
of the machine have no word. -/
def encodeFields : Instr → Option Fields
  | .nop g => some (base g 0x01#6 (0x00#6))
  | .trap g o => some { base g 0x01#6 (0x01#6) with imm := o.code }
  | .brk g => some (base g 0x01#6 (0x02#6))
  | .eret g => some (base g 0x01#6 (0x03#6))
  | .srd g o => some { base g 0x01#6 (0x04#6) with d := o.d, imm := o.n }
  | .swr g o => some { base g 0x01#6 (0x05#6) with a := o.a, imm := o.n }
  | .fence g o => some { base g 0x01#6 (0x06#6) with md := scopeBits o.scope }
  | .fencer g o => some { base g 0x01#6 (0x07#6) with a := o.a, b := o.b, md := scopeBits o.scope }
  | .chk g o => some { base g 0x01#6 (0x08#6) with a := o.a }
  | .chkv g o => some { base g 0x01#6 (0x09#6) with a := up o.a, c := up o.m }
  | .roinv g => some (base g 0x01#6 (0x0A#6))
  | .tlbi g o => some { base g 0x01#6 (0x0B#6) with a := o.a, b := o.b, imm := o.kind.toBits.setWidth 16 }
  | .waiti g o => some { base g 0x01#6 (0x0C#6) with a := o.a }
  | .jmp g o => some { base g 0x02#6 (offFn o.off) with md := offMd o.off, imm := offImm o.off }
  | .call g o => some { base g 0x03#6 (offFn o.off) with d := o.d, md := offMd o.off, imm := offImm o.off }
  | .jr g o => some { base g 0x04#6 (0x00#6) with a := o.a }
  | .callr g o => some { base g 0x04#6 (0x01#6) with d := o.d, a := o.a }
  | .ret g o => some { base g 0x04#6 (0x02#6) with a := o.a }
  | .movl g o => some { base g 0x06#6 (0x00#6) with d := o.d }
  | .add g o => some { base g 0x08#6 (0x00#6) with d := o.d, a := o.a, b := o.b, md := bit8 o.w }
  | .sub g o => some { base g 0x08#6 (0x01#6) with d := o.d, a := o.a, b := o.b, md := bit8 o.w }
  | .and g o => some { base g 0x08#6 (0x02#6) with d := o.d, a := o.a, b := o.b }
  | .or g o => some { base g 0x08#6 (0x03#6) with d := o.d, a := o.a, b := o.b }
  | .xor g o => some { base g 0x08#6 (0x04#6) with d := o.d, a := o.a, b := o.b }
  | .andn g o => some { base g 0x08#6 (0x05#6) with d := o.d, a := o.a, b := o.b }
  | .orn g o => some { base g 0x08#6 (0x06#6) with d := o.d, a := o.a, b := o.b }
  | .shl g o => some { base g 0x08#6 (0x07#6) with d := o.d, a := o.a, b := o.b, md := bit8 o.w }
  | .shr g o => some { base g 0x08#6 (0x08#6) with d := o.d, a := o.a, b := o.b, md := bit8 o.w }
  | .sar g o => some { base g 0x08#6 (0x09#6) with d := o.d, a := o.a, b := o.b, md := bit8 o.w }
  | .rol g o => some { base g 0x08#6 (0x0A#6) with d := o.d, a := o.a, b := o.b, md := bit8 o.w }
  | .ror g o => some { base g 0x08#6 (0x0B#6) with d := o.d, a := o.a, b := o.b, md := bit8 o.w }
  | .mul g o => some { base g 0x08#6 (0x0C#6) with d := o.d, a := o.a, b := o.b, md := bit8 o.w }
  | .mulh g o => some { base g 0x08#6 (0x0D#6) with d := o.d, a := o.a, b := o.b, md := bit8 o.w }
  | .mulhn g o => some { base g 0x08#6 (0x0E#6) with d := o.d, a := o.a, b := o.b, md := bit8 o.w }
  | .madd g o => some { base g 0x08#6 (0x0F#6) with d := o.d, a := o.a, b := o.b, c := o.c, md := bit8 o.w }
  | .div g o => some { base g 0x08#6 (0x10#6) with d := o.d, a := o.a, b := o.b, md := bit8 o.w }
  | .divn g o => some { base g 0x08#6 (0x11#6) with d := o.d, a := o.a, b := o.b, md := bit8 o.w }
  | .rem g o => some { base g 0x08#6 (0x12#6) with d := o.d, a := o.a, b := o.b, md := bit8 o.w }
  | .remn g o => some { base g 0x08#6 (0x13#6) with d := o.d, a := o.a, b := o.b, md := bit8 o.w }
  | .min g o => some { base g 0x08#6 (0x14#6) with d := o.d, a := o.a, b := o.b, md := bit8 o.w }
  | .max g o => some { base g 0x08#6 (0x15#6) with d := o.d, a := o.a, b := o.b, md := bit8 o.w }
  | .minn g o => some { base g 0x08#6 (0x16#6) with d := o.d, a := o.a, b := o.b, md := bit8 o.w }
  | .maxn g o => some { base g 0x08#6 (0x17#6) with d := o.d, a := o.a, b := o.b, md := bit8 o.w }
  | .sel g o => some { base g 0x08#6 (0x18#6) with d := o.d, a := o.a, b := o.b, c := up o.k }
  | .clz g o => some { base g 0x08#6 (0x19#6) with d := o.d, a := o.a, md := bit8 o.w }
  | .ctz g o => some { base g 0x08#6 (0x1A#6) with d := o.d, a := o.a, md := bit8 o.w }
  | .pop g o => some { base g 0x08#6 (0x1B#6) with d := o.d, a := o.a, md := bit8 o.w }
  | .brev g o => some { base g 0x08#6 (0x1C#6) with d := o.d, a := o.a, md := bit8 o.w }
  | .bswap g o => some { base g 0x08#6 (0x1D#6) with d := o.d, a := o.a, md := bit8 o.w }
  | .sext g o => some { base g 0x08#6 (0x1E#6) with d := o.d, a := o.a, b := o.b }
  | .zext g o => some { base g 0x08#6 (0x1F#6) with d := o.d, a := o.a, b := o.b }
  | .bfx g o => some { base g 0x08#6 (0x20#6) with d := o.d, a := o.a, b := o.b, c := o.c }
  | .bfi g o => some { base g 0x08#6 (0x21#6) with d := o.d, a := o.a, b := o.b, c := o.c }
  | .iopiAdd g o => some { base g 0x09#6 (0x00#6) with d := o.d, a := o.a, md := bit8 o.w, c := o.imm.extractLsb' 16 6, imm := o.imm.setWidth 16 }
  | .iopiAnd g o => some { base g 0x09#6 (0x02#6) with d := o.d, a := o.a, c := o.imm.extractLsb' 16 6, imm := o.imm.setWidth 16 }
  | .iopiOr g o => some { base g 0x09#6 (0x03#6) with d := o.d, a := o.a, c := o.imm.extractLsb' 16 6, imm := o.imm.setWidth 16 }
  | .iopiXor g o => some { base g 0x09#6 (0x04#6) with d := o.d, a := o.a, c := o.imm.extractLsb' 16 6, imm := o.imm.setWidth 16 }
  | .iopiShl g o => some { base g 0x09#6 (0x07#6) with d := o.d, a := o.a, md := bit8 o.w, c := o.imm.extractLsb' 16 6, imm := o.imm.setWidth 16 }
  | .iopiShr g o => some { base g 0x09#6 (0x08#6) with d := o.d, a := o.a, md := bit8 o.w, c := o.imm.extractLsb' 16 6, imm := o.imm.setWidth 16 }
  | .iopiSar g o => some { base g 0x09#6 (0x09#6) with d := o.d, a := o.a, md := bit8 o.w, c := o.imm.extractLsb' 16 6, imm := o.imm.setWidth 16 }
  | .iopiRol g o => some { base g 0x09#6 (0x0A#6) with d := o.d, a := o.a, md := bit8 o.w, c := o.imm.extractLsb' 16 6, imm := o.imm.setWidth 16 }
  | .iopiRor g o => some { base g 0x09#6 (0x0B#6) with d := o.d, a := o.a, md := bit8 o.w, c := o.imm.extractLsb' 16 6, imm := o.imm.setWidth 16 }
  | .iopiMul g o => some { base g 0x09#6 (0x0C#6) with d := o.d, a := o.a, md := bit8 o.w, c := o.imm.extractLsb' 16 6, imm := o.imm.setWidth 16 }
  | .iopiMin g o => some { base g 0x09#6 (0x14#6) with d := o.d, a := o.a, md := bit8 o.w, c := o.imm.extractLsb' 16 6, imm := o.imm.setWidth 16 }
  | .iopiMax g o => some { base g 0x09#6 (0x15#6) with d := o.d, a := o.a, md := bit8 o.w, c := o.imm.extractLsb' 16 6, imm := o.imm.setWidth 16 }
  | .iopiMinn g o => some { base g 0x09#6 (0x16#6) with d := o.d, a := o.a, md := bit8 o.w, c := o.imm.extractLsb' 16 6, imm := o.imm.setWidth 16 }
  | .iopiMaxn g o => some { base g 0x09#6 (0x17#6) with d := o.d, a := o.a, md := bit8 o.w, c := o.imm.extractLsb' 16 6, imm := o.imm.setWidth 16 }
  | .iopiSext g o => some { base g 0x09#6 (0x1E#6) with d := o.d, a := o.a, imm := o.p.setWidth 16 }
  | .iopiZext g o => some { base g 0x09#6 (0x1F#6) with d := o.d, a := o.a, imm := o.p.setWidth 16 }
  | .iopiBfx g o => some { base g 0x09#6 (0x20#6) with d := o.d, a := o.a, imm := (o.n ++ o.p).setWidth 16 }
  | .iopiBfi g o => some { base g 0x09#6 (0x21#6) with d := o.d, a := o.a, imm := (o.n ++ o.p).setWidth 16 }
  | .cmpEq g o => some { base g 0x0A#6 (0x00#6) with d := up o.d, a := o.a, b := o.b, md := combBits o.comb o.w }
  | .cmpNe g o => some { base g 0x0A#6 (0x01#6) with d := up o.d, a := o.a, b := o.b, md := combBits o.comb o.w }
  | .cmpLt g o => some { base g 0x0A#6 (0x02#6) with d := up o.d, a := o.a, b := o.b, md := combBits o.comb o.w }
  | .cmpGe g o => some { base g 0x0A#6 (0x03#6) with d := up o.d, a := o.a, b := o.b, md := combBits o.comb o.w }
  | .cmpLe g o => some { base g 0x0A#6 (0x04#6) with d := up o.d, a := o.a, b := o.b, md := combBits o.comb o.w }
  | .cmpGt g o => some { base g 0x0A#6 (0x05#6) with d := up o.d, a := o.a, b := o.b, md := combBits o.comb o.w }
  | .cmpLtn g o => some { base g 0x0A#6 (0x06#6) with d := up o.d, a := o.a, b := o.b, md := combBits o.comb o.w }
  | .cmpGen g o => some { base g 0x0A#6 (0x07#6) with d := up o.d, a := o.a, b := o.b, md := combBits o.comb o.w }
  | .cmpLen g o => some { base g 0x0A#6 (0x08#6) with d := up o.d, a := o.a, b := o.b, md := combBits o.comb o.w }
  | .cmpGtn g o => some { base g 0x0A#6 (0x09#6) with d := up o.d, a := o.a, b := o.b, md := combBits o.comb o.w }
  | .cmpTst g o => some { base g 0x0A#6 (0x0A#6) with d := up o.d, a := o.a, b := o.b, md := combBits o.comb o.w }
  | .cmpNtst g o => some { base g 0x0A#6 (0x0B#6) with d := up o.d, a := o.a, b := o.b, md := combBits o.comb o.w }
  | .cmpiEq g o => some { base g 0x0B#6 (0x00#6) with d := up o.d, a := o.a, md := combBits o.comb o.w, c := o.imm.extractLsb' 16 6, imm := o.imm.setWidth 16 }
  | .cmpiNe g o => some { base g 0x0B#6 (0x01#6) with d := up o.d, a := o.a, md := combBits o.comb o.w, c := o.imm.extractLsb' 16 6, imm := o.imm.setWidth 16 }
  | .cmpiLt g o => some { base g 0x0B#6 (0x02#6) with d := up o.d, a := o.a, md := combBits o.comb o.w, c := o.imm.extractLsb' 16 6, imm := o.imm.setWidth 16 }
  | .cmpiGe g o => some { base g 0x0B#6 (0x03#6) with d := up o.d, a := o.a, md := combBits o.comb o.w, c := o.imm.extractLsb' 16 6, imm := o.imm.setWidth 16 }
  | .cmpiLe g o => some { base g 0x0B#6 (0x04#6) with d := up o.d, a := o.a, md := combBits o.comb o.w, c := o.imm.extractLsb' 16 6, imm := o.imm.setWidth 16 }
  | .cmpiGt g o => some { base g 0x0B#6 (0x05#6) with d := up o.d, a := o.a, md := combBits o.comb o.w, c := o.imm.extractLsb' 16 6, imm := o.imm.setWidth 16 }
  | .cmpiLtn g o => some { base g 0x0B#6 (0x06#6) with d := up o.d, a := o.a, md := combBits o.comb o.w, c := o.imm.extractLsb' 16 6, imm := o.imm.setWidth 16 }
  | .cmpiGen g o => some { base g 0x0B#6 (0x07#6) with d := up o.d, a := o.a, md := combBits o.comb o.w, c := o.imm.extractLsb' 16 6, imm := o.imm.setWidth 16 }
  | .cmpiLen g o => some { base g 0x0B#6 (0x08#6) with d := up o.d, a := o.a, md := combBits o.comb o.w, c := o.imm.extractLsb' 16 6, imm := o.imm.setWidth 16 }
  | .cmpiGtn g o => some { base g 0x0B#6 (0x09#6) with d := up o.d, a := o.a, md := combBits o.comb o.w, c := o.imm.extractLsb' 16 6, imm := o.imm.setWidth 16 }
  | .cmpiTst g o => some { base g 0x0B#6 (0x0A#6) with d := up o.d, a := o.a, md := combBits o.comb o.w, c := o.imm.extractLsb' 16 6, imm := o.imm.setWidth 16 }
  | .cmpiNtst g o => some { base g 0x0B#6 (0x0B#6) with d := up o.d, a := o.a, md := combBits o.comb o.w, c := o.imm.extractLsb' 16 6, imm := o.imm.setWidth 16 }
  | .movw g o => some { base g 0x0C#6 (0x00#6 ||| o.slice.setWidth 6) with d := o.d, imm := o.imm }
  | .movk g o => some { base g 0x0C#6 (0x04#6 ||| o.slice.setWidth 6) with d := o.d, imm := o.imm }
  | .lea g o => some { base g 0x0C#6 (0x08#6) with d := o.d, a := o.a, b := o.b, md := o.sh.setWidth 8, imm := o.disp }
  | .pand g o => some { base g 0x0D#6 (0x00#6) with d := up o.d, a := up o.a, b := up o.b }
  | .por g o => some { base g 0x0D#6 (0x01#6) with d := up o.d, a := up o.a, b := up o.b }
  | .pxor g o => some { base g 0x0D#6 (0x02#6) with d := up o.d, a := up o.a, b := up o.b }
  | .pandn g o => some { base g 0x0D#6 (0x03#6) with d := up o.d, a := up o.a, b := up o.b }
  | .pnot g o => some { base g 0x0D#6 (0x04#6) with d := up o.d, a := up o.a }
  | .psetx g o => some { base g 0x0D#6 (0x05#6) with a := o.a }
  | .xgetp g o => some { base g 0x0D#6 (0x06#6) with d := o.d }
  | .fadd g o => some { base g 0x0E#6 (0x00#6) with d := o.d, a := o.a, b := o.b, md := fopBits o.fw o.rnd, imm := dynBit o.rnd }
  | .fsub g o => some { base g 0x0E#6 (0x01#6) with d := o.d, a := o.a, b := o.b, md := fopBits o.fw o.rnd, imm := dynBit o.rnd }
  | .fmul g o => some { base g 0x0E#6 (0x02#6) with d := o.d, a := o.a, b := o.b, md := fopBits o.fw o.rnd, imm := dynBit o.rnd }
  | .ffma g o => some { base g 0x0E#6 (0x03#6) with d := o.d, a := o.a, b := o.b, c := o.c, md := fopBits o.fw o.rnd, imm := dynBit o.rnd }
  | .fdiv g o => some { base g 0x0E#6 (0x04#6) with d := o.d, a := o.a, b := o.b, md := fopBits o.fw o.rnd, imm := dynBit o.rnd }
  | .fsqrt g o => some { base g 0x0E#6 (0x05#6) with d := o.d, a := o.a, md := fopBits o.fw o.rnd, imm := dynBit o.rnd }
  | .fmin g o => some { base g 0x0E#6 (0x06#6) with d := o.d, a := o.a, b := o.b, md := fopBits o.fw .rne }
  | .fmax g o => some { base g 0x0E#6 (0x07#6) with d := o.d, a := o.a, b := o.b, md := fopBits o.fw .rne }
  | .fabs g o => some { base g 0x0E#6 (0x08#6) with d := o.d, a := o.a, md := fopBits o.fw .rne }
  | .fneg g o => some { base g 0x0E#6 (0x09#6) with d := o.d, a := o.a, md := fopBits o.fw .rne }
  | .fcvti g o => some { base g 0x0E#6 (0x0A#6) with d := o.d, a := o.a, md := fopBits o.fw o.rnd, imm := dynBit o.rnd ||| o.it.toBits.setWidth 16 }
  | .fcvtf g o => some { base g 0x0E#6 (0x0B#6) with d := o.d, a := o.a, md := fopBits o.fw o.rnd, imm := dynBit o.rnd ||| o.it.toBits.setWidth 16 }
  | .fcvtw g o => some { base g 0x0E#6 (0x0C#6) with d := o.d, a := o.a, md := fopBits o.fw o.rnd, imm := dynBit o.rnd }
  | .fclass g o => some { base g 0x0E#6 (0x0D#6) with d := o.d, a := o.a, md := fopBits o.fw .rne }
  | .feq g o => some { base g 0x0F#6 (0x00#6) with d := up o.d, a := o.a, b := o.b, md := combBits o.comb o.fw.toBit }
  | .flt g o => some { base g 0x0F#6 (0x01#6) with d := up o.d, a := o.a, b := o.b, md := combBits o.comb o.fw.toBit }
  | .fle g o => some { base g 0x0F#6 (0x02#6) with d := up o.d, a := o.a, b := o.b, md := combBits o.comb o.fw.toBit }
  | .fun_ g o => some { base g 0x0F#6 (0x03#6) with d := up o.d, a := o.a, b := o.b, md := combBits o.comb o.fw.toBit }
  | .ld g o => some { base g 0x10#6 (ldFn o.size o.sext o.mode) with d := o.d, a := o.a, b := o.b, md := mdBits o.md, imm := o.disp }
  | .st g o => some { base g 0x11#6 (o.size.toBits.setWidth 6) with d := o.d, a := o.a, b := o.b, md := mdBits o.md, imm := o.disp }
  | .atomXchg g o => some { base g 0x12#6 (atomFn 0x00#6 o.w64) with d := o.d, a := o.a, b := o.b, md := mdBits o.md, imm := o.disp }
  | .atomCas g o => some { base g 0x12#6 (atomFn 0x01#6 o.w64) with d := o.d, a := o.a, b := o.b, c := o.c, md := mdBits o.md, imm := o.disp }
  | .atomAdd g o => some { base g 0x12#6 (atomFn 0x02#6 o.w64) with d := o.d, a := o.a, b := o.b, md := mdBits o.md, imm := o.disp }
  | .atomAnd g o => some { base g 0x12#6 (atomFn 0x03#6 o.w64) with d := o.d, a := o.a, b := o.b, md := mdBits o.md, imm := o.disp }
  | .atomOr g o => some { base g 0x12#6 (atomFn 0x04#6 o.w64) with d := o.d, a := o.a, b := o.b, md := mdBits o.md, imm := o.disp }
  | .atomXor g o => some { base g 0x12#6 (atomFn 0x05#6 o.w64) with d := o.d, a := o.a, b := o.b, md := mdBits o.md, imm := o.disp }
  | .atomMin g o => some { base g 0x12#6 (atomFn 0x06#6 o.w64) with d := o.d, a := o.a, b := o.b, md := mdBits o.md, imm := o.disp }
  | .atomMax g o => some { base g 0x12#6 (atomFn 0x07#6 o.w64) with d := o.d, a := o.a, b := o.b, md := mdBits o.md, imm := o.disp }
  | .atomMinn g o => some { base g 0x12#6 (atomFn 0x08#6 o.w64) with d := o.d, a := o.a, b := o.b, md := mdBits o.md, imm := o.disp }
  | .atomMaxn g o => some { base g 0x12#6 (atomFn 0x09#6 o.w64) with d := o.d, a := o.a, b := o.b, md := mdBits o.md, imm := o.disp }
  | .atomFadd g o => some { base g 0x12#6 (0x0A#6) with d := o.d, a := o.a, b := o.b, md := mdBits o.md, imm := o.disp }
  | .atomFmin g o => some { base g 0x12#6 (0x0B#6) with d := o.d, a := o.a, b := o.b, md := mdBits o.md, imm := o.disp }
  | .atomFmax g o => some { base g 0x12#6 (0x0C#6) with d := o.d, a := o.a, b := o.b, md := mdBits o.md, imm := o.disp }
  | .atomIncw g o => some { base g 0x12#6 (atomFn 0x0D#6 o.w64) with d := o.d, a := o.a, b := o.b, md := mdBits o.md, imm := o.disp }
  | .atomDecw g o => some { base g 0x12#6 (atomFn 0x0E#6 o.w64) with d := o.d, a := o.a, b := o.b, md := mdBits o.md, imm := o.disp }
  | .vld g o => some { base g 0x13#6 (0x00#6) with d := up o.d, a := o.a, b := o.b, c := up o.m, md := mdBits o.md, imm := o.disp }
  | .vlds g o => some { base g 0x13#6 (0x01#6) with d := up o.d, a := o.a, b := o.b, c := up o.m, md := mdBits o.md, imm := o.disp }
  | .vldb g o => some { base g 0x13#6 (0x02#6) with d := up o.d, a := o.a, b := o.b, c := up o.m, md := mdBits o.md, imm := o.disp }
  | .vst g o => some { base g 0x14#6 (0x00#6) with d := up o.d, a := o.a, b := o.b, c := up o.m, md := mdBits o.md, imm := o.disp }
  | .vsts g o => some { base g 0x14#6 (0x01#6) with d := up o.d, a := o.a, b := o.b, c := up o.m, md := mdBits o.md, imm := o.disp }
  | .vgather g o => some { base g 0x15#6 (0x00#6) with d := up o.d, a := o.a, b := up o.b, c := up o.m, md := mdBits o.md, imm := o.disp }
  | .vscatter g o => some { base g 0x15#6 (0x01#6) with d := up o.d, a := o.a, b := up o.b, c := up o.m, md := mdBits o.md, imm := o.disp }
  | .vscadd g o => some { base g 0x15#6 (0x02#6) with d := up o.d, a := o.a, b := up o.b, c := up o.m, md := mdBits o.md, imm := o.disp }
  | .prefetchDc g o => some { base g 0x16#6 (0x00#6) with a := o.a, b := o.b, md := shBits o.scope o.h, imm := o.disp }
  | .prefetchCs g o => some { base g 0x16#6 (0x01#6) with a := o.a, b := o.b, md := shBits o.scope o.h, imm := o.disp }
  | .tld g o => some { base g 0x18#6 (ldFn o.size o.sext .plain) with d := o.d, a := o.a, b := o.b, md := mdBits o.md, imm := o.disp }
  | .tldv g o => some { base g 0x18#6 (0x08#6) with d := up o.d, a := o.a, b := o.b, c := up o.m, md := mdBits o.md, imm := o.disp }
  | .tldvs g o => some { base g 0x18#6 (0x09#6) with d := up o.d, a := o.a, b := o.b, c := up o.m, md := mdBits o.md, imm := o.disp }
  | .tst g o => some { base g 0x19#6 (o.size.toBits.setWidth 6) with d := o.d, a := o.a, b := o.b, md := mdBits o.md, imm := o.disp }
  | .tstv g o => some { base g 0x19#6 (0x08#6) with d := up o.d, a := o.a, b := o.b, c := up o.m, md := mdBits o.md, imm := o.disp }
  | .tstvs g o => some { base g 0x19#6 (0x09#6) with d := up o.d, a := o.a, b := o.b, c := up o.m, md := mdBits o.md, imm := o.disp }
  | .mma g o => some { base g 0x30#6 (matFn o.ta o.tb) with d := up o.d, md := 0x80#8, imm := o.b ++ o.a }
  | .mmaReg g o => some { base g 0x30#6 (matFn o.ta o.tb) with d := up o.d, a := o.a, b := o.b }
  | .mmas g o => some { base g 0x31#6 (matFn o.ta o.tb) with d := up o.d, c := o.c, md := 0x80#8 ||| o.st.toBits.setWidth 8, imm := o.b ++ o.a }
  | .mmasReg g o => some { base g 0x31#6 (matFn o.ta o.tb) with d := up o.d, a := o.a, b := o.b, c := o.c, md := o.st.toBits.setWidth 8 }
  | .zzero g o => some { base g 0x32#6 (0x00#6) with d := up o.d }
  | .zld g o => some { base g 0x32#6 (0x01#6) with d := up o.d, a := o.a }
  | .zst g o => some { base g 0x32#6 (0x02#6) with a := o.a, c := up o.z, md := vecBits o.dt.toBits o.rnd o.sat, imm := dynBit o.rnd ||| (o.col ++ o.st.toBits).setWidth 16 }
  | .zsts g o => some { base g 0x32#6 (0x03#6) with d := o.d, a := o.a, b := o.b, c := up o.z, md := vecBits o.dt.toBits o.rnd o.sat, imm := dynBit o.rnd ||| (o.col ++ 0x8#4).setWidth 16 }
  | .zbias g o => some { base g 0x32#6 (0x04#6) with d := up o.d, b := up o.b, md := vecBits o.t.toBits o.rnd false, imm := dynBit o.rnd }
  | .tarm g o => some { base g 0x1A#6 (0x00#6) with b := o.b, c := o.t.cField, imm := o.t.immField ||| (o.n ++ 0#8).setWidth 16 }
  | .twait g o => some { base g 0x1A#6 (0x01#6) with d := up o.d, c := o.t.cField, md := scopeBits o.scope, imm := o.t.immField }
  | .ttake g o => some { base g 0x1A#6 (0x02#6) with c := o.t.cField, md := shBits o.scope o.h, imm := o.t.immField }
  | .tstat g o => some { base g 0x1A#6 (0x03#6) with d := o.d, c := o.t.cField, imm := o.t.immField ||| selClr o.notify o.clr }
  | .tmark g o => some { base g 0x1A#6 (0x04#6) with c := o.t.cField, md := shBits o.scope o.h, imm := o.t.immField }
  | .tpois g o => some { base g 0x1A#6 (0x05#6) with c := o.t.cField, md := shBits o.scope o.h, imm := o.t.immField }
  | .tscls g o => some { base g 0x1A#6 (0x06#6) with a := o.a, c := o.t.cField, md := shBits o.scope o.h, imm := o.t.immField }
  | .tsclg g o => some { base g 0x1A#6 (0x07#6) with d := o.d, c := o.t.cField, imm := o.t.immField }
  | .tzero g o => some { base g 0x1A#6 (0x08#6) with c := o.t.cField, md := shBits o.scope o.h, imm := o.t.immField }
  | .tsend g o => some { base g 0x1B#6 (0x00#6) with a := o.a, b := o.b, md := mdBits o.md, imm := o.n.setWidth 16 }
  | .tsendv g o => some { base g 0x1B#6 (0x01#6) with d := up o.d, b := o.b, md := mdBits o.md }
  | .tsendx g o => some { base g 0x1B#6 (0x02#6) with a := o.a, b := o.b, c := o.c, md := mdBits o.md }
  | .tnote g o => some { base g 0x1B#6 (0x03#6) with b := o.b, md := mdBits o.md }
  | .hfork g o => some { base g 0x1C#6 (0x00#6) with d := up o.d, a := up o.s, md := scopeBits o.scope }
  | .hjoin g o => some { base g 0x1C#6 (0x01#6) with d := up o.d, a := up o.s, md := scopeBits o.scope }
  | .hjoina g o => some { base g 0x1C#6 (0x02#6) with md := scopeBits o.scope }
  | .hwait g o => some { base g 0x1C#6 (0x03#6) with a := up o.s, md := scopeBits o.scope }
  | .hpass g o => some { base g 0x1C#6 (0x04#6) with a := up o.s, b := o.b, md := scopeBits o.scope }
  | .hrecv g o => some { base g 0x1C#6 (0x05#6) with d := up o.d, a := o.a, md := scopeBits o.scope }
  | .hcnt g o => some { base g 0x1C#6 (0x06#6) with d := o.d, a := up o.s }
  | .barinit g o => some { base g 0x1D#6 (0x00#6) with a := o.a, c := o.t.cField, imm := o.t.immField }
  | .bararr g o => some { base g 0x1D#6 (0x01#6) with d := o.d, c := o.t.cField, md := shBits o.scope o.h, imm := o.t.immField }
  | .bararx g o => some { base g 0x1D#6 (0x02#6) with d := o.d, a := o.a, c := o.t.cField, md := shBits o.scope o.h, imm := o.t.immField }
  | .barexp g o => some { base g 0x1D#6 (0x03#6) with a := o.a, c := o.t.cField, md := shBits o.scope o.h, imm := o.t.immField }
  | .barwait g o => some { base g 0x1D#6 (0x04#6) with a := o.a, c := o.t.cField, md := scopeBits o.scope, imm := o.t.immField }
  | .bartry g o => some { base g 0x1D#6 (0x05#6) with d := up o.d, a := o.a, c := o.t.cField, md := scopeBits o.scope, imm := o.t.immField }
  | .barinv g o => some { base g 0x1D#6 (0x06#6) with c := o.t.cField, imm := o.t.immField }
  | .spawn g o => some { base g 0x1E#6 (0x00#6) with d := up o.d, a := o.a, md := shBits o.scope o.h }
  | .exit g => some (base g 0x1E#6 (0x01#6))
  | .yield g => some (base g 0x1E#6 (0x02#6))
  | .park g o => some { base g 0x1E#6 (0x03#6) with a := o.a }
  | .cpygo g o => some { base g 0x20#6 (0x00#6) with d := o.d, a := o.a, md := mdBits o.md }
  | .cpystat g o => some { base g 0x20#6 (0x01#6) with d := o.d, a := o.a }
  | .cpyabort g o => some { base g 0x20#6 (0x02#6) with a := o.a }
  | .layset g o => some { base g 0x20#6 (0x03#6) with a := o.a, c := o.e.cField, imm := o.e.immField }
  | .layget g o => some { base g 0x20#6 (0x04#6) with a := o.a, c := o.e.cField, imm := o.e.immField }
  | .rgput g o => some { base g 0x21#6 (0x00#6) with a := o.a, b := o.b, c := o.c, md := mdBits o.md }
  | .rgread g o => some { base g 0x21#6 (0x01#6) with d := o.d, a := o.a, b := o.b, c := o.c, md := scopeBits o.scope, imm := o.n.setWidth 16 }
  | .rgpos g o => some { base g 0x21#6 (0x02#6) with d := o.d, b := o.b, md := scopeBits o.scope }
  | .trgnext g o => some { base g 0x21#6 (0x03#6) with d := o.d, b := o.b, md := scopeBits o.scope }
  | .trgfwd g o => some { base g 0x21#6 (0x04#6) with d := o.d, a := o.a, b := o.b, md := mdBits o.md }
  | .trgacc g o => some { base g 0x21#6 (0x05#6) with d := o.d, a := o.a, b := o.b, md := mdBits o.md }
  | .trgrej g o => some { base g 0x21#6 (0x06#6) with a := o.a, b := o.b, md := mdBits o.md }
  | .trgmark g o => some { base g 0x21#6 (0x07#6) with b := o.b, md := mdBits o.md }
  | .vadd g o => some { base g 0x28#6 (0x00#6) with d := up o.d, a := up o.a, b := up o.b, c := up o.m, md := vecBits o.t.toBits .rne false }
  | .vsub g o => some { base g 0x28#6 (0x01#6) with d := up o.d, a := up o.a, b := up o.b, c := up o.m, md := vecBits o.t.toBits .rne false }
  | .vmul g o => some { base g 0x28#6 (0x02#6) with d := up o.d, a := up o.a, b := up o.b, c := up o.m, md := vecBits o.t.toBits .rne false }
  | .vmulh g o => some { base g 0x28#6 (0x03#6) with d := up o.d, a := up o.a, b := up o.b, c := up o.m, md := vecBits o.t.toBits .rne false }
  | .vmadd g o => some { base g 0x28#6 (0x04#6) with d := up o.d, a := up o.a, b := up o.b, c := up o.m, md := vecBits o.t.toBits .rne false }
  | .vand g o => some { base g 0x28#6 (0x05#6) with d := up o.d, a := up o.a, b := up o.b, c := up o.m, md := vecBits o.t.toBits .rne false }
  | .vor g o => some { base g 0x28#6 (0x06#6) with d := up o.d, a := up o.a, b := up o.b, c := up o.m, md := vecBits o.t.toBits .rne false }
  | .vxor g o => some { base g 0x28#6 (0x07#6) with d := up o.d, a := up o.a, b := up o.b, c := up o.m, md := vecBits o.t.toBits .rne false }
  | .vshl g o => some { base g 0x28#6 (0x08#6) with d := up o.d, a := up o.a, b := up o.b, c := up o.m, md := vecBits o.t.toBits .rne false }
  | .vshr g o => some { base g 0x28#6 (0x09#6) with d := up o.d, a := up o.a, b := up o.b, c := up o.m, md := vecBits o.t.toBits .rne false }
  | .vsar g o => some { base g 0x28#6 (0x0A#6) with d := up o.d, a := up o.a, b := up o.b, c := up o.m, md := vecBits o.t.toBits .rne false }
  | .vmin g o => some { base g 0x28#6 (0x0B#6) with d := up o.d, a := up o.a, b := up o.b, c := up o.m, md := vecBits o.t.toBits .rne false }
  | .vmax g o => some { base g 0x28#6 (0x0C#6) with d := up o.d, a := up o.a, b := up o.b, c := up o.m, md := vecBits o.t.toBits .rne false }
  | .vabs g o => some { base g 0x28#6 (0x0D#6) with d := up o.d, a := up o.a, c := up o.m, md := vecBits o.t.toBits .rne false }
  | .vneg g o => some { base g 0x28#6 (0x0E#6) with d := up o.d, a := up o.a, c := up o.m, md := vecBits o.t.toBits .rne false }
  | .vadds g o => some { base g 0x28#6 (0x0F#6) with d := up o.d, a := up o.a, b := up o.b, c := up o.m, md := vecBits o.t.toBits .rne false }
  | .vsubs g o => some { base g 0x28#6 (0x10#6) with d := up o.d, a := up o.a, b := up o.b, c := up o.m, md := vecBits o.t.toBits .rne false }
  | .vpop g o => some { base g 0x28#6 (0x11#6) with d := up o.d, a := up o.a, c := up o.m, md := vecBits o.t.toBits .rne false }
  | .vclz g o => some { base g 0x28#6 (0x12#6) with d := up o.d, a := up o.a, c := up o.m, md := vecBits o.t.toBits .rne false }
  | .vdot4 g o => some { base g 0x28#6 (0x13#6) with d := up o.d, a := up o.a, b := up o.b, c := up o.m, md := vecBits o.t.toBits .rne false }
  | .vsel g o => some { base g 0x28#6 (0x14#6) with d := up o.d, a := up o.a, b := up o.b, c := up o.m, md := vecBits o.t.toBits .rne false }
  | .vfadd g o => some { base g 0x29#6 (0x00#6) with d := up o.d, a := up o.a, b := up o.b, c := up o.m, md := vecBits o.t.toBits o.rnd false, imm := dynBit o.rnd }
  | .vfsub g o => some { base g 0x29#6 (0x01#6) with d := up o.d, a := up o.a, b := up o.b, c := up o.m, md := vecBits o.t.toBits o.rnd false, imm := dynBit o.rnd }
  | .vfmul g o => some { base g 0x29#6 (0x02#6) with d := up o.d, a := up o.a, b := up o.b, c := up o.m, md := vecBits o.t.toBits o.rnd false, imm := dynBit o.rnd }
  | .vffma g o => some { base g 0x29#6 (0x03#6) with d := up o.d, a := up o.a, b := up o.b, c := up o.m, md := vecBits o.t.toBits o.rnd false, imm := dynBit o.rnd }
  | .vffms g o => some { base g 0x29#6 (0x04#6) with d := up o.d, a := up o.a, b := up o.b, c := up o.m, md := vecBits o.t.toBits o.rnd false, imm := dynBit o.rnd }
  | .vfmin g o => some { base g 0x29#6 (0x05#6) with d := up o.d, a := up o.a, b := up o.b, c := up o.m, md := vecBits o.t.toBits .rne false }
  | .vfmax g o => some { base g 0x29#6 (0x06#6) with d := up o.d, a := up o.a, b := up o.b, c := up o.m, md := vecBits o.t.toBits .rne false }
  | .vfabs g o => some { base g 0x29#6 (0x07#6) with d := up o.d, a := up o.a, c := up o.m, md := vecBits o.t.toBits .rne false }
  | .vfneg g o => some { base g 0x29#6 (0x08#6) with d := up o.d, a := up o.a, c := up o.m, md := vecBits o.t.toBits .rne false }
  | .vfdiv g o => some { base g 0x29#6 (0x09#6) with d := up o.d, a := up o.a, b := up o.b, c := up o.m, md := vecBits o.t.toBits o.rnd false, imm := dynBit o.rnd }
  | .vfsqrt g o => some { base g 0x29#6 (0x0A#6) with d := up o.d, a := up o.a, c := up o.m, md := vecBits o.t.toBits o.rnd false, imm := dynBit o.rnd }
  | .vfrcp g o => some { base g 0x29#6 (0x0B#6) with d := up o.d, a := up o.a, c := up o.m, md := vecBits o.t.toBits o.rnd false, imm := dynBit o.rnd }
  | .vfrsq g o => some { base g 0x29#6 (0x0C#6) with d := up o.d, a := up o.a, c := up o.m, md := vecBits o.t.toBits o.rnd false, imm := dynBit o.rnd }
  | .vfexp2 g o => some { base g 0x29#6 (0x0D#6) with d := up o.d, a := up o.a, c := up o.m, md := vecBits o.t.toBits o.rnd false, imm := dynBit o.rnd }
  | .vflog2 g o => some { base g 0x29#6 (0x0E#6) with d := up o.d, a := up o.a, c := up o.m, md := vecBits o.t.toBits o.rnd false, imm := dynBit o.rnd }
  | .vfscl g o => some { base g 0x29#6 (0x0F#6) with d := up o.d, a := up o.a, b := up o.b, c := up o.m, md := vecBits o.t.toBits o.rnd false, imm := dynBit o.rnd }
  | .vcvt g o => some { base g 0x2A#6 (0x00#6) with d := up o.d, a := up o.a, c := up o.m, md := cvtMd o.dt o.rnd o.sat, imm := cvtImm o.st o.part o.kr o.rnd }
  | .vcvtsc g o => some { base g 0x2A#6 (0x01#6) with d := up o.d, a := up o.a, b := o.b, c := up o.m, md := cvtMd o.dt o.rnd o.sat, imm := cvtImm o.st o.part o.kr o.rnd }
  | .vperm g o => some { base g 0x2B#6 (0x00#6) with d := up o.d, a := up o.a, b := up o.b, c := up o.m }
  | .vbcast g o => some { base g 0x2B#6 (0x01#6) with d := up o.d, a := o.a, c := up o.m }
  | .vins g o => some { base g 0x2B#6 (0x02#6) with d := up o.d, a := o.a, b := o.b }
  | .vext g o => some { base g 0x2B#6 (0x03#6) with d := o.d, a := up o.a, b := o.b }
  | .vred g o => some { base g 0x2B#6 (0x04#6) with d := o.d, a := up o.a, c := up o.m, md := vecBits o.t.toBits o.rnd false, imm := dynBit o.rnd ||| o.op.toBits.setWidth 16 }
  | .vscan g o => some { base g 0x2B#6 (0x05#6) with d := up o.d, a := up o.a, c := up o.m, md := vecBits o.t.toBits o.rnd false, imm := dynBit o.rnd ||| o.op.toBits.setWidth 16 }
  | .vcomp g o => some { base g 0x2B#6 (0x06#6) with d := up o.d, a := up o.a, c := up o.m }
  | .vexpd g o => some { base g 0x2B#6 (0x07#6) with d := up o.d, a := up o.a, c := up o.m }
  | .vslide g o => some { base g 0x2B#6 (0x08#6) with d := up o.d, a := up o.a, b := o.b, c := up o.m }
  | .vcmpEq g o => some { base g 0x2C#6 (0x00#6) with d := up o.d, a := up o.a, b := up o.b, c := up o.m, md := 0x4#8 }
  | .vcmpNe g o => some { base g 0x2C#6 (0x01#6) with d := up o.d, a := up o.a, b := up o.b, c := up o.m, md := 0x4#8 }
  | .vcmpLt g o => some { base g 0x2C#6 (0x02#6) with d := up o.d, a := up o.a, b := up o.b, c := up o.m, md := 0x4#8 }
  | .vcmpGe g o => some { base g 0x2C#6 (0x03#6) with d := up o.d, a := up o.a, b := up o.b, c := up o.m, md := 0x4#8 }
  | .vcmpLe g o => some { base g 0x2C#6 (0x04#6) with d := up o.d, a := up o.a, b := up o.b, c := up o.m, md := 0x4#8 }
  | .vcmpGt g o => some { base g 0x2C#6 (0x05#6) with d := up o.d, a := up o.a, b := up o.b, c := up o.m, md := 0x4#8 }
  | .vcmpLtn g o => some { base g 0x2C#6 (0x06#6) with d := up o.d, a := up o.a, b := up o.b, c := up o.m, md := 0x4#8 }
  | .vcmpGen g o => some { base g 0x2C#6 (0x07#6) with d := up o.d, a := up o.a, b := up o.b, c := up o.m, md := 0x4#8 }
  | .vcmpLen g o => some { base g 0x2C#6 (0x08#6) with d := up o.d, a := up o.a, b := up o.b, c := up o.m, md := 0x4#8 }
  | .vcmpGtn g o => some { base g 0x2C#6 (0x09#6) with d := up o.d, a := up o.a, b := up o.b, c := up o.m, md := 0x4#8 }
  | .vcmpTst g o => some { base g 0x2C#6 (0x0A#6) with d := up o.d, a := up o.a, b := up o.b, c := up o.m, md := 0x4#8 }
  | .vcmpNtst g o => some { base g 0x2C#6 (0x0B#6) with d := up o.d, a := up o.a, b := up o.b, c := up o.m, md := 0x4#8 }
  | .vcmpFeq g o => some { base g 0x2C#6 (0x10#6) with d := up o.d, a := up o.a, b := up o.b, c := up o.m, md := 0x8#8 }
  | .vcmpFlt g o => some { base g 0x2C#6 (0x11#6) with d := up o.d, a := up o.a, b := up o.b, c := up o.m, md := 0x8#8 }
  | .vcmpFle g o => some { base g 0x2C#6 (0x12#6) with d := up o.d, a := up o.a, b := up o.b, c := up o.m, md := 0x8#8 }
  | .vcmpFun g o => some { base g 0x2C#6 (0x13#6) with d := up o.d, a := up o.a, b := up o.b, c := up o.m, md := 0x8#8 }
  | .vrand g o => some { base g 0x2D#6 (0x00#6) with d := up o.d, a := o.a, b := up o.b, c := up o.m }
  | .vmov g o => some { base g 0x2D#6 (0x01#6) with d := up o.d, a := up o.a, c := up o.m }
  | .vmovi g o => some { base g 0x2D#6 (0x02#6) with d := up o.d, a := o.imm.extractLsb' 15 6, c := up o.m, md := vecBits o.t.toBits .rne false, imm := (o.imm.setWidth 15).setWidth 16 }
  | .viota g o => some { base g 0x2D#6 (0x03#6) with d := up o.d, a := o.a, c := up o.m }
  | .kand g o => some { base g 0x2D#6 (0x04#6) with d := up o.d, a := up o.a, b := up o.b }
  | .kor g o => some { base g 0x2D#6 (0x05#6) with d := up o.d, a := up o.a, b := up o.b }
  | .kxor g o => some { base g 0x2D#6 (0x06#6) with d := up o.d, a := up o.a, b := up o.b }
  | .knot g o => some { base g 0x2D#6 (0x07#6) with d := up o.d, a := up o.a }
  | .ksetx g o => some { base g 0x2D#6 (0x08#6) with d := up o.d, a := o.a }
  | .kgetx g o => some { base g 0x2D#6 (0x09#6) with d := o.d, a := up o.a }
  | .kpop g o => some { base g 0x2D#6 (0x0A#6) with d := o.d, a := up o.a }
  | .vbdot g o => some { base g 0x2E#6 (0x00#6) with d := up o.d, a := up o.a, b := up o.b, c := up o.c, md := o.st.toBits.setWidth 8, imm := o.m.setWidth 16 }
  | .vbdots g o => some { base g 0x2E#6 (0x01#6) with d := o.d, a := up o.a, b := up o.b, c := up o.c, md := o.st.toBits.setWidth 8, imm := o.m.setWidth 16 }
  | .storePerform _ _ => none
  | .loadPerform _ _ _ _ => none
  | .atomicPerform _ _ _ => none
  | .transferPerform _ _ => none
  | .tagItemPerform _ _ => none
  | .barrierItemPerform _ _ => none
  | .copyCommandPerform _ _ => none
  | .ringItemPerform _ _ _ => none
  | .gate _ _ => none
  | .uplink _ => none
  | .fabric _ _ => none
  | .fill _ _ => none
  | .drop _ _ => none
  | .deliver _ _ => none
  | .waitEnd _ _ => none
  | .timedWaitExpiry _ => none
  | .voteWindowExpiry _ => none
  | .voteBufferDiscard _ => none
  | .eventTaken _ => none
  | .deferredPoison _ => none
  | .instructionFetchFault _ => none
  | .pageWalkEnd _ _ => none
  | .crewPlacement _ _ => none
  | .crewRetirement _ => none
  | .doneIncrement _ _ => none
  | .waitCounterCheck _ _ => none
  | .agingStep _ => none
  | .preempt _ => none
  | .quantumExpiry _ => none
  | .crewRestore _ _ => none
  | .hang _ _ => none
  | .resume _ _ _ => none
  | .kill _ _ _ => none
  | .teardown _ _ => none
  | .teardownDone _ => none
  | .dmwrSubmission _ => none
  | .seqWrite _ _ _ _ => none
  | .bar4Access _ _ _ _ => none
  | .wqcfgWrite _ _ _ => none
  | .pdcfgWrite _ _ _ => none
  | .registerWrite _ _ _ => none
  | .xlinv _ _ => none
  | .xlinvDone => none
  | .assign _ _ _ => none
  | .release _ _ => none
  | .releaseEvictDone _ => none
  | .releaseEngineTimeout _ => none
  | .releaseDrainDone _ => none
  | .mrbaseWrite _ _ _ => none
  | .wncfgWrite _ _ _ _ => none
  | .cxdcfgWrite _ _ _ => none
  | .linkTrained _ => none
  | .packetReceived _ _ => none
  | .packetCrcFail _ => none
  | .linkRetrain _ _ => none
  | .remoteTimeout _ => none
  | .cxlPortDown _ => none
  | .hpcfgWrite _ _ => none
  | .hotPagePeriodEnd => none
  | .atsTranslationCompletion _ _ => none
  | .pageRequestResponse _ _ => none
  | .atsInvalidateRequest _ _ _ _ => none
  | .invalidateCompletion _ => none
  | .hostAtomicopError _ _ => none
  | .jobStart _ _ => none
  | .elementOperation _ _ _ _ => none
  | .completionAction _ _ _ => none
  | .rowstreamReservation _ _ => none
  | .rowstreamIdleRelease _ => none
  | .slotTableWrite _ _ _ _ _ => none
  | .ringEnable _ => none
  | .ringDisable _ => none
  | .ringFault _ => none
  | .frameReceived _ _ => none
  | .frameBufferDrop _ _ => none
  | .sampleWrite _ => none
  | .headDelivery _ => none
  | .vacancyNotice _ _ => none
  | .claimClose _ _ => none
  | .keepCopySubmit _ _ _ => none
  | .keepCopyFault _ _ => none
  | .qreqRise _ => none
  | .qreqClear _ => none
  | .save _ => none
  | .restore _ => none
  | .clkenClear _ => none
  | .clkenSet _ => none
  | .railOff _ => none
  | .railOn _ => none
  | .wake _ _ => none
  | .wakeClr _ _ => none
  | .quiesceDrainComplete _ => none
  | .quiesceJobLimit _ _ => none
  | .saveDone _ => none
  | .restoreDone _ => none
  | .powerGood _ => none
  | .rampTimeout _ => none
  | .initDone _ => none
  | .railFault _ => none
  | .controlFault _ => none
  | .errcfgWrite _ _ => none
  | .mapoutGo _ _ _ => none
  | .vacated _ _ => none
  | .mapoutSwitch _ => none
  | .patrolScrub _ _ _ _ => none
  | .powerUp => none
  | .bringupStepDone _ _ => none
  | .getVersion _ => none
  | .getCapabilities _ => none
  | .negotiateAlgorithms _ => none
  | .getDigests _ => none
  | .getCertificate _ => none
  | .challenge _ => none
  | .getMeasurements _ => none
  | .powerSample _ _ => none
  | .thermalShutdown => none
  | .matrixInstructionComplete _ => none
  | .controllerEvaluation _ => none
  | .weltReplay _ _ _ => none
  | .cxlPortUp _ => none
  | .dieRailFault _ => none

/-- The literal word that follows MOVL (R113). -/
def encodeLiteral : Instr → List Word
  | .movl _ o => [o.lit]
  | _ => []

/-- The words of an instruction; a step of the machine has none. -/
def encode (i : Instr) : Option (List Word) :=
  match encodeFields i with
  | some f => some (f.toWord :: encodeLiteral i)
  | none => none

/-- The instruction whose bits are `w`, numbered as the opcode table numbers them. The table gives no row any
bits, so `nbits` selects nothing: every instruction is read from its first word, and MOVL's literal from the
word above it. -/
noncomputable def decodeTableWord (nbits w : Nat) : Option Instr :=
  match decodeWord (BitVec.ofNat 64 (w % 2 ^ nbits)) (BitVec.ofNat 64 (w % 2 ^ nbits / 2 ^ 64)) with
  | .ok i => some i
  | .error _ => none

end Sys2Proof
end

