-- ==== Sys2Proof/Machine/Float.lean ====
section
/-!
DEFINITION. Float.lean: number formats and exact arithmetic (R74 to R103, 03). A value is held exactly; each
result is rounded once. Where the exact result is no dyadic number (a quotient, a root, a power, a
logarithm) it is held as its leading bits and a mark that something lies below them.
-/

namespace Sys2Proof.Machine

/-! ### Formats (R74, R75) -/

/-- The signed binary floating-point formats of R74. -/
inductive Fmt where
  | f64 | f32 | f16 | bf16 | sc20 | e4m3 | e5m2 | e2m1
  deriving DecidableEq, Repr

def Fmt.expBits : Fmt → Nat
  | .f64 => 11 | .f32 => 8 | .f16 => 5 | .bf16 => 8 | .sc20 => 8 | .e4m3 => 4 | .e5m2 => 5 | .e2m1 => 2

def Fmt.fracBits : Fmt → Nat
  | .f64 => 52 | .f32 => 23 | .f16 => 10 | .bf16 => 7 | .sc20 => 11 | .e4m3 => 3 | .e5m2 => 2 | .e2m1 => 1

def Fmt.bias : Fmt → Nat
  | .f64 => 1023 | .f32 => 127 | .f16 => 15 | .bf16 => 127 | .sc20 => 127 | .e4m3 => 7 | .e5m2 => 15
  | .e2m1 => 1

/-- Bits of a format, the sign the highest. -/
def Fmt.width (t : Fmt) : Nat := 1 + t.expBits + t.fracBits

/-- Whether the format has infinities (R75). -/
def Fmt.hasInf : Fmt → Bool
  | .e4m3 | .e2m1 => false
  | _ => true

/-- The code of the largest finite magnitude (R74). -/
def Fmt.maxCode (t : Fmt) : Nat :=
  match t with
  | .e4m3 => 0x7E
  | .e2m1 => 0x7
  | _ => (2 ^ t.expBits - 1) * 2 ^ t.fracBits - 1

/-- The code of +∞, for a format that has it. -/
def Fmt.infCode (t : Fmt) : Nat := (2 ^ t.expBits - 1) * 2 ^ t.fracBits

/-- The sign bit of a code. -/
def Fmt.signBit (t : Fmt) : Nat := 2 ^ (t.expBits + t.fracBits)

/-- The canonical NaN (R75); E2M1 has none, and its use for E2M1 is +0 (R90). -/
def Fmt.nanCode (t : Fmt) : Nat :=
  match t with
  | .e4m3 => 0x7F
  | .e2m1 => 0
  | _ => t.infCode + 2 ^ (t.fracBits - 1)

/-! ### Flags (R19, R87) -/

/-- FPFLAGS bits 4:0. -/
abbrev Flags := BitVec 5

def Flags.none : Flags := 0
def Flags.invalid : Flags := 1
def Flags.divzero : Flags := 2
def Flags.overflow : Flags := 4
def Flags.underflow : Flags := 8
def Flags.inexact : Flags := 16
def Flags.inval (b : Bool) : Flags := if b then .invalid else .none

/-! ### Values -/

/-- An exact value: a NaN, signalling or quiet; an infinity; or (−1)^neg × (m + δ) × 2^e, with 0 < δ < 1 when
`sticky` and δ = 0 otherwise. A zero keeps its sign. -/
inductive Val where
  | nan (sig : Bool)
  | inf (neg : Bool)
  | fin (neg : Bool) (m : Nat) (e : Int) (sticky : Bool)
  deriving DecidableEq, Repr

def Val.zero (neg : Bool) : Val := .fin neg 0 0 false

def Val.isSig : Val → Bool
  | .nan s => s
  | _ => false

def Val.isNan : Val → Bool
  | .nan _ => true
  | _ => false

def Val.isZero : Val → Bool
  | .fin _ 0 _ false => true
  | _ => false

def Val.neg : Val → Bool
  | .nan _ => false
  | .inf n => n
  | .fin n _ _ _ => n

/-- An integer as a value; 0 is +0. -/
def Val.ofInt (z : Int) : Val := .fin (decide (z < 0)) z.natAbs 0 false

/-- The value of a code (R74, R75). -/
def Fmt.decode (t : Fmt) (code : Nat) : Val :=
  let code := code % 2 ^ t.width
  let neg := decide (t.signBit ≤ code)
  let mag := code % t.signBit
  let f := mag % 2 ^ t.fracBits
  let e := mag / 2 ^ t.fracBits
  let special : Bool :=
    match t with
    | .e2m1 => false
    | .e4m3 => mag == 0x7F
    | _ => decide (t.infCode ≤ mag)
  if special then
    if t.hasInf && f == 0 then .inf neg
    else .nan (t != .e4m3 && t != .e5m2 && decide (f < 2 ^ (t.fracBits - 1)))
  else if e = 0 then .fin neg f (1 - (t.bias : Int) - t.fracBits) false
  else .fin neg (2 ^ t.fracBits + f) ((e : Int) - t.bias - t.fracBits) false

/-! ### Rounding (R81, R82, R87) -/

/-- A rounding mode at work: R81's, with the random bits of .rs. -/
inductive RMode where
  | rne | rtz | rdn | rup
  | rs (rb : Nat)
  deriving DecidableEq, Repr

/-- The result of one rounding to a format: its code, flags, and whether it counts as saturated (R94). -/
structure Rounded where
  code : Nat
  flags : Flags
  sat : Bool
  deriving DecidableEq, Repr

/-- (m + δ) × 2^e rounded to a multiple of 2^q: the multiple, and whether it is inexact. With a mark below m,
q lies at least 24 places above e, as every caller provides. -/
def roundAt (mode : RMode) (neg : Bool) (m : Nat) (e : Int) (sticky : Bool) (q : Int) : Nat × Bool :=
  if q ≤ e then (m * 2 ^ (e - q).toNat, sticky)
  else
    let sh := (q - e).toNat
    let n := m >>> sh
    let r := m % 2 ^ sh
    let inexact := r != 0 || sticky
    let half := 2 ^ (sh - 1)
    let up : Bool :=
      match mode with
      | .rne => decide (half < r) || (r == half && (sticky || n % 2 == 1))
      | .rtz => false
      | .rdn => neg
      | .rup => !neg
      | .rs rb => decide (rb < r * 2 ^ 24 / 2 ^ sh)
    (if inexact && up then n + 1 else n, inexact)

/-- The delivered result on overflow (R87), or the bound for a format that saturates (R90). -/
def overflowed (t : Fmt) (mode : RMode) (sat neg : Bool) : Rounded :=
  let fl : Flags := .overflow ||| .inexact
  let s := if neg then t.signBit else 0
  let toMax : Bool :=
    match mode with
    | .rne | .rs _ => false
    | .rtz => true
    | .rdn => !neg
    | .rup => neg
  if sat || !t.hasInf then ⟨s + t.maxCode, fl, true⟩
  else if toMax then ⟨s + t.maxCode, fl, false⟩
  else ⟨s + t.infCode, fl, false⟩

/-- RoundTo of a finite value (R81, R87). -/
def roundFin (t : Fmt) (mode : RMode) (sat neg : Bool) (m : Nat) (e : Int) (sticky : Bool) : Rounded :=
  let s := if neg then t.signBit else 0
  if m = 0 ∧ sticky = false then ⟨s, .none, false⟩
  else
    let top : Int := e + Nat.log2 m
    let qU : Int := top - t.fracBits
    let qMin : Int := 1 - (t.bias : Int) - t.fracBits
    let q := max qU qMin
    let r := roundAt mode neg m e sticky q
    let code := (q - qMin).toNat * 2 ^ t.fracBits + r.1
    if t.maxCode < code then overflowed t mode sat neg
    else
      let u := roundAt mode neg m e sticky qU
      let tiny := decide (qU < qMin) && decide ((u.1 : Int) < 2 ^ (t.fracBits + (qMin - qU).toNat))
      let fl : Flags :=
        (if r.2 then .inexact else .none) ||| (if tiny && r.2 then .underflow else .none)
      ⟨s + code, fl, false⟩

/-- RoundTo (R87, R90): the code of a value in a format, under .sat or not. A NaN comes out canonical, and a
signalling one raises INVALID; so does any NaN toward E2M1 (R90) and, from another type, toward E4M3 (the table of R94).
Left open by the spec: log entry 18 (DEDUCED). -/
def roundTo (t : Fmt) (mode : RMode) (sat : Bool) (v : Val) : Rounded :=
  match v with
  | .nan sig => ⟨t.nanCode, .inval (sig || t == .e4m3 || t == .e2m1), false⟩
  | .inf neg =>
    let s := if neg then t.signBit else 0
    if sat || !t.hasInf then ⟨s + t.maxCode, .invalid, true⟩ else ⟨s + t.infCode, .none, false⟩
  | .fin neg m e sticky => roundFin t mode sat neg m e sticky

/-! ### Arithmetic (R85, R95, R96) -/

/-- A value with the flags its operation raised. -/
structure Flagged where
  val : Val
  flags : Flags
  deriving DecidableEq, Repr

/-- The signed significand of a finite value scaled to exponent `e0`, at most its own. -/
def scaled (neg : Bool) (m : Nat) (e e0 : Int) : Int :=
  let z : Int := (m * 2 ^ (e - e0).toNat : Nat)
  if neg then -z else z

/-- Exact sum; `rdn` decides the sign of an exact zero (R95). -/
def addVal (rdn : Bool) (a b : Val) : Flagged :=
  match a, b with
  | .nan s, y => ⟨.nan false, .inval (s || y.isSig)⟩
  | _, .nan s => ⟨.nan false, .inval s⟩
  | .inf n, .inf k => if n = k then ⟨.inf n, .none⟩ else ⟨.nan false, .invalid⟩
  | .inf n, _ => ⟨.inf n, .none⟩
  | _, .inf n => ⟨.inf n, .none⟩
  | .fin n1 m1 e1 _, .fin n2 m2 e2 _ =>
    if m1 = 0 ∧ m2 = 0 then ⟨.zero (if n1 = n2 then n1 else rdn), .none⟩
    else
      let e0 := min e1 e2
      let z := scaled n1 m1 e1 e0 + scaled n2 m2 e2 e0
      if z = 0 then ⟨.zero rdn, .none⟩ else ⟨.fin (decide (z < 0)) z.natAbs e0 false, .none⟩

def negVal : Val → Val
  | .nan s => .nan s
  | .inf n => .inf (!n)
  | .fin n m e s => .fin (!n) m e s

/-- Exact product; 0 × ∞ is invalid (R87). -/
def mulVal (a b : Val) : Flagged :=
  match a, b with
  | .nan s, y => ⟨.nan false, .inval (s || y.isSig)⟩
  | _, .nan s => ⟨.nan false, .inval s⟩
  | .inf n, y => if y.isZero then ⟨.nan false, .invalid⟩ else ⟨.inf (n != y.neg), .none⟩
  | x, .inf n => if x.isZero then ⟨.nan false, .invalid⟩ else ⟨.inf (n != x.neg), .none⟩
  | .fin n1 m1 e1 _, .fin n2 m2 e2 _ => ⟨.fin (n1 != n2) (m1 * m2) (e1 + e2) false, .none⟩

/-- a × b + c, exact (R95). -/
def fmaVal (rdn : Bool) (a b c : Val) : Flagged :=
  let p := mulVal a b
  let r := addVal rdn p.val c
  ⟨r.val, p.flags ||| r.flags⟩

/-- Bits kept of a quotient or a root: more than any format and R82's 24 random bits need. -/
def keptBits : Nat := 256

/-- Exact quotient (R87, R96). -/
def divVal (a b : Val) : Flagged :=
  match a, b with
  | .nan s, y => ⟨.nan false, .inval (s || y.isSig)⟩
  | _, .nan s => ⟨.nan false, .inval s⟩
  | .inf _, .inf _ => ⟨.nan false, .invalid⟩
  | .inf n, y => ⟨.inf (n != y.neg), .none⟩
  | x, .inf n => ⟨.zero (n != x.neg), .none⟩
  | .fin n1 m1 e1 _, .fin n2 m2 e2 _ =>
    let n := n1 != n2
    if m2 = 0 then
      if m1 = 0 then ⟨.nan false, .invalid⟩ else ⟨.inf n, .divzero⟩
    else if m1 = 0 then ⟨.zero n, .none⟩
    else
      let k := keptBits + Nat.log2 m2 - min (Nat.log2 m1) (keptBits + Nat.log2 m2)
      let num := m1 * 2 ^ k
      ⟨.fin n (num / m2) (e1 - e2 - k) (num % m2 != 0), .none⟩

/-- The integer square root, bit by bit: `r` is the root of `m` with its bits below `k` still 0. -/
def isqrtFrom (m : Nat) : Nat → Nat → Nat
  | 0, r => r
  | k + 1, r =>
    let r' := r + 2 ^ k
    isqrtFrom m k (if r' * r' ≤ m then r' else r)

/-- Integer square root, rounded down. -/
def isqrt (m : Nat) : Nat := isqrtFrom m (Nat.log2 m / 2 + 1) 0

/-- Exact square root; √−0 is −0, and a value below −0 is invalid (R95, R87). -/
def sqrtVal (a : Val) : Flagged :=
  match a with
  | .nan s => ⟨.nan false, .inval s⟩
  | .inf n => if n then ⟨.nan false, .invalid⟩ else ⟨.inf false, .none⟩
  | .fin n m e _ =>
    if m = 0 then ⟨.zero n, .none⟩
    else if n then ⟨.nan false, .invalid⟩
    else
      let k := 2 * keptBits + (e % 2).toNat
      let m' := m * 2 ^ k
      let r := isqrt m'
      ⟨.fin false r ((e - k) / 2) (r * r != m'), .none⟩

/-- 1/x (R96). -/
def rcpVal (a : Val) : Flagged := divVal (.fin false 1 0 false) a

/-- 1/√x (R96). -/
def rsqVal (a : Val) : Flagged :=
  match a with
  | .nan s => ⟨.nan false, .inval s⟩
  | .inf n => if n then ⟨.nan false, .invalid⟩ else ⟨.zero false, .none⟩
  | .fin n m e _ =>
    if m = 0 then ⟨.inf n, .divzero⟩
    else if n then ⟨.nan false, .invalid⟩
    else
      -- x = m' × 2^(2h); 1/√x = √(2^(2K) / m') × 2^(−h−K)
      let m' := m * 2 ^ (e % 2).toNat
      let h := e / 2
      let big := keptBits + Nat.log2 m'
      let r := isqrt (2 ^ (2 * big) / m')
      ⟨.fin false r (-h - big) (r * r * m' != 2 ^ (2 * big)), .none⟩

/-- Fraction bits of the fixed-point numbers in which 2^x and log₂ x are evaluated.
Left open by the spec: log entry 18 (DEDUCED). -/
def fixBits : Nat := 448

/-- Bits kept of them: the rest absorbs the evaluation's own error. -/
def fixKept : Nat := 384

/-- Σ for k = n down to 1 of 1/(k × 2^k), in fixed point: ln 2. -/
def ln2Sum : Nat → Nat
  | 0 => 0
  | k + 1 => 2 ^ fixBits / ((k + 1) * 2 ^ (k + 1)) + ln2Sum k

/-- ln 2 in fixed point. -/
def ln2Fix : Nat := ln2Sum 460

/-- Σ t^k / k!, term by term, in fixed point. -/
def expSum (t : Nat) : Nat → Nat → Nat → Nat
  | 0, _, _ => 0
  | fuel + 1, k, term => term + expSum t fuel (k + 1) (term * t / 2 ^ fixBits / k)

/-- Σ z^(2k+1)/(2k+1), in fixed point, from the term `zk` = z^(2k+1). -/
def atanhSum (z2 : Nat) : Nat → Nat → Nat → Nat
  | 0, _, _ => 0
  | fuel + 1, k, zk => zk / (2 * k + 1) + atanhSum z2 fuel (k + 1) (zk * z2 / 2 ^ fixBits)

/-- 2^f for a fraction f of `fixBits` bits, in fixed point (1 ≤ 2^f < 2).
Left open by the spec: log entry 18 (DEDUCED). -/
def exp2Fix (f : Nat) : Nat := expSum (f * ln2Fix / 2 ^ fixBits) 100 1 (2 ^ fixBits)

/-- 2^x (R96). A power of an integer is exact; every other is irrational, and lies nowhere near enough to a
rounding boundary for the bits dropped here to matter. -/
def exp2Val (a : Val) : Flagged :=
  match a with
  | .nan s => ⟨.nan false, .inval s⟩
  | .inf n => if n then ⟨.zero false, .none⟩ else ⟨.inf false, .none⟩
  | .fin n m e _ =>
    let big : Nat := 4096
    if 0 ≤ e then
      let z := if 13 < e then big else min (m * 2 ^ e.toNat) big
      ⟨.fin false 1 (if n then -(z : Int) else z) false, .none⟩
    else
      let sh := (-e).toNat
      if m % 2 ^ sh = 0 then
        let z := min (m >>> sh) big
        ⟨.fin false 1 (if n then -(z : Int) else z) false, .none⟩
      else if big ≤ m >>> sh then ⟨.fin false 1 (if n then -(big : Int) else big) false, .none⟩
      else
        -- ⌊x⌋ and the fraction of x, in fixed point; every bit of the fraction fits
        let whole : Int := if n then -((m >>> sh : Nat) : Int) - 1 else ((m >>> sh : Nat) : Int)
        let part := (m % 2 ^ sh) * 2 ^ (fixBits - min sh fixBits) / 2 ^ (sh - min sh fixBits)
        let f := if n then 2 ^ fixBits - part else part
        ⟨.fin false (exp2Fix f >>> (fixBits - fixKept)) (whole - fixKept) true, .none⟩

/-- log₂ x (R96). The logarithm of a power of two is exact; every other is irrational.
Left open by the spec: log entry 18 (DEDUCED). -/
def log2Val (a : Val) : Flagged :=
  match a with
  | .nan s => ⟨.nan false, .inval s⟩
  | .inf n => if n then ⟨.nan false, .invalid⟩ else ⟨.inf false, .none⟩
  | .fin n m e _ =>
    if m = 0 then ⟨.inf true, .divzero⟩
    else if n then ⟨.nan false, .invalid⟩
    else
      let l := Nat.log2 m
      let whole : Int := e + l
      if m = 2 ^ l then ⟨.ofInt whole, .none⟩
      else
        -- f = m / 2^l in (1, 2); z = (f − 1)/(f + 1); ln f = 2 Σ z^(2k+1)/(2k+1)
        let z := (m - 2 ^ l) * 2 ^ fixBits / (m + 2 ^ l)
        let lnf := 2 * atanhSum (z * z / 2 ^ fixBits) 150 0 z
        let frac := lnf * 2 ^ fixBits / ln2Fix
        let v : Int := whole * 2 ^ fixBits + frac
        ⟨.fin (decide (v < 0)) (v.natAbs >>> (fixBits - fixKept)) (-(fixKept : Int)) true, .none⟩

/-- a × 2^n (R166). -/
def scaleVal (a : Val) (n : Int) : Flagged :=
  match a with
  | .nan s => ⟨.nan false, .inval s⟩
  | .inf k => ⟨.inf k, .none⟩
  | .fin k m e s => ⟨.fin k m (e + n) s, .none⟩

/-- Whether a < b, for values that are not NaN; −0 and +0 are equal. -/
def ltVal (a b : Val) : Bool :=
  match a, b with
  | .nan _, _ => false
  | _, .nan _ => false
  | .inf n, .inf k => n && !k
  | .inf n, .fin _ _ _ _ => n
  | .fin _ _ _ _, .inf n => !n
  | .fin n1 m1 e1 _, .fin n2 m2 e2 _ =>
    let e0 := min e1 e2
    decide (scaled n1 m1 e1 e0 < scaled n2 m2 e2 e0)

/-- Whether a = b, for values that are not NaN; −0 and +0 are equal. -/
def eqVal (a b : Val) : Bool := !a.isNan && !b.isNan && !ltVal a b && !ltVal b a

/-- R86: whether the minimum of two values that are not NaN is the first; −0 is below +0. -/
def firstIsMin (a b : Val) : Bool := ltVal a b || (!ltVal b a && a.neg)

/-! ### Operations on codes -/

/-- The result of an operation on codes: rounded once, its flags joined to the operation's (R87). -/
def finish (t : Fmt) (mode : RMode) (r : Flagged) : Rounded :=
  let o := roundTo t mode false r.val
  { o with flags := o.flags ||| r.flags }

/-- Whether a mode rounds exact zero sums to −0 (R95). -/
def RMode.isRdn : RMode → Bool
  | .rdn => true
  | _ => false

def fAdd (t : Fmt) (mode : RMode) (a b : Nat) : Rounded :=
  finish t mode (addVal mode.isRdn (t.decode a) (t.decode b))

def fSub (t : Fmt) (mode : RMode) (a b : Nat) : Rounded :=
  finish t mode (addVal mode.isRdn (t.decode a) (negVal (t.decode b)))

def fMul (t : Fmt) (mode : RMode) (a b : Nat) : Rounded := finish t mode (mulVal (t.decode a) (t.decode b))

def fFma (t : Fmt) (mode : RMode) (a b c : Nat) : Rounded :=
  finish t mode (fmaVal mode.isRdn (t.decode a) (t.decode b) (t.decode c))

/-- d − a × b, one rounding (R166). -/
def fFms (t : Fmt) (mode : RMode) (a b d : Nat) : Rounded :=
  finish t mode (fmaVal mode.isRdn (negVal (t.decode a)) (t.decode b) (t.decode d))

def fDiv (t : Fmt) (mode : RMode) (a b : Nat) : Rounded := finish t mode (divVal (t.decode a) (t.decode b))
def fSqrt (t : Fmt) (mode : RMode) (a : Nat) : Rounded := finish t mode (sqrtVal (t.decode a))
def fRcp (t : Fmt) (mode : RMode) (a : Nat) : Rounded := finish t mode (rcpVal (t.decode a))
def fRsq (t : Fmt) (mode : RMode) (a : Nat) : Rounded := finish t mode (rsqVal (t.decode a))
def fExp2 (t : Fmt) (mode : RMode) (a : Nat) : Rounded := finish t mode (exp2Val (t.decode a))
def fLog2 (t : Fmt) (mode : RMode) (a : Nat) : Rounded := finish t mode (log2Val (t.decode a))
def fScale (t : Fmt) (mode : RMode) (a : Nat) (n : Int) : Rounded := finish t mode (scaleVal (t.decode a) n)

/-- FMIN and FMAX (R86): the code returned, and INVALID for a signalling NaN. -/
def fMinMax (t : Fmt) (isMax : Bool) (a b : Nat) : Rounded :=
  let x := t.decode a
  let y := t.decode b
  let fl := Flags.inval (x.isSig || y.isSig)
  let code :=
    match x.isNan, y.isNan with
    | true, true => t.nanCode
    | true, false => b
    | false, true => a
    | false, false => if firstIsMin x y != isMax then a else b
  ⟨code, fl, false⟩

/-- The compares of R147. -/
inductive FCond where
  | feq | flt | fle | fun
  deriving DecidableEq, Repr

/-- The truth of a compare, and INVALID on a signalling NaN, which .fun never raises (R147). -/
def fCompare (t : Fmt) (c : FCond) (a b : Nat) : Bool × Flags :=
  let x := t.decode a
  let y := t.decode b
  let un := x.isNan || y.isNan
  let fl := Flags.inval (x.isSig || y.isSig)
  match c with
  | .feq => (eqVal x y, fl)
  | .flt => (!un && ltVal x y, fl)
  | .fle => (!un && !ltVal y x, fl)
  | .fun => (un, .none)

/-- The class mask of R146. -/
def fClass (t : Fmt) (a : Nat) : Nat :=
  match t.decode a with
  | .nan sig => if sig then 0x100 else 0x200
  | .inf n => if n then 0x001 else 0x080
  | .fin n m _ _ =>
    if m = 0 then (if n then 0x008 else 0x010)
    else if m < 2 ^ t.fracBits then (if n then 0x004 else 0x020)
    else (if n then 0x002 else 0x040)

/-! ### Conversions (R88 to R94) -/

/-- Rounding to an integer in a range (R91). `fromInt` marks an integer source, which raises no flag. -/
def roundToInt (lo hi : Int) (mode : RMode) (fromInt : Bool) (v : Val) : Int × Flags × Bool :=
  match v with
  | .nan _ => (0, .invalid, false)
  | .inf n => (if n then lo else hi, .invalid, true)
  | .fin n m e sticky =>
    let r := roundAt mode n m e sticky 0
    let z : Int := if n then -(r.1 : Int) else r.1
    let fl : Flags := if fromInt then .none else .invalid
    if z < lo then (lo, fl, true)
    else if hi < z then (hi, fl, true)
    else (z, if r.2 then .inexact else .none, false)

/-- An integer's code in w bits. -/
def intCode (w : Nat) (z : Int) : Nat := (z % (2 ^ w : Nat)).toNat

/-- Conversion to an integer type of w bits (R91). Left open by the spec: log entry 18 (DEDUCED). -/
def toIntType (signed : Bool) (w : Nat) (mode : RMode) (fromInt : Bool) (v : Val) : Rounded :=
  let lo : Int := if signed then -((2 ^ (w - 1) : Nat) : Int) else 0
  let hi : Int := if signed then ((2 ^ (w - 1) : Nat) : Int) - 1 else ((2 ^ w : Nat) : Int) - 1
  let r := roundToInt lo hi mode fromInt v
  ⟨intCode w r.1, r.2.1, r.2.2⟩

/-- Conversion to E8M0 (R92). The rows of R92 are tried from the top. -/
def toE8m0 (mode : RMode) (v : Val) : Rounded :=
  match v with
  | .nan _ => ⟨0xFF, .invalid, false⟩
  | .inf n => if n then ⟨0xFF, .invalid, false⟩ else ⟨0xFE, .overflow ||| .inexact ||| .invalid, true⟩
  | .fin n m e sticky =>
    if n ∨ (m = 0 ∧ sticky = false) then ⟨0xFF, .invalid, false⟩
    else
      -- as though the format had no fraction bits; a tie goes to the even biased exponent
      let l := Nat.log2 m
      let top : Int := e + l
      let r := m % 2 ^ l
      let inexact := r != 0 || sticky
      let up : Bool :=
        match mode with
        | .rne =>
          let half := 2 ^ (l - 1)
          l != 0 && (decide (half < r) || (r == half && (sticky || (top + 127) % 2 == 1)))
        | .rtz => false
        | .rdn => false
        | .rup => true
        | .rs rb => decide (rb < r * 2 ^ 24 / 2 ^ l)
      let k : Int := if inexact && up then top + 1 else top
      if 127 < k then ⟨0xFE, .overflow ||| .inexact, true⟩
      else if k < -127 then ⟨0x00, .underflow ||| .inexact, false⟩
      else ⟨(k + 127).toNat, if inexact then .inexact else .none, false⟩

/-- The kinds of element a code of R79 stands for. -/
inductive ElemKind where
  | int (signed : Bool)
  | float (t : Fmt)
  | e8m0
  deriving DecidableEq, Repr

def kindOf : ElemType → ElemKind
  | .i8 | .i16 | .i32 | .i4 => .int true
  | .n8 | .n16 | .n32 => .int false
  | .f16 => .float .f16
  | .bf16 => .float .bf16
  | .f32 => .float .f32
  | .e4m3 => .float .e4m3
  | .e5m2 => .float .e5m2
  | .e2m1 => .float .e2m1
  | .sc20 => .float .sc20
  | .e8m0 => .e8m0

/-- The integer a w-bit code stands for. -/
def intOf (signed : Bool) (w : Nat) (code : Nat) : Int :=
  let c := code % 2 ^ w
  if signed && decide (2 ^ (w - 1) ≤ c) then (c : Int) - (2 ^ w : Nat) else c

/-- The value of an element (R74, R78); E8M0 0xFF is a quiet NaN. -/
def elemVal (t : ElemType) (code : Nat) : Val :=
  match kindOf t with
  | .int s => .ofInt (intOf s t.width code)
  | .float f => f.decode code
  | .e8m0 =>
    let c := code % 256
    if c = 255 then .nan false else .fin false 1 ((c : Int) - 127) false

/-- Whether elements of the type are integers. -/
def isIntType (t : ElemType) : Bool :=
  match kindOf t with
  | .int _ => true
  | _ => false

/-- Conversion of a value to an element type (R88 to R92). Left open by the spec: log entry 18 (DEDUCED). -/
def convertTo (dt : ElemType) (mode : RMode) (sat fromInt : Bool) (v : Val) : Rounded :=
  match kindOf dt with
  | .int s => toIntType s dt.width mode fromInt v
  | .float f => roundTo f mode sat v
  | .e8m0 => toE8m0 mode v

/-- Conversion of an element (R88 to R92). Between equal types a NaN raises INVALID as R85 has it, where it signals
(R168). -/
def convertElem (dt st : ElemType) (mode : RMode) (sat : Bool) (code : Nat) : Rounded :=
  let r := convertTo dt mode sat (isIntType st) (elemVal st code)
  match elemVal st code with
  | .nan sig => if dt = st then { r with flags := .inval sig } else r
  | .inf _ | .fin _ _ _ _ => r

/-- The quantising conversion with an SC20 scale (R93): one rounding of the exact quotient.
Left open by the spec: log entry 18 (DEDUCED). -/
def quantise (dt st : ElemType) (mode : RMode) (sat : Bool) (scale code : Nat) : Rounded :=
  let q := divVal (elemVal st code) (Fmt.sc20.decode scale)
  let r := convertTo dt mode sat false q.val
  { r with flags := r.flags ||| q.flags }

/-! ### Summation orders (R98 to R103) -/

/-- The exact sum of values from the left, zero signs as R98 states. -/
def sumVals : List Val → Val
  | [] => .zero false
  | v :: vs => vs.foldl (fun acc w => (addVal false acc w).val) v

/-- RoundTo(f32, rne) of a value. -/
def f32Of (v : Val) : Nat := (roundTo .f32 .rne false v).code

/-- One chain step (R98): RoundTo(f32, rne, acc + g). -/
def chainAdd (acc g : Nat) : Nat := (fAdd .f32 .rne acc g).code

/-- The two chains of R98 over the groups, even ones into E and odd ones into O, and their final sum. -/
def twoChains (old : Nat) (groups : List Nat) : Nat :=
  let r := groups.foldl
    (fun (s : Nat × Nat × Bool) g => if s.2.2 then (s.1, chainAdd s.2.1 g, false) else (chainAdd s.1 g, s.2.1, true))
    (old, 0, false)
  chainAdd r.1 r.2.1

/-- Consecutive runs of g elements. -/
def runsOf {α : Type} (g : Nat) : Nat → List α → List (List α)
  | 0, _ => []
  | n + 1, l => l.take g :: runsOf g n (l.drop g)

/-- MMA's element for float types (R98): 16 groups of g exact products. -/
def mmaElem (ta tb : Fmt) (g old : Nat) (as bs : List Nat) : Nat :=
  let prods := (as.zip bs).map fun p => (mulVal (ta.decode p.1) (tb.decode p.2)).val
  twoChains old ((runsOf g 16 prods).map fun r => f32Of (sumVals r))

/-- MMA's element for integer types (R99). -/
def mmaIntElem (sa sb : Bool) (old : Nat) (as bs : List Nat) : Nat :=
  let z := (as.zip bs).foldl (fun acc p => acc + intOf sa 8 p.1 * intOf sb 8 p.2) (0 : Int)
  intCode 32 (old + z)

/-- A block scale as a value (R100). -/
def scaleVal8 (t : ScaleType) (code : Nat) : Val :=
  match t with
  | .e4m3 => Fmt.e4m3.decode code
  | .e5m2 => Fmt.e5m2.decode code
  | .e8m0 => elemVal .e8m0 code

/-- The contribution of one block (R100): S × sa × sb rounded once. -/
def blockContribution (t : ScaleType) (ta tb : Fmt) (sa sb : Nat) (as bs : List Nat) : Nat :=
  let p := (mulVal (scaleVal8 t sa) (scaleVal8 t sb)).val
  let s := sumVals ((as.zip bs).map fun q => (mulVal (ta.decode q.1) (tb.decode q.2)).val)
  f32Of (mulVal s p).val

/-- MMAS's element (R102): block contributions in the place of R98's groups. -/
def mmasElem (t : ScaleType) (ta tb : Fmt) (old : Nat) (blocks : List (Nat × Nat × List Nat × List Nat)) : Nat :=
  twoChains old (blocks.map fun b => blockContribution t ta tb b.1 b.2.1 b.2.2.1 b.2.2.2)

/-- The two chains of VBDOTS (R101): masked-off lanes are skipped. -/
def vbdotsSum (lanes : List (Option Nat)) : Nat :=
  let r := lanes.foldl
    (fun (s : Nat × Nat × Bool) p =>
      match p with
      | none => (s.1, s.2.1, !s.2.2)
      | some g => if s.2.2 then (s.1, chainAdd s.2.1 g, false) else (chainAdd s.1 g, s.2.1, true))
    (0, 0, false)
  chainAdd r.1 r.2.1

end Sys2Proof.Machine
end

