-- ==== Sys2Proof/Machine/Strand.lean ====
section
/-!
DEFINITION. Strand.lean: the types of what a strand, its handle queues and its crew hold (R11, R16, R49, R50).
-/

namespace Sys2Proof.Machine

/-- The privilege levels of R21. -/
inductive Level where
  | program | supervisor | machine
  deriving DecidableEq, Repr

/-- An item or gate: the strand that appended it, its handle, and its number among the strand's. -/
structure Ref where
  key : StrandKey
  h : HReg
  n : Nat
  deriving DecidableEq, Repr

/-- One access of an item: the lane it serves (0 for a scalar), its virtual or local address, its ASID (none for
a local scratchpad access or a physical one), its home, and whether its leaf has PIN set (R326). -/
structure Access where
  lane : Nat
  va : Word
  asid : Option Nat
  place : Place
  pin : Bool
  deriving DecidableEq, Repr

/-- Where a load binds its value (R186, R190): an x register, the lanes of a v register, or every unmasked lane
from one word (VLDB). -/
inductive LoadDest where
  | x (r : XReg) (sext : Bool)
  | v (r : VReg)
  | all (r : VReg) (m : Word)
  deriving DecidableEq, Repr

/-- A value an access of a load has read. -/
structure Got where
  access : Access
  value : Word
  poison : Bool
  deriving DecidableEq, Repr

/-- A load item (R50): `checked` marks the loads of R185, `pc` the instruction. -/
structure LoadItem where
  dest : LoadDest
  todo : List Access
  bytes : Nat
  got : List Got
  ro : Bool
  checked : Bool
  pc : Word
  order : Order
  scope : Scope
  deriving DecidableEq, Repr

/-- Bytes on their way to one place, inside one aligned word or doubleword, with the poison of the data. -/
structure Piece where
  access : Access
  bytes : List Byte
  poison : Bool
  deriving DecidableEq, Repr

/-- A store item; `written` lists the lanes whose bytes are at their tile already, where the others are still to come
(R68). -/
structure StoreItem where
  pieces : List Piece
  order : Order
  scope : Scope
  written : List Nat := []
  deriving DecidableEq, Repr

/-- The operations of R188. -/
inductive AtomKind where
  | xchg | cas | add | and | or | xor | min | max | minn | maxn | fadd | fmin | fmax | incw | decw
  deriving DecidableEq, Repr

/-- An atomic item (R188): operand b, compare value c, and where the old value goes. -/
structure AtomItem where
  kind : AtomKind
  access : Access
  w64 : Bool
  b : Word
  c : Word
  poison : Bool
  dest : Option XReg
  pc : Word
  order : Order
  scope : Scope
  deriving DecidableEq, Repr

/-- The source of a transfer (R213): scratchpad bytes, lanes read at issue with their poison, or none. -/
inductive SendSrc where
  | tile (a len : Nat)
  | data (lanes : List (Lane × Bool))
  | none
  deriving DecidableEq, Repr

/-- A transfer item; `dst` is a global tile address (R206), `via` the way to it where it is another package's (R365). -/
structure TransferItem where
  src : SendSrc
  dst : Word
  via : Option Via
  order : Order
  scope : Scope
  deriving DecidableEq, Repr

/-- The tag items of R211, at an absolute tile of the core. -/
inductive TagKind where
  | take | mark | pois
  | scale (v : BitVec 20)
  | zero
  deriving DecidableEq, Repr

structure TagItem where
  kind : TagKind
  tile : Nat
  rel : Nat
  scope : Scope
  deriving DecidableEq, Repr

/-- A barrier item (R217): whether it arrives, the bytes it posts, where PHASE goes. -/
structure BarItem where
  bar : Nat
  rel : Nat
  arrive : Bool
  bytes : Option Word
  dest : Option XReg
  scope : Scope
  deriving DecidableEq, Repr

/-- A copy command (R230): the engine, by cluster number, and the slot its ticket names. -/
structure CopyItem where
  engine : Nat
  slot : Nat
  order : Order
  scope : Scope
  deriving DecidableEq, Repr

/-- The ring items of R237. -/
inductive RingFn where
  | put | fwd | acc | rej | mark
  deriving DecidableEq, Repr

/-- A ring item: the ring operand X[B], the way to it where it is another package's (R365), the record, or the local
source and count of RGPUT, whose sample size at issue is then in `lo`. -/
structure RingItem where
  fn : RingFn
  ring : Word
  via : Option Via
  lo : Word
  hi : Word
  src : Nat
  count : Nat
  dest : Option XReg
  order : Order
  scope : Scope
  deriving DecidableEq, Repr

/-- A gate (R66): the items it waits for, and for HRECV the tile (absolute on the core, and crew-relative). -/
structure Gate where
  needs : List Ref
  scope : Scope
  recv : Option (Nat × Nat)
  deriving DecidableEq, Repr

inductive Body where
  | load (i : LoadItem)
  | store (i : StoreItem)
  | atomic (i : AtomItem)
  | transfer (i : TransferItem)
  | tag (i : TagItem)
  | bar (i : BarItem)
  | copy (i : CopyItem)
  | ring (i : RingItem)
  | gate (g : Gate)
  deriving DecidableEq, Repr

/-- Whether an entry is a gate that waits for items only. -/
def Body.isBareGate : Body → Bool
  | .gate g => g.recv.isNone
  | .load _ | .store _ | .atomic _ | .transfer _ | .tag _ | .bar _ | .copy _ | .ring _ => false

/-- An entry of a handle queue (R49). `sent` marks an item whose perform step has been taken and which stays at
the head until it is performed at its own scope (R55). -/
structure Entry where
  n : Nat
  body : Body
  sent : Bool
  deriving DecidableEq, Repr

/-- A pending asynchronous event (R340). -/
structure PendEvent where
  cause : Nat
  addr : Word
  info : Word
  deriving DecidableEq, Repr

/-- A checked load that bound poisoned data (R185): its address and its PC. -/
structure Deferred where
  addr : Word
  pc : Word
  deriving DecidableEq, Repr

/-- What becomes of an instruction whose host page is refused (R186, R223, R334, R411): it traps; a .spec load
gives 0 with poison; SPAWN refuses its record; CPYGO raises ENGINE_FAULT. `fetch` is an instruction fetch. -/
inductive Waiter where
  | plain
  | fetch
  | spec (d : XReg)
  | spawn (d : CReg)
  | copyGo
  deriving DecidableEq, Repr

/-- An access held at issue: its address, its lane, and what becomes of its instruction. -/
structure Held where
  addr : Word
  lane : Nat
  waiter : Waiter
  deriving DecidableEq, Repr

/-- What a strand waits for (R29). The first group, down to `controller`, ends in a new issue of the instruction; the
second ends in WAIT_END, which completes it. `vote` is the wait of SPAWN for the vote of its ballot number `n`, and
`record` that for its record, at address `a` of another package (R223). `seen` is the state of the tile that ended a
wait for it, and for a barrier whether the poison ended it: a condition that has held is not lost (R30). -/
inductive Wait where
  | regs (xs : List XReg) (vs : List VReg)
  | queue (h : HReg) (room : Nat)
  | items (refs : List Ref) (scope : Scope)
  | engineSlots
  | walk (k : WalkKey) (a : Held)
  | hostPage (k : PageKey) (a : Held)
  | ats (k : PageKey) (a : Held)
  | voteBuffer (a : Nat)
  | vote (n : Nat)
  | record (via : Via) (a : Nat) (va : Word) (d : CReg) (h : HReg) (scope : Scope)
  | matrix (accs : List Nat)
  | ringUnit (via : Via) (fn : Nat) (ring : Word) (d : XReg) (d2 : Option XReg) (dst : Option (Nat × Nat × Nat))
      (scope : Scope)
  | ringPage (n : Nat) (k : PageKey) (ats : Bool)
  | controller (n : Nat)
  | tile (c : CReg) (tile rel : Nat) (scope : Scope) (seen : Option (BitVec 2))
  | take (tile rel : Nat) (scope : Scope) (h : HReg) (seen : Option (BitVec 2))
  | barrier (bar rel : Nat) (phase : BitVec 16) (scope : Scope) (seen : Option Bool)
  | handles (refs : List Ref) (h : Option HReg) (scope : Scope) (acquire : Bool)
  | removal (id : Nat)
  | candidate (d : XReg) (ring : Word) (scope : Scope)
  | event (park changed : Bool) (start : Word) (limit : Option Nat)
  deriving DecidableEq, Repr

/-- A SPAWN that a trap has taken out of its wait for the vote: its PC, the number of its ballot, and what the vote has
returned since (R42, R185, R340). -/
structure Parted where
  pc : Word
  n : Nat
  result : Option Word
  deriving DecidableEq, Repr

/-- The identity registers of R16, as assigned at placement. -/
structure Ids where
  strandId : Word
  crewId : Word
  crewSize : Word
  launchId : Word
  slotId : Word
  coreId : Word
  clusterId : Word
  dieId : Word
  nodeId : Word
  partId : Word
  tileBase : Word
  tileCount : Word
  barBase : Word
  barCount : Word
  accCount : Word
  deriving DecidableEq, Repr

/-- The state of a strand (R11, R16, R323, R340). `secure` is its world (R22); `live` falls at EXIT (R32), and the
queues go on performing. `appended` numbers its items; `counted` says that the instruction it waits in has been counted
in ISSUED (R18). `asked` lists the registers that wait for an answer of a power controller, with the system register
read (R380). `parted` is a SPAWN in its vote that a trap has cut. TRAP_VEC and TRAP_SCRATCH here are Insole's own
(R409). -/
structure Strand where
  key : StrandKey
  ids : Ids
  x : Vector Word 64
  xp : BitVec 64
  c : BitVec 8
  k : Vector Word 8
  v : Vector (Vector Lane 64) 32
  vp : Vector (BitVec 64) 32
  pc : Word
  level : Level
  secure : Bool
  issued : Word
  fpflags : BitVec 5
  fpmode : BitVec 3
  spawnCause : BitVec 4
  spawnErr : Bool
  trapCause : Word
  trapPc : Word
  trapAddr : Word
  trapInfo : Word
  trapVec : Word
  trapScratch : Word
  prev : BitVec 2
  async : Bool
  inHandler : Bool
  ovf : Bool
  asid : BitVec 16
  queues : Vector (List Entry) 8
  events : List PendEvent
  deferred : List Deferred
  asked : List (XReg × Nat)
  wait : Option Wait
  parted : Option Parted
  counted : Bool
  appended : Nat
  live : Bool
  deriving DecidableEq, Repr

/-- An accumulator tile (R11): element (m, n) at 32m + n, with its poison. -/
structure ZTile where
  e : Vector Lane 1024
  p : BitVec 1024
  deriving DecidableEq, Repr

/-- A tile tag (R210, R206). -/
structure Tag where
  state : BitVec 2
  xexp : BitVec 6
  xdone : BitVec 6
  overrun : Bool
  scale : BitVec 20
  notify : Word
  deriving DecidableEq, Repr

/-- STATE codes of a tag (R210). -/
def Tag.empty : BitVec 2 := 0
def Tag.filling : BitVec 2 := 1
def Tag.full : BitVec 2 := 2
def Tag.poison : BitVec 2 := 3

/-- A tag as placement leaves it (R14). Left open by the spec: log entry 5 (DESIGN CHOICE). -/
def Tag.clear : Tag := ⟨Tag.empty, 0, 0, false, 0, 0⟩

/-- A barrier (R63, R344): the two counters are signed. -/
structure Barrier where
  phase : BitVec 16
  expect : BitVec 7
  arrived : BitVec 7
  poison : Bool
  cur : Int
  next : Int
  deriving DecidableEq, Repr

/-- Left open by the spec: log entry 5 (DESIGN CHOICE). -/
def Barrier.clear : Barrier := ⟨0, 0, 0, false, 0, 0⟩

end Sys2Proof.Machine
end

