-- ==== Sys2Proof/Machine/Mem.lean ====
section
/-!
DEFINITION. Mem.lean: memory as the list of its bytes that are not 0, in rising address order, with the list of
its poisoned aligned 4-byte words (R49, R184, R391, R402).
-/

namespace Sys2Proof.Machine

/-- Bytes of one memory: the cells that differ from 0, addresses rising; and the numbers (address / 4) of the
poisoned words, rising. -/
structure Mem where
  cells : List Host.Cell
  poison : List Nat
  deriving DecidableEq, Repr

def Mem.empty : Mem := ⟨[], []⟩

/-- What an address with no cell reads as (R402 for HBM; a choice of the model elsewhere).
Left open by the spec: log entry 6 (DESIGN CHOICE). -/
def Mem.unlisted : Byte := 0

def cellsRead (a : Nat) : List Host.Cell → Byte
  | [] => Mem.unlisted
  | c :: cs => if c.1 = a then c.2 else cellsRead a cs

def cellsWrite (a : Nat) (b : Byte) : List Host.Cell → List Host.Cell
  | [] => if b = Mem.unlisted then [] else [(a, b)]
  | c :: cs =>
    if a < c.1 then (if b = Mem.unlisted then c :: cs else (a, b) :: c :: cs)
    else if a = c.1 then (if b = Mem.unlisted then cs else (a, b) :: cs)
    else c :: cellsWrite a b cs

/-- Insertion into a rising list of numbers. -/
def natsInsert (n : Nat) : List Nat → List Nat
  | [] => [n]
  | m :: ms => if n < m then n :: m :: ms else if n = m then m :: ms else m :: natsInsert n ms

/-- One byte of memory. Left open by the spec: log entry 6 (DESIGN CHOICE). -/
def Mem.read (m : Mem) (a : Nat) : Byte := cellsRead a m.cells

/-- A write of one byte, poison aside. -/
def Mem.write (m : Mem) (a : Nat) (b : Byte) : Mem := { m with cells := cellsWrite a b m.cells }

/-- The bytes at `a`, `a` + 1, … -/
def Mem.readBytes (m : Mem) (a : Nat) : Nat → List Byte
  | 0 => []
  | n + 1 => m.read a :: m.readBytes (a + 1) n

/-- `n` bytes as a little-endian value (R4). -/
def Mem.readWord (m : Mem) (a n : Nat) : Word := wordOfBytes (m.readBytes a n)

def Mem.writeBytes (m : Mem) (a : Nat) : List Byte → Mem
  | [] => m
  | b :: bs => (m.write a b).writeBytes (a + 1) bs

/-- Whether the aligned word `w` (address / 4) is poisoned. -/
def Mem.wordPoisoned (m : Mem) (w : Nat) : Bool := m.poison.contains w

/-- Whether any byte of `n` at `a` lies in a poisoned word (R184). -/
def Mem.poisoned (m : Mem) (a n : Nat) : Bool :=
  (List.range (((a + n + 3) / 4) - a / 4)).any fun i => m.wordPoisoned (a / 4 + i)

def Mem.setPoison (m : Mem) (w : Nat) (p : Bool) : Mem :=
  { m with poison := if p then natsInsert w m.poison else m.poison.filter (· != w) }

/-- The poison of a write of `n` bytes at `a` (R184): a whole word takes the data's poison; a part of a word joins
it. -/
def Mem.mergePoison (m : Mem) (a n : Nat) (p : Bool) : Mem :=
  (List.range (((a + n + 3) / 4) - a / 4)).foldl
    (fun m i =>
      let w := a / 4 + i
      if a ≤ 4 * w ∧ 4 * w + 4 ≤ a + n then m.setPoison w p
      else if p then m.setPoison w true else m)
    m

/-- A store of bytes with the poison of the data (R184). -/
def Mem.store (m : Mem) (a : Nat) (bs : List Byte) (p : Bool) : Mem :=
  (m.writeBytes a bs).mergePoison a bs.length p

/-- Zero bytes with poison clear over `n` bytes at `a`, a multiple of 4. -/
def Mem.zero (m : Mem) (a n : Nat) : Mem :=
  ⟨m.cells.filter fun c => decide (c.1 < a) || decide (a + n ≤ c.1),
   m.poison.filter fun w => decide (4 * w < a) || decide (a + n ≤ 4 * w)⟩

def cellsWf : List Host.Cell → Bool
  | [] => true
  | [c] => c.2 != Mem.unlisted
  | c :: d :: cs => c.2 != Mem.unlisted && decide (c.1 < d.1) && cellsWf (d :: cs)

def natsWf : List Nat → Bool
  | [] => true
  | [_] => true
  | n :: m :: ms => decide (n < m) && natsWf (m :: ms)

/-- The canonical form: addresses strictly rising, no cell equal to what an unlisted address reads as, poisoned
words strictly rising. -/
def Mem.wf (m : Mem) : Bool := cellsWf m.cells && natsWf m.poison

/-! ### Finite maps in rising key order, with a default for absent keys -/

def mapGet {α : Type} (d : α) (k : Nat) : List (Nat × α) → α
  | [] => d
  | e :: es => if e.1 = k then e.2 else mapGet d k es

def mapSet {α : Type} [DecidableEq α] (d : α) (k : Nat) (v : α) : List (Nat × α) → List (Nat × α)
  | [] => if v = d then [] else [(k, v)]
  | e :: es =>
    if k < e.1 then (if v = d then e :: es else (k, v) :: e :: es)
    else if k = e.1 then (if v = d then es else (k, v) :: es)
    else e :: mapSet d k v es

end Sys2Proof.Machine
end

