-- ==== Sys2Proof/Machine/Package.lean ====
section
/-!
DEFINITION. Package.lean: the types of what the package holds beyond its strands: crews and launches (01, 15),
copies, uplinks, fabric sets, transfers in flight and votes (02, 20), translations (16, 18), copy jobs (09, 11),
ring units (10), Preath ports and the hot-page tracker (17), bring-up and attestation (21), and what the package
sends to the outside.
-/

namespace Sys2Proof.Machine

/-! ### Crews and launches -/

/-- The fields of a launch record (R23), and its 64 bytes. -/
structure LaunchRec where
  entry : Word
  args : Word
  crews : Nat
  strands : Nat
  barriers : Nat
  tiles : Nat
  accums : Nat
  prio : Nat
  voted : Bool
  coreBound : Bool
  serial : Bool
  notifyHost : Bool
  stack : Nat
  waitAddr : Word
  waitValue : Word
  doneAddr : Word
  asid : Nat
  hint : BitVec 12
  dies : BitVec 8
  raw : List Byte
  deriving DecidableEq, Repr

/-- An accepted launch (R17, R26, R306). `queue` is bits 15:0 of its LAUNCH_ID. `placed` crews have been placed,
`retired` of those have retired. `gate` is the gate of R27. `waited` says that its wait counter has held
(R28). `level`, `reserve` are the effective level (R310) and the order of its reservation (R311); `quantum` says
that it has waited a quantum (R313); `die` is that of the crew that retired last, through whose ATC DONE_ADDR is reached
(R376), 8 before that. -/
structure Launch where
  uid : Nat
  queue : Nat
  seq : Nat
  part : Nat
  record : LaunchRec
  gate : Option Gate
  waited : Bool
  placed : Nat
  retired : Nat
  level : Nat
  reserve : Option Nat
  quantum : Bool
  dropped : Bool
  finished : Bool
  die : Nat
  deriving DecidableEq, Repr

/-- Where a crew is (R35, R318, R346): on its core; leaving its core to be pre-empted, or to be frozen; in a
slot of the save area; gone: discarded, its items performing; or retired (R32), kept for the events of its last
items. -/
inductive CrewWhere where
  | placed
  | evicting
  | freezing
  | saved (slot : Nat)
  | frozen (slot : Nat)
  | gone
  | retired
  deriving DecidableEq, Repr

/-- What the model keeps of a strand whose crew is out, beside its image: its index, its item count, whether it is live,
its deferred POISON, its SPAWN that a trap has cut, and in a frozen crew what its queues hold behind closed gates
(R216). -/
structure StrandOut where
  idx : Nat
  appended : Nat
  live : Bool
  deferred : List Deferred
  queues : Vector (List Entry) 8
  parted : Option Parted
  deriving DecidableEq, Repr

/-- A crew (R9, R10): its launch and index in it, the copy of a voted crew, its core, strand slots and ranges,
its stack slots, its accumulator tiles and layout entries (R225). `keep` says that its core's slots stay
reserved while it is out, and `armed` that it has armed a tile with a non-zero NOTIFY (R36); `order` is the order of its
last placement, and `since` its core's CYCLES at its last placement or restore (R313). -/
structure Crew where
  uid : Nat
  launch : Nat
  index : Nat
  copy : Nat
  voted : Bool
  part : Nat
  core : Nat
  slots : List Nat
  tileBase : Nat
  tileCount : Nat
  barBase : Nat
  barCount : Nat
  accCount : Nat
  size : Nat
  stackBlocks : List Nat
  z : Vector ZTile 8
  layouts : List (List Byte)
  place : CrewWhere
  keep : Bool
  armed : Bool
  placedLevel : Nat
  order : Nat
  since : Word
  out : List StrandOut
  deriving DecidableEq, Repr

/-- What the dispatcher of a partition holds beside its registers (R26, R311, R316, R321): the sequence number
of its next spawn record, the queue of its rotation and the crews placed in this visit, whether events were
lost since the last record, and the counts of a tear-down in progress. -/
structure Dispatcher where
  spawnSeq : Nat
  turn : Nat
  visit : Nat
  lost : Bool
  tearing : Bool
  hostDiscards : Nat
  spawnDiscards : Nat
  stopped : Nat
  deriving DecidableEq, Repr

def Dispatcher.start : Dispatcher := ⟨0, 0, 0, false, false, 0, 0, 0⟩

/-! ### Copies, uplinks, fabric and transfers (R49) -/

/-- A copy of a 64-byte line of global memory; the address of the line is a multiple of 64. -/
structure LineCopy where
  owner : CopySet
  line : Place
  bytes : List Byte
  poison : List Bool
  deriving DecidableEq, Repr

/-- What the items of the three copies of a voted crew have in common (R42, R394): launch, crew index, strand
index, item number, and the lane or line of the item that is voted. For a crew of another package: its node, its
partition, 2^32 + the kind of packet, and the tag of the vote word. -/
structure VoteTag where
  launch : Nat
  crew : Nat
  strand : Nat
  n : Nat
  part : Nat
  deriving DecidableEq, Repr

/-- A store entry on its way to homes (R56): its item, its cluster, its pieces in the order they apply, its vote,
and the scope and order of its item. `whole` gives all the bytes of its item, which is performed as one (R55). -/
structure UpEntry where
  ref : Ref
  cluster : Nat
  pieces : List Piece
  whole : List (Access × Nat)
  vote : Option VoteTag
  order : Order
  scope : Scope
  deriving DecidableEq, Repr

/-- A head delivery on its way (R260, R261): its ring, whether it goes to tile B, and the samples that were skipped
before it. -/
structure RingMark where
  ring : Nat
  isB : Bool
  skipped : Nat
  deriving DecidableEq, Repr

/-- A transfer in the bag (R65): its items (those of the copies of a voted crew), the strand that learns of a refusal,
its destination and the way to it, its bytes, the poison of their words; `source` is the partition that learns of a
refusal when no strand does; `ring` marks a head delivery (R260) of that ring, with its tile A or B, its first block and
its samples; `order` and `scope` are its item's. -/
structure BagEntry where
  id : Nat
  refs : List Ref
  sender : Option StrandKey
  dst : Word
  via : Option Via
  bytes : List Byte
  poison : List Bool
  source : Nat
  secure : Bool
  ring : Option RingMark
  vote : Option VoteTag
  order : Order
  scope : Scope
  deriving DecidableEq, Repr

/-! ### Votes (R42, R43, R394, R395) -/

/-- What a copy brings to the voter: an item of a queue, one entry of a store, a spawn record, or a packet of a copy
on another package. -/
inductive Ballot where
  | item (b : Body)
  | entry (e : UpEntry)
  | spawn (bytes : List Byte) (a : Word) (d : CReg) (h : HReg) (scope : Scope)
  | packet (bs : List Byte)
  deriving DecidableEq, Repr

/-- A copy's ballot that has arrived, with its copy number, core and strand. -/
structure Arrival where
  copy : Nat
  core : Nat
  key : StrandKey
  ballot : Ballot
  deriving DecidableEq, Repr

/-- A vote: arrivals, whether the item has been performed, the value it returned with the poison of its words;
`closed` names the copies that had not arrived when its window closed (R395). -/
structure Vote where
  tag : VoteTag
  arrivals : List Arrival
  performed : Bool
  result : Word
  mask : Word
  closed : Option (List Nat)
  deriving DecidableEq, Repr

/-- A voted item, or the part of it that its tag names, on its way to another package (R394): its number there, which no
other in flight to the node has, the earlier writes that it counts where it is a release (R67), and the copies that have
been sent. -/
structure FarVote where
  node : Nat
  tag : VoteTag
  number : Nat
  count : Nat
  sent : List Nat
  deriving DecidableEq, Repr

/-- The marker of a release that a node has announced (R67): the request tag of the release, how many copies of the
marker have arrived, and how many were sent. -/
structure Marker where
  node : Nat
  release : Nat
  arrived : Nat
  copies : Nat
  deriving DecidableEq, Repr

/-- The packets of a transfer that have come from a node, which lands when all of its bytes are there (R65): the number
that the node gave it, the tile address of its first byte, and its pieces, each with its place in the transfer and its
poison. -/
structure Arriving where
  node : Nat
  number : Nat
  base : Word
  pieces : List (Nat × List Byte × List Bool)
  deriving DecidableEq, Repr

/-- A vote-buffer entry (R43): the value a voted load read at its home with the poison of its words, and the copies yet
to claim it. -/
structure VoteBuf where
  tag : VoteTag
  home : Place
  value : Word
  mask : Word
  waiting : List Nat
  deriving DecidableEq, Repr

/-! ### Translation (16, 18) -/

/-- A leaf that a unit's caches hold (R330): the page's first address and size, and the leaf entry.
Left open by the spec: log entry 27 (DESIGN CHOICE). -/
structure Leaf where
  unit : Nat
  asid : Nat
  va : Nat
  size : Nat
  entry : Word
  deriving DecidableEq, Repr

/-- An upper-level entry in the walk cache of a die (R330): the table of level 2 or 3 for the addresses from `va`. -/
structure Upper where
  die : Nat
  asid : Nat
  level : Nat
  va : Nat
  table : Nat
  deriving DecidableEq, Repr

/-- An entry of a die's ATC (R333); the dispatchers' die is 8. -/
structure AtcEntry where
  die : Nat
  pasid : Nat
  va : Nat
  size : Nat
  frame : Nat
  read : Bool
  write : Bool
  exec : Bool
  deriving DecidableEq, Repr

/-- An access of a unit, an engine, a ring or a dispatcher, that the host's answer concerns: its unit, and whose it is
there, by a number: a job, a launch, a crew; 0 for a ring. Left open by the spec: log entry 27 (DESIGN CHOICE). -/
structure Asker where
  unit : Nat
  job : Nat
  deriving DecidableEq, Repr

/-- A Translation Request that is outstanding, with the privilege it asks for (R333, R335), and the accesses of units
that wait on it, with their kinds. -/
structure AtsReq where
  key : PageKey
  priv : Bool
  units : List (PageKind × Asker)
  deriving DecidableEq, Repr

/-- A page request (R334): whether it has been sent, and the accesses of units that wait on it. -/
structure PageReq where
  key : PageKey
  fn : Nat
  sent : Bool
  units : List Asker
  deriving DecidableEq, Repr

/-- A host page that has been refused to an access of a unit which is still to find it so (R334, R373), with the code of
the refusal. -/
structure PageRefusal where
  key : PageKey
  by_ : Asker
  code : Nat
  deriving DecidableEq, Repr

/-- What a removal of translations names (R332): one page of an ASID, an ASID, or every ASID of a partition. -/
inductive Removed where
  | page (asid : Nat) (va : Word)
  | space (asid : Nat)
  | all (part : Nat)
  deriving DecidableEq, Repr

/-- A removal of translations whose accesses are awaited (R159, R325, R335): the items and the jobs (engine,
slot) that used them. `by_` is the strand whose TLBI it is and what it names, `xlinv` one by XLINV, `itag` one by an ATS
Invalidate Request. -/
structure Removal where
  id : Nat
  refs : List Ref
  jobs : List (Nat × Nat)
  by_ : Option (StrandKey × Removed)
  xlinv : Bool
  itag : Option Nat
  deriving DecidableEq, Repr

/-! ### Copy engines (09, 11) -/

/-- A layout entry (R226): four extents, the strides of dimensions 1 to 3. -/
structure Layout where
  base : Word
  space : Nat
  type : Nat
  rank : Nat
  bankXor : Nat
  extent : List Nat
  stride : List Int
  deriving DecidableEq, Repr

/-- A copy command block (R229). -/
structure Block where
  op : Nat
  transpose : Bool
  edgeZero : Bool
  status : Bool
  bulkRow : Bool
  srcLay : Nat
  dstLay : Nat
  srcType : Nat
  dstType : Nat
  round : Nat
  srcCoord : List Int
  dstCoord : List Int
  box : List Nat
  fill : Nat
  scale : Nat
  doneKind : Nat
  doneSel : Nat
  donePhase : Nat
  doneAddr : Word
  deriving DecidableEq, Repr

/-- The life of a job (R233, R273): its copy command not yet performed, queued, running, done, faulted, aborted. -/
inductive JobState where
  | awaited | queued | running | done | faulted | aborted
  deriving DecidableEq, Repr

/-- A job in a slot of the engine of a cluster (R230). `crews` are the crews whose scratchpad it acts on: one, or the
copies of a voted crew. `blockAddr` is the crew-relative address of its block. `performed` lists the indices of
element operations performed; `wrote` the tiles written (256 × core + tile). `fault` holds the cause and address of
the first fault; `abort` says that the job is to end aborted. `doneAt` is the checked DONE_ADDR (R411). `keep` is the
ring and claim of a keep-copy, whose block names the first sample in SRC_COORD[0] and their number in BOX[0], and
whose `sat` and `edge` count its poisoned and its truncated samples. `leader` is the job that a voted copy's slot
stands for. -/
structure Job where
  engine : Nat
  slot : Nat
  seq : BitVec 32
  owner : StrandKey
  h : HReg
  crews : List Nat
  part : Nat
  asid : Nat
  level : Level
  block : Block
  src : Layout
  dst : Layout
  blockAddr : Nat
  state : JobState
  performed : List Nat
  sat : Nat
  edge : Nat
  wrote : List Nat
  fault : Option (Nat × Word)
  abort : Bool
  doneAt : Option Access
  bank : Bool
  keep : Option (Nat × Nat)
  leader : Option (Nat × Nat)
  deriving DecidableEq, Repr

/-- A DRAM bank reservation of a stack (R282): its engine and handle, and the slot of the job that uses it. -/
structure Bank where
  stack : Nat
  engine : Nat
  owner : StrandKey
  h : HReg
  job : Option Nat
  deriving DecidableEq, Repr

/-! ### Ring units (10) -/

/-- A candidate record (R236): bits 63:0 and 127:64. -/
structure Cand where
  lo : Word
  hi : Word
  deriving DecidableEq, Repr

/-- A hold on a taken candidate (R239), with its crew and the level it was taken at. -/
structure Hold where
  cand : Cand
  part : Nat
  crew : Nat
  level : Nat
  deriving DecidableEq, Repr

/-- An open claim (R262 to R268): its range, the next sample to copy, the ranges beyond it that the keep area holds
already (`skip`), its accepting candidates with the order of their acceptance, its data offset. `busy` says that a
keep-copy job runs for it, `dead` that a fault ended its copying. -/
structure Claim where
  id : Nat
  first : Nat
  last : Nat
  next : Nat
  skip : List (Nat × Nat)
  accs : List (Nat × Nat)
  joined : Bool
  late : Bool
  lost : Nat
  truncated : Nat
  poisoned : Nat
  super : Option Nat
  group : Bool
  offset : Nat
  busy : Bool
  dead : Bool
  deriving DecidableEq, Repr

/-- A closed claim (R264): its range, its SEQ, its poisoned and truncated samples. -/
structure Closed where
  first : Nat
  last : Nat
  seq : Nat
  poisoned : Nat
  truncated : Nat
  deriving DecidableEq, Repr

/-- A sample on its way to its place (R252): stored bytes and poison; or a gap of zero samples (R251). `origin` is
the number of its frame, for the reference pair. -/
inductive Pending where
  | sample (bytes : List Byte) (poison : Bool)
  | gap (n : Nat) (reason : Nat)
  deriving DecidableEq, Repr

/-- Delivery blocks that HEAD has passed (R260): the first, how many, and whether their tile was vacant then. -/
structure Due where
  block : Nat
  count : Nat
  send : Bool
  deriving DecidableEq, Repr

/-- The unit of an enabled ring: what R246, R247, R255 to R272 give it beside its registers. Lists of four run over
the levels. `stopping` says that RING_ENABLE or RING_DISABLE is to follow the write of EN. `expected` is the index
after the last pending sample; `reason` the drop seen since the last gap (R271); `colour`, `period` the configuration
read from the ring block at enable. `block` is the block that HEAD lies in, `due` the blocks to settle, and `recent`
their samples, by index (R260). -/
structure RingUnit where
  owner : StrandKey
  stopping : Bool
  start : Nat
  started : Bool
  queues : List (List Cand)
  holds : List Hold
  replay : List (List Cand)
  claims : List Claim
  closed : List Closed
  split : Nat
  seq : Nat
  vacA : Bool
  vacB : Bool
  block : Nat
  due : List Due
  recent : List (Nat × (List Byte × Bool))
  skipped : Nat
  sref : Nat
  tref : Word
  timed : Bool
  seedUntil : Option Nat
  pending : List Pending
  expected : Nat
  reason : Nat
  colour : List Nat
  period : Word
  deriving DecidableEq, Repr

/-- The unit of a ring whose EN a strand has just set. -/
def RingUnit.fresh (k : StrandKey) : RingUnit where
  owner := k
  stopping := true
  start := 0
  started := false
  queues := [[], [], [], []]
  holds := []
  replay := [[], [], [], []]
  claims := []
  closed := []
  split := 0
  seq := 0
  vacA := true
  vacB := true
  block := 0
  due := []
  recent := []
  skipped := 0
  sref := 0
  tref := 0
  timed := false
  seedUntil := none
  pending := []
  expected := 0
  reason := 2
  colour := []
  period := 0

/-! ### The rest of the package -/

/-- The own addresses of a Clicker port (R248): MAC, IPv4 and IPv6. -/
structure PortAddress where
  mac : Nat
  ip4 : Nat
  ip6 : Nat
  deriving DecidableEq, Repr

/-- A Preath port (R363): failed replays in a row of the packet at its head, whether a lane is out, and whether the far
end has failed as many replays of a packet sent from here. -/
structure LinkPort where
  fails : Nat
  laneOut : Bool
  peer : Bool
  deriving DecidableEq, Repr

/-- A page of the hot-page tracker (R370, R371). -/
structure HotPage where
  page : Nat
  count : Nat
  asid : Nat
  pinned : Bool
  deriving DecidableEq, Repr

/-- What was written to a power controller and is not yet evaluated (R380). -/
structure Pulse where
  save : Bool
  restore : Bool
  rise : Bool
  deriving DecidableEq, Repr

def Pulse.none : Pulse := ⟨false, false, false⟩

/-- Bring-up and attestation (R402, R405, R406): the step under way (0 before power-up, 9 in service), the parts of
that step that have finished, recovery, the image that was written to flash since, the measurement registers, whether
Insole's processor has halted (R409), where Nyset has set the secure image area
(R384), its first byte and its size, how far an SPDM connection has come, and what its messages up to the algorithms,
since then, and of measurements are. -/
structure Boot where
  step : Nat
  settled : List BringPart
  recovery : Bool
  image : Option (List Byte)
  m1 : List Byte
  m2 : List Byte
  m3 : List Byte
  halted : Bool
  area : Option (Nat × Nat)
  spdm : Nat
  vca : List Byte
  chain : List Byte
  meas : List Byte
  deriving DecidableEq, Repr

/-- Left open by the spec: log entry 4 (DESIGN CHOICE). -/
def Boot.off : Boot :=
  ⟨0, [], false, none, List.replicate 64 0, List.replicate 64 0, List.replicate 64 0, false, none, 0, [], [], []⟩

/-- What a cache may give up at any moment (R331, R333): a leaf of a unit, a table of a die's walk cache, an entry of a
die's ATC. -/
inductive Cached where
  | leaf (k : WalkKey)
  | table (die asid level : Nat) (va : Word)
  | atc (die pasid : Nat) (va : Word)
  deriving DecidableEq, Repr

/-- A soft error (R390): in a register or an accumulator tile of a strand's core; in a word of a tile, or at a home in
device memory, with the partition whose access met it; in a copy of a line, which a core's read-only path or a cluster
station holds; in a leaf of a TLB, a table of a walk cache or an entry of an ATC; or in an engine.
Left open by the spec: log entry 40 (DESIGN CHOICE). -/
inductive Upset where
  | x (k : StrandKey) (r : XReg)
  | v (k : StrandKey) (r : VReg) (lane : Nat)
  | acc (crew z elem : Nat)
  | tile (a part : Nat)
  | dev (a part : Nat)
  | copy (o : CopySet) (line : Place)
  | cached (c : Cached)
  | engine (cluster : Nat)
  deriving DecidableEq, Repr

/-- How a host request completes (R300, R304). -/
inductive Completion where
  | success | unsupported | retry | abort
  deriving DecidableEq, Repr

/-- The attributes of a Memory Write (R374): Relaxed Ordering, ID-Based Ordering, and whether its address is
translated. -/
structure WriteAttr where
  relaxed : Bool
  idBased : Bool
  translated : Bool
  deriving DecidableEq, Repr

/-- The attributes of a write at a translated address, and at a bus address (R316, R374). -/
def WriteAttr.atPage : WriteAttr := ⟨false, false, true⟩
def WriteAttr.atBus : WriteAttr := ⟨false, false, false⟩

/-- What the package sends to the outside. Left open by the spec: log entry 1 (DESIGN CHOICE). -/
inductive Out where
  | msix (fn vec : Nat)
  | completion (c : Completion)
  | data (bs : List Byte) (ep : Bool)
  | memWrite (attr : WriteAttr) (runs : List (Nat × List Byte)) (ep : Bool)
  | atomicOp (a : Nat) (kind : AtomKind) (w64 : Bool) (b c : Word)
  | translation (k : PageKey) (pasid : Nat) (priv : Bool)
  | pageRequest (k : PageKey) (pasid : Nat)
  | invalidated (itag : Nat)
  | packet (node : Nat) (bs : List Byte)
  | spdm (bs : List Byte)
  | cxlConfig (port off : Nat) (w : BitVec 32)
  deriving DecidableEq, Repr

end Sys2Proof.Machine
end

