-- ==== Sys2Proof/Machine/State.lean ====
section
/-!
DEFINITION. State.lean: the machine state, its value before the 48 V input rises (R402), and the reasons a step
can stop. `me` is the strand whose instruction a step executes; the others stand in `others`.
-/

namespace Sys2Proof.Machine

/-- Why the machine stops. -/
inductive Fault where
  /-- Raised by a step of the machine (R52) that the agenda names while the rules do not enable it. Safe: the
  hardware takes only enabled steps, so no run of it is lost. -/
  | notEnabled
  deriving DecidableEq, Repr

/-- Why an instruction has no meaning. -/
inductive Refusal where
  /-- Raised by an arm of `exec` whose instruction is not modelled. Safe. -/
  | notModelled (mnemonic : String)
  deriving DecidableEq, Repr

/-- One choice of the agenda: the next issue of a strand; a step of the machine; a write of host memory by the host
itself, whose data may be poisoned (R390); the driver enabling PRI of a function again (R334), or granting it page
request groups; Insole setting the world of a host function (R356); a soft error (R390); the driver setting the
addresses of a Clicker port (R248); the package at the far end of a Preath port failing the eighth replay of a packet
sent from here (R363); a host read of BAR 2 (R304); a translation or an ATC entry that its cache gives up (R331, R376);
an expander's answer to a configuration read (R368); a Nyset image written to the flash (R405).
Left open by the spec: log entry 1 (DESIGN CHOICE), log entry 2 (DESIGN CHOICE), log entry 42 (DESIGN CHOICE). -/
inductive Input where
  | issue (k : StrandKey)
  | event (i : Instr)
  | hostWrite (a : Nat) (bs : List Byte) (poison : Bool)
  | priEnable (fn : Nat)
  | priLimit (fn n : Nat)
  | fnWorld (fn : Nat) (secure : Bool)
  | upset (u : Upset) (corrected : Bool)
  | portAddress (k : Nat) (mac ip4 ip6 : Nat)
  | linkPeer (p : Nat)
  | bar2Read (n : Nat)
  | forget (c : Cached)
  | cxlAnswer (port off : Nat) (w : BitVec 32)
  | flash (bs : List Byte)
  deriving DecidableEq, Repr

/-- The machine. Maps are lists in rising key order without the entries that hold their default: `bar0` by offset in
BAR 0, `ringRegs` and `cpRegs` by system register number, `cycles` by core, `seqs` by cluster, `tags` and `bars` by
256 × core + tile and 128 × core + barrier, `layers` by 16 × stack + range (R399), `posted` by queue (the 72 bytes of
its window), `unmatched` by Clicker port. Clusters are numbered 12 × die + cluster, Insole's 96; Insole's core is
1,536. `matrix` lists the matrix instructions issued and not completed: core, crew, accumulator. `tagsSeen` holds the
nodes and request tags received (R367); `writesTo` and `writesFrom` count, by node, the writes sent to a package and
those received from it that have been written (R67). `fnSecure` lists the secure host functions (R356); `turns` gives
by core the slot that issued last (R29); `walks` lists the walks asked for, oldest first (R330); `repairs` gives by
cluster the SRAM repair map it was restored with (R401); `farVotes` lists the voted items on their way to other packages
(R394), `markersFrom` the markers of releases that are still to come (R67), `arriving` the transfers from other packages
that are not there whole (R65); `ports` holds by Clicker port its own MAC, IPv4 and IPv6 addresses (R248); `railHeld`
names the controllers whose rail has failed while EN stayed 1 (R386); `releasing` gives the clusters on their way back
and how far each is (R351): 1 evicting, 2 draining, 3 scrubbing. `remoteRings` names the tiles (256 × core + tile)
that a ring of another package delivers to, with its node (R293). -/
structure State where
  me : Strand
  others : List Strand
  crews : List Crew
  launches : List Launch
  dispatchers : List (Nat × Dispatcher)
  dev : Mem
  host : Mem
  tiles : Mem
  tags : List (Nat × Tag)
  bars : List (Nat × Barrier)
  copies : List LineCopy
  uplinks : List UpEntry
  fabric : List UpEntry
  bag : List BagEntry
  votes : List Vote
  voteBufs : List VoteBuf
  matrix : List (Nat × Nat × Nat)
  cycles : List (Nat × Word)
  turns : List (Nat × Nat)
  tlb : List Leaf
  upper : List Upper
  walks : List WalkKey
  atc : List AtcEntry
  ats : List AtsReq
  pri : List PageReq
  priStopped : List Nat
  priLimits : List (Nat × Nat)
  pageFailed : List PageRefusal
  removals : List Removal
  jobs : List Job
  seqs : List (Nat × BitVec 32)
  banks : List Bank
  rings : List (Nat × RingUnit)
  remoteRings : List (Nat × Nat)
  fnSecure : List Nat
  releasing : List (Nat × Nat)
  ringRegs : List (Nat × Word)
  unmatched : List (Nat × Nat)
  ports : List (Nat × PortAddress)
  cpRegs : List (Nat × Word)
  pulses : List (Nat × Pulse)
  repairs : List (Nat × List Byte)
  railHeld : List Nat
  bar0 : List (Nat × Word)
  posted : List (Nat × List Byte)
  layers : List (Nat × Nat)
  links : List (Nat × LinkPort)
  tagsSeen : List (Nat × Nat)
  writesTo : List (Nat × Nat)
  writesFrom : List (Nat × Nat)
  markersFrom : List Marker
  farVotes : List FarVote
  arriving : List Arriving
  cxlDown : List Nat
  hot : List HotPage
  boot : Boot
  out : List Out
  free : Nat
  nextId : Nat
  agenda : List Input
  deriving DecidableEq, Repr

/-- Identity registers of Insole's strand (R409): CREW_SIZE reads 1; CORE_ID, CLUSTER_ID and DIE_ID all ones.
Left open by the spec: log entry 5 (DESIGN CHOICE). -/
def Ids.insole : Ids :=
  ⟨0, 0, 1, 0, 0, BitVec.allOnes 64, BitVec.allOnes 64, BitVec.allOnes 64, 0, 0, 0, 0, 0, 0, 0⟩

/-- A strand with every register 0. Left open by the spec: log entry 5 (DESIGN CHOICE). -/
def Strand.zero (key : StrandKey) (ids : Ids) : Strand where
  key := key
  ids := ids
  x := Vector.replicate 64 0
  xp := 0
  c := 1
  k := Vector.replicate 8 0
  v := Vector.replicate 32 (Vector.replicate 64 0)
  vp := Vector.replicate 32 0
  pc := 0
  level := .program
  secure := false
  issued := 0
  fpflags := 0
  fpmode := 0
  spawnCause := 0
  spawnErr := false
  trapCause := 0
  trapPc := 0
  trapAddr := 0
  trapInfo := 0
  trapVec := 0
  trapScratch := 0
  prev := 0
  async := false
  inHandler := false
  ovf := false
  asid := 0
  queues := Vector.replicate 8 []
  events := []
  deferred := []
  asked := []
  wait := none
  parted := none
  counted := false
  appended := 0
  live := true

/-- Insole's strand (R409). It does not run before Nyset is started (R402).
Left open by the spec: log entry 5 (DESIGN CHOICE). -/
def Strand.insole : Strand :=
  { Strand.zero ⟨0, 0⟩ Ids.insole with level := .machine, secure := true, live := false }

/-- CPSTAT and CPRAIL of the controllers before power-up: OFF, EN 0 (R403).
Left open by the spec: log entry 4 (DESIGN CHOICE). -/
def railsOff : List (Nat × Word) :=
  (List.range 96).flatMap fun c => [(0x401 + 8 * c, 0x6001), (0x403 + 8 * c, 0x003C000000000100)]

/-- Left open by the spec: log entry 4 (DESIGN CHOICE), log entry 5 (DESIGN CHOICE). -/
def State.reset : State where
  me := Strand.insole
  others := []
  crews := []
  launches := []
  dispatchers := []
  dev := .empty
  host := .empty
  tiles := .empty
  tags := []
  bars := []
  copies := []
  uplinks := []
  fabric := []
  bag := []
  votes := []
  voteBufs := []
  matrix := []
  cycles := []
  turns := []
  tlb := []
  upper := []
  walks := []
  atc := []
  ats := []
  pri := []
  priStopped := []
  priLimits := []
  pageFailed := []
  removals := []
  jobs := []
  seqs := []
  banks := []
  rings := []
  remoteRings := []
  fnSecure := []
  releasing := []
  ringRegs := []
  unmatched := []
  ports := []
  cpRegs := railsOff
  pulses := []
  repairs := []
  railHeld := []
  bar0 := []
  posted := []
  layers := []
  links := []
  tagsSeen := []
  writesTo := []
  writesFrom := []
  markersFrom := []
  farVotes := []
  arriving := []
  cxlDown := [0, 1]
  hot := []
  boot := .off
  out := []
  free := 0
  nextId := 1
  agenda := []

end Sys2Proof.Machine
end

