-- ==== Sys2Proof/Machine/Regs.lean ====
section
/-!
DEFINITION. Regs.lean: reading and writing the registers of the strand that executes (R11, R13), and which of
them are pending (R29, R52).
-/

namespace Sys2Proof.Machine

/-- An update of the executing strand. -/
def State.onMe (s : State) (f : Strand → Strand) : State := { s with me := f s.me }

/-! ### x registers -/

/-- The value of an x register; x0 reads 0 (R11). -/
def Strand.xr (t : Strand) (r : XReg) : Word := if r = 0 then 0 else t.x[r.toNat]'(by have := r.isLt; omega)

/-- The poison of an x register; x0's is clear. -/
def Strand.xPois (t : Strand) (r : XReg) : Bool := if r = 0 then false else t.xp.getLsbD r.toNat

/-- A write of an x register with its poison; a write of x0 is discarded. -/
def Strand.setX (t : Strand) (r : XReg) (w : Word) (p : Bool) : Strand :=
  if r = 0 then t
  else
    { t with
      x := t.x.set r.toNat w (by have := r.isLt; omega)
      xp := if p then t.xp ||| (1#64 <<< r.toNat) else t.xp &&& ~~~(1#64 <<< r.toNat) }

def State.xr (s : State) (r : XReg) : Word := s.me.xr r
def State.xPois (s : State) (r : XReg) : Bool := s.me.xPois r
def State.setX (s : State) (r : XReg) (w : Word) (p : Bool) : State := s.onMe (·.setX r w p)

/-! ### Condition registers and masks -/

/-- A condition register; c0 reads 1 (R11). -/
def Strand.cr (t : Strand) (r : CReg) : Bool := if r = 0 then true else t.c.getLsbD r.toNat

/-- A write of a condition register; c0 keeps reading 1. -/
def Strand.setC (t : Strand) (r : CReg) (b : Bool) : Strand :=
  if r = 0 then t
  else { t with c := if b then t.c ||| (1#8 <<< r.toNat) else t.c &&& ~~~(1#8 <<< r.toNat) }

/-- A lane mask; k0 reads all ones (R11). -/
def Strand.kr (t : Strand) (r : KReg) : Word :=
  if r = 0 then BitVec.allOnes 64 else t.k[r.toNat]'(by have := r.isLt; omega)

def Strand.setK (t : Strand) (r : KReg) (w : Word) : Strand :=
  if r = 0 then t else { t with k := t.k.set r.toNat w (by have := r.isLt; omega) }

def State.cr (s : State) (r : CReg) : Bool := s.me.cr r
def State.setC (s : State) (r : CReg) (b : Bool) : State := s.onMe (·.setC r b)
def State.kr (s : State) (r : KReg) : Word := s.me.kr r
def State.setK (s : State) (r : KReg) (w : Word) : State := s.onMe (·.setK r w)

/-! ### Vector registers -/

/-- The lanes of a vector register. -/
def Strand.vr (t : Strand) (r : VReg) : Vector Lane 64 := t.v[r.toNat]'(by have := r.isLt; omega)

/-- The poison of the lanes of a vector register, bit i for lane i. -/
def Strand.vPois (t : Strand) (r : VReg) : BitVec 64 := t.vp[r.toNat]'(by have := r.isLt; omega)

def Strand.setV (t : Strand) (r : VReg) (lanes : Vector Lane 64) (p : BitVec 64) : Strand :=
  { t with
    v := t.v.set r.toNat lanes (by have := r.isLt; omega)
    vp := t.vp.set r.toNat p (by have := r.isLt; omega) }

def State.vr (s : State) (r : VReg) : Vector Lane 64 := s.me.vr r
def State.vPois (s : State) (r : VReg) : BitVec 64 := s.me.vPois r
def State.setV (s : State) (r : VReg) (lanes : Vector Lane 64) (p : BitVec 64) : State :=
  s.onMe (·.setV r lanes p)

/-- Lane i of a vector register, i taken modulo 64. -/
def laneAt (v : Vector Lane 64) (i : Nat) : Lane := v[i % 64]'(Nat.mod_lt _ (by decide))

/-- The 64 bits of a predicate on lane numbers. -/
def maskOf (f : Nat → Bool) : Word :=
  (List.range 64).foldr (fun i w => if f i then w ||| (1#64 <<< i) else w) 0

/-- A write of the lanes whose bit of `m` is 1; the others keep value and poison (R164). -/
def Strand.setVMasked (t : Strand) (r : VReg) (m : Word) (lane : Nat → Lane) (p : Nat → Bool) : Strand :=
  let old := t.vr r
  let oldP := t.vPois r
  t.setV r (Vector.ofFn fun i : Fin 64 => if m.getLsbD i then lane i else old[i])
    (maskOf fun i => if m.getLsbD i then p i else oldP.getLsbD i)

/-! ### Guards (R106) -/

/-- Whether the guard lets the instruction execute. -/
def State.guardOn (s : State) (g : Guard) : Bool := s.cr g.c != g.neg

/-! ### Pending registers (R29, R52) -/

/-- The x register an unperformed item will write. -/
def Body.xDest : Body → Option XReg
  | .load i => match i.dest with
    | .x r _ => some r
    | .v _ | .all _ _ => none
  | .atomic i => i.dest
  | .bar i => i.dest
  | .ring i => i.dest
  | .store _ | .transfer _ | .tag _ | .copy _ | .gate _ => none

/-- The v register an unperformed load will write. -/
def Body.vDest : Body → Option VReg
  | .load i => match i.dest with
    | .x _ _ => none
    | .v r | .all r _ => some r
  | .atomic _ | .bar _ | .ring _ | .store _ | .transfer _ | .tag _ | .copy _ | .gate _ => none

/-- The entries of all eight queues, h0's first. -/
def Strand.entries (t : Strand) : List Entry := t.queues.toList.flatten

/-- Whether an x register waits for an item, or for the answer of a power controller (R29, R380). -/
def Strand.xPending (t : Strand) (r : XReg) : Bool :=
  r != 0 && ((t.entries.any fun e => e.body.xDest == some r) || t.asked.any fun a => a.1 == r)

def Strand.vPending (t : Strand) (r : VReg) : Bool := t.entries.any fun e => e.body.vDest == some r

/-- Whether an instruction that reads or writes these registers waits for a load, an atomic or an item. -/
def Strand.pending (t : Strand) (xs : List XReg) (vs : List VReg) : Bool :=
  xs.any t.xPending || vs.any t.vPending

/-! ### Modes -/

/-- Levels in order (R21). -/
def Level.rank : Level → Nat
  | .program => 0 | .supervisor => 1 | .machine => 2

/-- The code of a level in MODE and PREV (R16, R337). -/
def Level.code : Level → BitVec 2
  | .program => 0 | .supervisor => 1 | .machine => 2

def Level.ofCode (n : BitVec 2) : Level :=
  match n with
  | 0#2 => .program | 1#2 => .supervisor | _ => .machine

/-- Insole's strand is the strand of crew 0 (R409). -/
def Strand.isInsole (t : Strand) : Bool := t.key.crew == 0

/-- A strand's core, cluster and die, numbered through the package; Insole's own are 1,536, 96 and 8 (R409). -/
def Strand.core (t : Strand) : Nat := if t.isInsole then 1536 else t.ids.coreId.toNat
def Strand.cluster (t : Strand) : Nat := t.core / 16
def Strand.die (t : Strand) : Nat := t.core / 192

/-- The partition of a strand; Insole's belongs to none, 0xFF (R397, R409). -/
def Strand.part (t : Strand) : Nat := if t.isInsole then 0xFF else t.ids.partId.toNat

/-- The reference to an entry of a strand's queue. -/
def Strand.ref (t : Strand) (h : HReg) (n : Nat) : Ref := ⟨t.key, h, n⟩

/-- The entries of one queue. -/
def Strand.queue (t : Strand) (h : HReg) : List Entry := t.queues[h.toNat]'(by have := h.isLt; omega)

def Strand.setQueue (t : Strand) (h : HReg) (q : List Entry) : Strand :=
  { t with queues := t.queues.set h.toNat q (by have := h.isLt; omega) }

/-! ### The strands of the package -/

/-- A strand by its key: the executing one, or one of the others. -/
def State.strand? (s : State) (k : StrandKey) : Option Strand :=
  if s.me.key = k then some s.me else s.others.find? fun t => t.key == k

/-- An update of the strand with a key; none where there is no such strand. -/
def State.onStrand (s : State) (k : StrandKey) (f : Strand → Strand) : State :=
  if s.me.key = k then s.onMe f
  else { s with others := s.others.map fun t => if t.key = k then f t else t }

/-- The strand with key `k` becomes the executing one. -/
def State.select (s : State) (k : StrandKey) : State :=
  if s.me.key = k then s
  else
    match s.others.find? fun t => t.key == k with
    | none => s
    | some t => { s with me := t, others := s.me :: s.others.filter fun t => t.key != k }

/-- The strands of a crew gone from the machine; where the executing strand is one of them, another stands in its
place. -/
def State.withoutCrew (s : State) (uid : Nat) : State :=
  let rest := s.others.filter fun t => t.key.crew != uid
  if s.me.key.crew = uid then
    match rest with
    | t :: ts => { s with me := t, others := ts }
    | [] => { s with others := [] }
  else { s with others := rest }

/-- All strands. -/
def State.strands (s : State) : List Strand := s.me :: s.others

def State.crew? (s : State) (uid : Nat) : Option Crew := s.crews.find? fun c => c.uid == uid

def State.onCrew (s : State) (uid : Nat) (f : Crew → Crew) : State :=
  { s with crews := s.crews.map fun c => if c.uid = uid then f c else c }

def State.launch? (s : State) (uid : Nat) : Option Launch := s.launches.find? fun l => l.uid == uid

def State.onLaunch (s : State) (uid : Nat) (f : Launch → Launch) : State :=
  { s with launches := s.launches.map fun l => if l.uid = uid then f l else l }

/-- LAUNCH_ID (R17). -/
def launchId (queue seq : Nat) : Word := BitVec.ofNat 64 (queue + (seq % 2 ^ 32) * 2 ^ 16)

/-- A number as a word. -/
def num (n : Nat) : Word := BitVec.ofNat 64 n

/-- n little-endian bytes of a number (R4). -/
def bytesOf : Nat → Nat → List Byte
  | 0, _ => []
  | n + 1, v => BitVec.ofNat 8 v :: bytesOf n (v / 256)

/-- The number that little-endian bytes hold (R4). -/
def natOfBytes : List Byte → Nat
  | [] => 0
  | b :: bs => b.toNat + 256 * natOfBytes bs

/-- The number in the `n` bytes at an offset of a block. -/
def fieldAt (bs : List Byte) (off n : Nat) : Nat := natOfBytes ((bs.drop off).take n)

end Sys2Proof.Machine
end

