-- ==== Sys2Proof/Machine/Bar.lean ====
section
/-!
DEFINITION. Bar.lean: the registers the package holds: those of BAR 0 (R301) by offset, the ring registers (R244)
and the registers of the power controllers (R378) by system register number, and their fields and reset values.
-/

namespace Sys2Proof.Machine

/-- A field hi:lo of a register, as a number. -/
def fieldOf (w : Word) (hi lo : Nat) : Nat := (w.extractLsb' lo (hi - lo + 1)).toNat

/-- The bits hi:lo. -/
def bitsMask (hi lo : Nat) : Word := (BitVec.allOnes 64 >>> (63 - (hi - lo))) <<< lo

/-- A register with the field hi:lo replaced. -/
def withField (w : Word) (hi lo : Nat) (n : Nat) : Word :=
  (w &&& ~~~bitsMask hi lo) ||| ((BitVec.ofNat 64 n <<< lo) &&& bitsMask hi lo)

/-- A register with one bit set or cleared. -/
def withBit (w : Word) (i : Nat) (b : Bool) : Word := withField w i i (if b then 1 else 0)

/-- A register of a map whose absent entries hold a reset value. -/
def regOf (reset : Nat → Word) (m : List (Nat × Word)) (k : Nat) : Word := mapGet (reset k) k m

/-! ### BAR 0 -/

/-- Offset of register `r` of the block of stack `d` (R398). -/
def stackReg (d r : Nat) : Nat := 0x370000 + 0x100 * d + r

/-- The reset value of the register at an offset of BAR 0: 0 but for PWRLIM (R408), HBCAP and HBSCRUB (R398).
Left open by the spec: log entry 4 (DESIGN CHOICE). -/
def barReset (off : Nat) : Word :=
  if off = 0x200 then 2400
  else if 0x370000 ≤ off ∧ off < 0x370800 then
    (if off % 0x100 = 0 then 16 else if off % 0x100 = 0x10 then 0x8028000000000000 else 0)
  else 0

def State.bar (s : State) (off : Nat) : Word := regOf barReset s.bar0 off

def State.setBar (s : State) (off : Nat) (w : Word) : State :=
  { s with bar0 := mapSet (barReset off) off w s.bar0 }

/-- An update of the field hi:lo of the register at `off`. -/
def State.setBarField (s : State) (off hi lo n : Nat) : State := s.setBar off (withField (s.bar off) hi lo n)

def State.barField (s : State) (off hi lo : Nat) : Nat := fieldOf (s.bar off) hi lo

/-- Offset of register `r` of partition block `p` (R301). -/
def partReg (p r : Nat) : Nat := 0x100000 + 0x1000 * p + r

def State.part (s : State) (p r : Nat) : Word := s.bar (partReg p r)
def State.setPart (s : State) (p r : Nat) (w : Word) : State := s.setBar (partReg p r) w

/-- Offset of register `r` of queue block `q` (R301). -/
def queueReg (q r : Nat) : Nat := 0x1000000 + 0x40 * q + r

/-- CLPART of a cluster, numbered 12 × die + cluster (R347). -/
def clpart (c : Nat) : Nat := 0x300000 + 0x100 * (c / 12) + 8 * (c % 12)

/-- STATE of a cluster (R347): 0 FREE, 1 OWNED, 2 QUIESCING, 3 SCRUBBING. -/
def State.clusterState (s : State) (c : Nat) : Nat := s.barField (clpart c) 63 62

/-- The partition that owns a cluster, while its STATE is not FREE. -/
def State.clusterPart (s : State) (c : Nat) : Option Nat :=
  if s.clusterState c = 0 then none else some (s.barField (clpart c) 59 56)

/-- Whether a cluster is secure. -/
def State.clusterSecure (s : State) (c : Nat) : Bool := (s.bar (clpart c)).getLsbD 61

/-- The clusters a partition owns. -/
def State.clustersOf (s : State) (p : Nat) : List Nat :=
  (List.range 96).filter fun c => s.clusterState c == 1 && s.barField (clpart c) 59 56 == p

/-- Whether a partition is secure: its clusters are, those on their way back too (R351, R356). -/
def State.partSecure (s : State) (p : Nat) : Bool :=
  (List.range 96).any fun c => s.clusterPart c == some p && s.clusterSecure c

/-- ASENT and ASROOT of an ASID (R325). -/
def asent (a : Nat) : Nat := 0x400000 + 0x10 * a
def asroot (a : Nat) : Nat := 0x400008 + 0x10 * a

/-- Whether an ASID is valid and belongs to a partition (R325). -/
def State.asidOwned (s : State) (a p : Nat) : Bool :=
  decide (a < 1024) && (s.bar (asent a)).getLsbD 63 && s.barField (asent a) 59 56 == p

/-- Whether an ASID is host-shared (R333), and its PASID. -/
def State.asidHost (s : State) (a : Nat) : Bool := (s.bar (asent a)).getLsbD 62
def State.pasid (s : State) (a : Nat) : Nat := s.barField (asent a) 19 0

/-- RNGOWN of a ring and CKOWN of a port (R358). -/
def rngown (n : Nat) : Nat := 0x320000 + 8 * n
def ckown (k : Nat) : Nat := 0x320400 + 8 * k

def State.ownsRing (s : State) (p n : Nat) : Bool :=
  (s.bar (rngown n)).getLsbD 63 && s.barField (rngown n) 59 56 == p

/-! ### Readiness (R403) -/

def State.ready (s : State) (bit : Nat) : Bool := (s.bar 0x100).getLsbD bit
def State.setReady (s : State) (bit : Nat) (b : Bool) : State := s.setBar 0x100 (withBit (s.bar 0x100) bit b)

/-! ### System registers that no strand holds -/

/-- The number of register i of the controller of a cluster (R378). -/
def cpNum (c i : Nat) : Nat := 0x400 + 8 * c + i

/-- The reset values of R379. Left open by the spec: log entry 4 (DESIGN CHOICE). -/
def cpReset (n : Nat) : Word :=
  match n % 8 with
  | 0 => 2
  | 1 => 6
  | 3 => 0xC03C000000000100
  | 5 => 0x10000
  | _ => 0

def State.cp (s : State) (c i : Nat) : Word := regOf cpReset s.cpRegs (cpNum c i)
def State.setCp (s : State) (c i : Nat) (w : Word) : State :=
  { s with cpRegs := mapSet (cpReset (cpNum c i)) (cpNum c i) w s.cpRegs }

/-- STATE of a controller (R381). -/
def State.cpState (s : State) (c : Nat) : Nat := fieldOf (s.cp c 1) 15 12

/-- A cluster's bit of READY1 and READY2: its controller is in ACTIVE (R403). -/
def State.clusterReady (s : State) (c : Nat) : Bool := s.cpState c == 0

/-- Register i of ring n (R244). -/
def State.ring (s : State) (n i : Nat) : Word := regOf (fun _ => 0) s.ringRegs (16 * n + i)
def State.setRing (s : State) (n i : Nat) (w : Word) : State :=
  { s with ringRegs := mapSet 0 (16 * n + i) w s.ringRegs }

/-- The unit of an enabled ring. -/
def State.unit? (s : State) (n : Nat) : Option RingUnit := (s.rings.find? fun r => r.1 == n).map (·.2)

def State.setUnit (s : State) (n : Nat) (u : RingUnit) : State :=
  { s with rings := (n, u) :: s.rings.filter fun r => r.1 != n }

def State.dispatcher (s : State) (p : Nat) : Dispatcher := mapGet .start p s.dispatchers
def State.setDispatcher (s : State) (p : Nat) (d : Dispatcher) : State :=
  { s with dispatchers := mapSet .start p d s.dispatchers }

/-- CYCLES of a core. -/
def State.coreCycles (s : State) (core : Nat) : Word := mapGet 0 core s.cycles

def State.send (s : State) (o : Out) : State := { s with out := o :: s.out }

/-- A number for something new in the model: a crew, a launch, a transfer, a removal, a claim. -/
def State.newId (s : State) : Nat × State := (s.nextId, { s with nextId := s.nextId + 1 })

end Sys2Proof.Machine
end

