-- ==== Sys2Proof/Machine/Report.lean ====
section
/-!
DEFINITION. Report.lean: how trouble and completion are reported: event records of a partition (R316, R317),
error records of the package (R397), counters (R396), and asynchronous events of strands (R340).
-/

namespace Sys2Proof.Machine

/-! ### Trap causes (R339) -/

namespace Cause
def illegal : Nat := 0x01
def privilege : Nat := 0x02
def misalign : Nat := 0x03
def xlateFault : Nat := 0x04
def access : Nat := 0x05
def hostPageFail : Nat := 0x06
def poison : Nat := 0x07
def tileOverrun : Nat := 0x08
def barrierOverrun : Nat := 0x09
def handle : Nat := 0x0A
def space : Nat := 0x0B
def software : Nat := 0x0C
def breakpoint : Nat := 0x0D
def voteFail : Nat := 0x0E
def engineFault : Nat := 0x0F
def ring : Nat := 0x10
def watchdog : Nat := 0x11
def remote : Nat := 0x13
end Cause

/-! ### Event records (R316) -/

/-- What an event record says; `queue` is 0xFFFF and `launch` 0 where no launch is meant. -/
structure EventRec where
  kind : Nat
  queue : Nat
  cause : Nat
  launch : Word
  info : Word
  addr : Word
  deriving DecidableEq, Repr

/-- The event kinds of R317. -/
def EventRec.done : Nat := 1
def EventRec.invalid : Nat := 2
def EventRec.launchFail : Nat := 3
def EventRec.preempt : Nat := 4
def EventRec.hang : Nat := 5
def EventRec.teardown : Nat := 6
def EventRec.fault : Nat := 7

/-- The 32 bytes of a record (R316). -/
def EventRec.bytes (e : EventRec) (p : Nat) (overflowed : Bool) : List Byte :=
  [BitVec.ofNat 8 e.kind, BitVec.ofNat 8 p] ++ bytesOf 2 e.queue ++
    [BitVec.ofNat 8 e.cause, if overflowed then 1 else 0, 0, 0] ++
    bytesOf 8 e.launch.toNat ++ bytesOf 8 e.info.toNat ++ bytesOf 8 e.addr.toNat

/-- A write that the device makes at a bus address of the host (R316, R374, R397). -/
def State.hostPut (s : State) (a : Nat) (bs : List Byte) : State :=
  { s with host := s.host.store a bs false }.send (.memWrite .atBus [(a, bs)] false)

/-- An event record of partition `p`: written at slot PROD and signalled, or lost and counted (R316). -/
def State.report (s : State) (p : Nat) (e : EventRec) : State :=
  let evt := s.part p 0x018
  let idx := s.part p 0x020
  let log2n := fieldOf evt 4 0
  let prod := fieldOf idx 31 0
  let cons := fieldOf idx 63 32
  let d := s.dispatcher p
  if log2n < 4 ∨ 16 < log2n ∨ (prod + 2 ^ 32 - cons) % 2 ^ 32 = 2 ^ log2n then
    (s.setPart p 0x048 (num ((fieldOf (s.part p 0x048) 31 0 + 1) % 2 ^ 32))).setDispatcher p { d with lost := true }
  else
    let a := (evt &&& bitsMask 63 6).toNat + 32 * (prod % 2 ^ log2n)
    let s := s.hostPut a (e.bytes p d.lost)
    let s := s.setPart p 0x020 (withField idx 31 0 (prod + 1))
    (s.setDispatcher p { d with lost := false }).send (.msix (fieldOf (s.part p 0x060) 4 0) 0)

/-- A FAULT record (R317) that no launch is named in. -/
def State.faultRecord (s : State) (p cause : Nat) (info addr : Word) : State :=
  s.report p ⟨EventRec.fault, 0xFFFF, cause, 0, info, addr⟩

/-- A FAULT record that names the launch of a crew. -/
def State.crewFault (s : State) (c : Crew) (cause : Nat) (info addr : Word) : State :=
  match s.launch? c.launch with
  | none => s.faultRecord c.part cause info addr
  | some l => s.report c.part ⟨EventRec.fault, l.queue, cause, launchId l.queue l.seq, info, addr⟩

/-! ### Asynchronous events (R340) -/

/-- The number of pending events a strand's queue holds (R340). -/
def eventRoom : Nat := 8

/-- An event addressed to a strand: it joins the strand's queue; if the queue is full it goes to the partition and
sets OVF, and Insole's is lost (R409); if the strand has exited or its crew is out it goes to the partition.
Left open by the spec: log entry 25 (DESIGN CHOICE). -/
def State.raiseTo (s : State) (k : StrandKey) (cause : Nat) (addr info : Word) : State :=
  match s.strand? k with
  | some t =>
    if !t.live then
      match s.crew? k.crew with
      | some c => s.crewFault c cause info addr
      | none => s
    else if t.events.length < eventRoom then
      s.onStrand k fun t => { t with events := t.events ++ [⟨cause, addr, info⟩] }
    else
      let s := s.onStrand k fun t => { t with ovf := true }
      match s.crew? k.crew with
      | some c => s.crewFault c cause info addr
      | none => s
  | none =>
    match s.crew? k.crew with
    | some c => s.crewFault c cause info addr
    | none => s

/-! ### Error records (R397) and counters (R396) -/

/-- What an error record says; `part` is 0xFF for none. -/
structure ErrorRec where
  kind : Nat
  die : Nat
  unit : Nat
  part : Nat
  addr : Word
  info : Word
  deriving DecidableEq, Repr

def ErrorRec.bytes (e : ErrorRec) : List Byte :=
  [BitVec.ofNat 8 e.kind, BitVec.ofNat 8 e.die] ++ bytesOf 2 e.unit ++ [BitVec.ofNat 8 e.part, 0, 0, 0] ++
    bytesOf 8 e.addr.toNat ++ bytesOf 8 e.info.toNat ++ bytesOf 8 0

/-- An error record, while ERRCFG.EN is 1: written and signalled, or counted in LOST (R397).
Left open by the spec: log entry 9 (DESIGN CHOICE). -/
def State.errorRecord (s : State) (e : ErrorRec) : State :=
  let cfg := s.bar 0x371010
  let base := s.bar 0x371000
  let idx := s.bar 0x371008
  let log2n := fieldOf base 4 0
  let prod := fieldOf idx 31 0
  let cons := fieldOf idx 63 32
  if !cfg.getLsbD 63 then s
  else if (prod + 2 ^ 32 - cons) % 2 ^ 32 = 2 ^ log2n then
    s.setBar 0x371010 (withField cfg 47 16 (fieldOf cfg 47 16 + 1))
  else
    let a := (base &&& bitsMask 63 6).toNat + 32 * (prod % 2 ^ log2n)
    let s := s.hostPut a e.bytes
    (s.setBar 0x371008 (withField idx 31 0 (prod + 1))).send (.msix 0 2)

/-- Offset of a counter of the error block of die `d` (R396). -/
def errReg (d off : Nat) : Nat := 0x360000 + 0x2000 * d + off

/-- A corrected error of a unit: its CORR counts, stopping at its greatest value, and is recorded when it reaches
a multiple of 2^CLOG (R396, R397). -/
def State.countCorr (s : State) (d off part : Nat) (addr syndrome : Word) : State :=
  let n := min (s.barField (errReg d off) 31 0 + 1) (2 ^ 32 - 1)
  let s := s.setBarField (errReg d off) 31 0 n
  if n % 2 ^ s.barField 0x371010 4 0 = 0 then s.errorRecord ⟨1, d, off / 8, part, addr, syndrome⟩ else s

/-- UNCORR of a unit counts, stopping at its greatest value (R390, R396). -/
def State.addUncorr (s : State) (d off : Nat) : State :=
  s.setBarField (errReg d off) 63 32 (min (s.barField (errReg d off) 63 32 + 1) (2 ^ 32 - 1))

/-- An uncorrectable error of a unit, counted and recorded (R390, R396, R397). -/
def State.countUncorr (s : State) (d off part : Nat) (addr syndrome : Word) : State :=
  (s.addUncorr d off).errorRecord ⟨2, d, off / 8, part, addr, syndrome⟩

end Sys2Proof.Machine
end

