-- ==== Sys2Proof/Machine/Home.lean ====
section
/-!
DEFINITION. Home.lean: the homes of bytes (R49), the images of parked tiles and barriers (R344, R345), tags and
barriers, the copies and what drops them (R52, R56, R59), and when an item is performed at a scope (R55).
-/

namespace Sys2Proof

/-! ### Places and scopes -/

/-- The place `n` bytes on. -/
def Place.plus (p : Place) (n : Nat) : Place :=
  match p with
  | .dev a => .dev (a + n)
  | .host a => .host (a + n)
  | .tile a => .tile (a + n)
  | .remote w a => .remote w (a + n)

/-- The address of a place in its own space. -/
def Place.addr : Place → Nat
  | .dev a | .host a | .tile a | .remote _ a => a

/-- The 64-byte line of a place. -/
def Place.line (p : Place) : Place :=
  match p with
  | .dev a => .dev (a / 64 * 64)
  | .host a => .host (a / 64 * 64)
  | .tile a => .tile (a / 64 * 64)
  | .remote w a => .remote w (a / 64 * 64)

/-- A home without the way to it: a byte of another package by its node and address there. -/
def Place.bare (p : Place) : Place :=
  match p with
  | .remote v a => .remote ⟨0, 0, v.node, 0, false⟩ a
  | .dev _ | .host _ | .tile _ => p

/-- Whether a place is scratchpad. -/
def Place.isTile : Place → Bool
  | .tile _ => true
  | .dev _ | .host _ | .remote _ _ => false

def Place.isRemote : Place → Bool
  | .remote _ _ => true
  | .dev _ | .host _ | .tile _ => false

/-- Whether `n` bytes at `p` and `m` bytes at `q` overlap. -/
def Place.overlap (p : Place) (n : Nat) (q : Place) (m : Nat) : Bool :=
  match p, q with
  | .dev a, .dev b | .host a, .host b | .tile a, .tile b => decide (a < b + m ∧ b < a + n)
  | .remote v a, .remote w b => v.node == w.node && decide (a < b + m ∧ b < a + n)
  | _, _ => false

/-- Die or wider. -/
def Scope.wide : Scope → Bool
  | .strand | .core | .cluster => false
  | .die | .package | .domain | .system => true

end Sys2Proof

namespace Sys2Proof.Machine

/-! ### Device memory -/

def hbmEnd : Nat := 0x8000000000
def cxlBase : Nat := 0x100000000000
def cxlEnd : Nat := 0x140000000000

/-- Where the bytes of a device address are kept: its range's physical layer (R398, R399). -/
def State.storeAddr (s : State) (a : Nat) : Nat :=
  if a < hbmEnd then
    let r := a / 2 ^ 32
    (r / 16 * 16 + mapGet (r % 16) r s.layers) * 2 ^ 32 + a % 2 ^ 32
  else a

/-- Offset of register `r` of CXL decoder `i` (R369). -/
def decoderReg (i r : Nat) : Nat := 0x330000 + 0x20 * i + r

/-- Whether an enabled decoder maps an address. -/
def State.decodes (s : State) (i a : Nat) : Bool :=
  (s.bar (decoderReg i 0)).getLsbD 63 &&
    decide ((s.bar (decoderReg i 8)).toNat ≤ a ∧ a < (s.bar (decoderReg i 8)).toNat + (s.bar (decoderReg i 16)).toNat)

/-- The decoder that maps an address, with IL2 the one of the granule's port (R369). -/
def State.decoder? (s : State) (a : Nat) : Option Nat :=
  (List.range 8).find? fun i =>
    s.decodes i a && (!(s.bar (decoderReg i 0)).getLsbD 61 || (a / 4096 % 2 == i / 4))

/-- Whether an address lies in the CXL tier on a port that is down (R369). -/
def State.cxlLost (s : State) (a : Nat) : Bool :=
  decide (cxlBase ≤ a ∧ a < cxlEnd) &&
    (match s.decoder? a with
     | some i => s.cxlDown.contains (i / 4)
     | none => true)

/-- An access at a CXL home agent counts in the hot-page tracker (R370). -/
def State.noteCxl (s : State) (p : Place) (asid : Nat) (pin : Bool) : State :=
  match p with
  | .dev a =>
    if a < cxlBase || !(s.bar 0x340000).getLsbD 63 then s
    else
      let page := a / 2 ^ 21
      let old := (s.hot.find? fun h => h.page == page).getD ⟨page, 0, asid, false⟩
      { s with hot :=
          ⟨page, min (old.count + 1) (2 ^ 16 - 1), asid, old.pinned || pin⟩ :: s.hot.filter fun h => h.page != page }
  | .host _ | .tile _ | .remote _ _ => s

/-- The CXL port of an address (R369). -/
def State.cxlPort (s : State) (a : Nat) : Nat := ((s.decoder? a).map (· / 4)).getD 0

/-! ### Tiles and parked images -/

/-- First byte of a save slot of a partition (R341). -/
def State.saveSlot (s : State) (p slot : Nat) : Nat := (s.part p 0x058 &&& bitsMask 51 21).toNat + slot * 2 ^ 21

/-- The slot a crew is in. -/
def CrewWhere.slot? : CrewWhere → Option Nat
  | .saved n | .frozen n => some n
  | .placed | .evicting | .freezing | .gone | .retired => none

/-- Whether a crew is on its core. -/
def Crew.onCore (c : Crew) : Bool :=
  match c.place with
  | .placed | .evicting | .freezing => true
  | .saved _ | .frozen _ | .gone | .retired => false

/-- Whether tile `t` of core `core` is among a crew's. -/
def Crew.hasTile (c : Crew) (core t : Nat) : Bool :=
  c.core == core && decide (c.tileBase ≤ t ∧ t < c.tileBase + c.tileCount)

def Crew.hasBar (c : Crew) (core b : Nat) : Bool :=
  c.core == core && decide (c.barBase ≤ b ∧ b < c.barBase + c.barCount)

/-- The live crew a tile of a core belongs to. -/
def State.tileCrew? (s : State) (core t : Nat) : Option Crew := s.crews.find? fun c => c.onCore && c.hasTile core t

def State.barCrew? (s : State) (core b : Nat) : Option Crew := s.crews.find? fun c => c.onCore && c.hasBar core b

/-- The image of a parked tile (R36, R345): the slot's address and the crew-relative tile. -/
def State.parkedTile? (s : State) (core t : Nat) : Option (Nat × Nat) :=
  s.crews.findSome? fun c =>
    if c.keep && c.hasTile core t then c.place.slot?.map fun n => (s.saveSlot c.part n, t - c.tileBase) else none

def State.parkedBar? (s : State) (core b : Nat) : Option (Nat × Nat) :=
  s.crews.findSome? fun c =>
    if c.keep && c.hasBar core b then c.place.slot?.map fun n => (s.saveSlot c.part n, b - c.barBase) else none

/-- The address of a tile of a core of the package (R206). -/
def gtOf (core tile : Nat) : Word :=
  num (0xFFF * 2 ^ 52 + core / 192 * 2 ^ 45 + core / 16 % 12 * 2 ^ 41 + core % 16 * 2 ^ 37 + tile * 2 ^ 12)

/-- A byte address in scratchpad: core × 2^20 + tile × 4,096 + offset. -/
def tileAddr (core tile off : Nat) : Nat := core * 2 ^ 20 + tile * 4096 + off

/-- Whether a cluster's scratchpads answer: its controller is in ACTIVE or QUIESCING (R383). -/
def State.scratchUp (s : State) (cluster : Nat) : Bool := decide (s.cpState cluster ≤ 1)

/-- One poison bit of a tile image (R342). -/
def imagePoison (m : Mem) (slot i w : Nat) : Bool := (m.read (slot + 0x44000 + 128 * i + w / 8)).getLsbD (w % 8)

def setImagePoison (m : Mem) (slot i w : Nat) (p : Bool) : Mem :=
  let a := slot + 0x44000 + 128 * i + w / 8
  let b := m.read a
  m.write a (if p then b ||| (1#8 <<< (w % 8)) else b &&& ~~~(1#8 <<< (w % 8)))

/-- Bytes stored in a tile image, with their poison by R184. -/
def storeImage (m : Mem) (slot i off : Nat) (bs : List Byte) (p : Bool) : Mem :=
  let m := m.writeBytes (slot + 0x100000 + 4096 * i + off) bs
  (List.range ((off + bs.length + 3) / 4 - off / 4)).foldl
    (fun m k =>
      let w := off / 4 + k
      if off ≤ 4 * w ∧ 4 * w + 4 ≤ off + bs.length then setImagePoison m slot i w p
      else if p then setImagePoison m slot i w true else m) m

/-- Bytes of tile `i` of an image, and whether any of their words is poisoned. -/
def State.readImage (s : State) (slot i off n : Nat) : List Byte × Bool :=
  (s.dev.readBytes (s.storeAddr (slot + 0x100000 + 4096 * i + off)) n,
   (List.range ((off + n + 3) / 4 - off / 4)).any fun k => imagePoison s.dev (s.storeAddr slot) i (off / 4 + k))

/-- Bytes of a tile, or of its parked image, and whether any of their words is poisoned. -/
def State.readTile (s : State) (a n : Nat) : List Byte × Bool :=
  match s.parkedTile? (a / 2 ^ 20) (a / 4096 % 256) with
  | none => (s.tiles.readBytes a n, s.tiles.poisoned a n)
  | some (slot, i) => s.readImage slot i (a % 4096) n

/-- A store of bytes at a tile, or its parked image. -/
def State.writeTile (s : State) (a : Nat) (bs : List Byte) (p : Bool) : State :=
  match s.parkedTile? (a / 2 ^ 20) (a / 4096 % 256) with
  | none => { s with tiles := s.tiles.store a bs p }
  | some (slot, i) => { s with dev := storeImage s.dev (s.storeAddr slot) i (a % 4096) bs p }

/-! ### Homes -/

/-- Bytes at their home with their poison; another package's are its answer (R49, R366, R369, R383).
Left open by the spec: log entry 6 (DESIGN CHOICE). -/
def State.readHome (s : State) (p : Place) (n : Nat) (r : Reply) : List Byte × Bool :=
  match p with
  | .dev a => if s.cxlLost a then (List.replicate n 0, true)
    else (s.dev.readBytes (s.storeAddr a) n, s.dev.poisoned (s.storeAddr a) n)
  | .host a => (s.host.readBytes a n, s.host.poisoned a n)
  | .tile a => if s.scratchUp (a / 2 ^ 24) then s.readTile a n else (List.replicate n 0, true)
  | .remote _ _ => match r with
    | .value w p => (bytesOf n w.toNat, p)
    | .none | .corrected | .uncorrectable | .refused | .ring | .bytes _ _ | .voteFail | .dissent _ _ =>
      (List.replicate n 0, true)

/-- A write at a home in this package or at the host; at another package's it changes nothing here. -/
def State.writeHome (s : State) (p : Place) (bs : List Byte) (poison : Bool) : State :=
  match p with
  | .dev a => if s.cxlLost a then s else { s with dev := s.dev.store (s.storeAddr a) bs poison }
  | .host a => { s with host := s.host.store a bs poison }.send (.memWrite .atPage [(a, bs)] poison)
  | .tile a => if s.scratchUp (a / 2 ^ 24) then s.writeTile a bs poison else s
  | .remote _ _ => s

/-! ### Copies (R52) -/

def State.copy? (s : State) (o : CopySet) (l : Place) : Option LineCopy :=
  s.copies.find? fun c => c.owner == o && c.line == l.bare

def State.dropCopy (s : State) (o : CopySet) (l : Place) : State :=
  { s with copies := s.copies.filter fun c => !(c.owner == o && c.line == l.bare) }

/-- Bytes of a line copy with a piece of a store applied. -/
def LineCopy.apply (c : LineCopy) (p : Piece) : LineCopy :=
  if p.access.place.line.bare = c.line then
    let off := p.access.place.addr % 64
    let n := p.bytes.length
    { c with
      bytes := c.bytes.zipIdx.map fun b => if off ≤ b.2 ∧ b.2 < off + n then p.bytes.getD (b.2 - off) 0 else b.1
      poison := c.poison.zipIdx.map fun w =>
        if off ≤ 4 * w.2 ∧ 4 * w.2 + 4 ≤ off + n then p.poison
        else if p.poison ∧ off < 4 * w.2 + 4 ∧ 4 * w.2 < off + n then true else w.1 }
  else c

/-- The effect of a store's pieces on copies (R56): the cluster's copies take the bytes, and the core's read-only
copies of the lines are dropped. -/
def State.storeCopies (s : State) (core cluster : Nat) (ps : List Piece) : State :=
  let kept := s.copies.filter fun c => !(c.owner == .core core && ps.any fun p => p.access.place.line.bare == c.line)
  { s with copies := kept.map fun c => if c.owner = .cluster cluster then ps.foldl LineCopy.apply c else c }

/-- The acquire of R59 at a scope for a core and its cluster. -/
def State.acquire (s : State) (core cluster : Nat) (scope : Scope) : State :=
  match scope with
  | .strand => s
  | .core | .cluster => { s with copies := s.copies.filter fun c => c.owner != .core core }
  | .die | .package | .domain | .system =>
    { s with copies := s.copies.filter fun c => c.owner != .core core && c.owner != .cluster cluster }

/-- The acquire of R60 for the executing strand. -/
def State.acquireMe (s : State) (scope : Scope) : State := s.acquire s.me.core s.me.cluster scope

/-- A line's value at its home with the uplink and fabric entries of a cluster applied in order (R52); the value of
another package's home, with the poison of its words, is `r`. -/
def State.lineValue (s : State) (cluster : Nat) (l : Place) (r : List Byte × List Bool) : LineCopy :=
  let words := (List.range 16).map fun i => s.readHome (l.plus (4 * i)) 4 .none
  let base : LineCopy :=
    if l.isRemote then
      ⟨.cluster cluster, l.bare, (List.range 64).map fun i => r.1.getD i 0, (List.range 16).map fun i => r.2.getD i false⟩
    else ⟨.cluster cluster, l, words.flatMap (·.1), words.map (·.2)⟩
  let mine := (s.fabric ++ s.uplinks).filter fun e => e.cluster == cluster
  (mine.flatMap (·.pieces)).foldl LineCopy.apply base

/-- The fill of an absent line (R52); `r` holds the bytes of another package's home and their poison. -/
def State.fill (s : State) (o : CopySet) (l : Place) (r : List Byte × List Bool) : State :=
  match s.copy? o l with
  | some _ => s
  | none =>
    match o with
    | .cluster n => { s with copies := s.lineValue n l r :: s.copies }
    | .core n =>
      match s.copy? (.cluster (n / 16)) l with
      | some c => { s with copies := { c with owner := o } :: s.copies }
      | none => { s with copies := { s.lineValue (n / 16) l r with owner := o } :: s.copies }

/-- Bytes that a copy holds of a place inside its line, and whether they are poisoned. -/
def LineCopy.read (c : LineCopy) (p : Place) (n : Nat) : List Byte × Bool :=
  let off := p.addr % 64
  ((c.bytes.drop off).take n, ((c.poison.drop (off / 4)).take ((off + n + 3) / 4 - off / 4)).any id)

/-- Whether no entry of a cluster's uplink and no fabric entry overlaps `n` bytes at `p` (R57, R58). -/
def State.homeClear (s : State) (cluster : Nat) (p : Place) (n : Nat) : Bool :=
  !(s.uplinks.any fun e => e.cluster == cluster && e.pieces.any fun q => q.access.place.overlap q.bytes.length p n) &&
  !(s.fabric.any fun e => e.pieces.any fun q => q.access.place.overlap q.bytes.length p n)

/-! ### When an item is performed (R55) -/

/-- The store entries that stand at the voter (R42). -/
def State.votedEntries (s : State) : List UpEntry :=
  s.votes.flatMap fun v =>
    if v.performed || v.closed.isSome then []
    else v.arrivals.filterMap fun a => match a.ballot with
      | .entry e => some e
      | .item _ | .spawn _ _ _ _ _ | .packet _ => none

/-- The items of a strand that stand at the voter (R42), with their numbers. -/
def State.votedItems (s : State) (k : StrandKey) : List (Nat × Body) :=
  s.votes.flatMap fun v =>
    if v.performed || v.closed.isSome then []
    else v.arrivals.filterMap fun a => match a.ballot with
      | .item b => if a.key = k then some (v.tag.n, b) else none
      | .entry _ | .spawn _ _ _ _ _ | .packet _ => none

/-- The items whose effects have left their queue and not reached all homes. -/
def State.outstanding (s : State) : List Ref :=
  (s.uplinks ++ s.fabric).map (·.ref) ++ s.bag.flatMap (·.refs) ++ s.votedEntries.map (·.ref)

/-- Whether bytes of a store that goes through a scratchpad window are on their way to its tile (R42, R55). -/
def State.tileOnWay (s : State) (r : Ref) : Bool :=
  (s.uplinks ++ s.votedEntries).any fun e => e.ref == r && e.pieces.any fun p => p.access.place.isTile

/-- Whether an item that waits in its queue after its perform step is performed at the narrow scopes: a store whose tile
bytes are written, or a transfer that is not at the voter (R42, R55). -/
def State.sentNarrow (s : State) (r : Ref) (e : Entry) : Bool :=
  match e.body with
  | .store _ => !s.tileOnWay r
  | .transfer _ => !(s.votes.any fun v => !v.performed && v.closed.isNone && v.arrivals.any fun a => a.key == r.key && v.tag.n == r.n)
  | .load _ | .atomic _ | .tag _ | .bar _ | .copy _ | .ring _ | .gate _ => false

/-- What the queue of a handle of a strand holds, on its core or kept for a crew that is out (R216). -/
def State.queueOf (s : State) (k : StrandKey) (h : HReg) : List Entry :=
  match s.strand? k with
  | some t => t.queue h
  | none => ((s.crew? k.crew).bind fun c => (c.out.find? fun o => o.idx == k.idx).map fun o => o.queues[h.toNat]).getD []

/-- Whether an item or gate has been performed at a scope. -/
def State.performedAt (s : State) (r : Ref) (scope : Scope) : Bool :=
  match (s.queueOf r.key r.h).find? fun e => e.n == r.n with
  | some e => e.sent && s.sentNarrow r e && (!scope.wide || !(s.outstanding.contains r))
  | none => !scope.wide || !(s.outstanding.contains r)

/-- The entries of a strand's queue, and the items of that handle that are on their way (R59, R66): what a gate or
a wait laid down now has to wait for. Left open by the spec: log entry 20 (DEDUCED). -/
def State.earlier (s : State) (t : Strand) (h : HReg) : List Ref :=
  ((t.queue h).map fun e => t.ref h e.n) ++ s.outstanding.filter fun r => r.key == t.key && r.h == h

/-- What FENCE and HJOINA wait for in all eight queues: the items, and the gates of HRECV, which R66 names; no other
gate is waited for on its own account (R156). Left open by the spec: log entry 20 (DEDUCED). -/
def State.earlierAll (s : State) (t : Strand) : List Ref :=
  (List.range 8).flatMap fun i =>
    let h := BitVec.ofNat 3 i
    (((t.queue h).filter fun e => !e.body.isBareGate).map fun e => t.ref h e.n) ++
      s.outstanding.filter fun r => r.key == t.key && r.h == h

/-- Left open by the spec: log entry 20 (DEDUCED). -/
def State.allPerformed (s : State) (rs : List Ref) (scope : Scope) : Bool := rs.all fun r => s.performedAt r scope

/-! ### Tags and barriers -/

/-- The tag word of R210. -/
def Tag.word (t : Tag) : Word :=
  num (t.state.toNat + 4 * t.xexp.toNat + 2 ^ 8 * t.xdone.toNat + (if t.overrun then 2 ^ 14 else 0) +
    2 ^ 16 * t.scale.toNat)

def Tag.ofWord (w notify : Word) : Tag where
  state := BitVec.ofNat 2 (fieldOf w 1 0)
  xexp := BitVec.ofNat 6 (fieldOf w 7 2)
  xdone := BitVec.ofNat 6 (fieldOf w 13 8)
  overrun := w.getLsbD 14
  scale := BitVec.ofNat 20 (fieldOf w 35 16)
  notify := notify

/-- A barrier's image (R344). -/
def Barrier.words (b : Barrier) : Word × Word :=
  (num (b.phase.toNat + 2 ^ 16 * b.expect.toNat + 2 ^ 23 * b.arrived.toNat + if b.poison then 2 ^ 30 else 0),
   num ((b.cur % 2 ^ 32).toNat + 2 ^ 32 * (b.next % 2 ^ 32).toNat))

def signed32 (n : Nat) : Int := if n < 2 ^ 31 then n else (n : Int) - 2 ^ 32

def Barrier.ofWords (a c : Word) : Barrier where
  phase := BitVec.ofNat 16 (fieldOf a 15 0)
  expect := BitVec.ofNat 7 (fieldOf a 22 16)
  arrived := BitVec.ofNat 7 (fieldOf a 29 23)
  poison := a.getLsbD 30
  cur := signed32 (fieldOf c 31 0)
  next := signed32 (fieldOf c 63 32)

/-- A tag, or its image while the tile is parked. -/
def State.tag (s : State) (core tile : Nat) : Tag :=
  match s.parkedTile? core tile with
  | none => mapGet .clear (256 * core + tile) s.tags
  | some (slot, i) =>
    let a := s.storeAddr (slot + 0x41000 + 16 * i)
    .ofWord (s.dev.readWord a 8) (s.dev.readWord (a + 8) 8)

/-- Whether a take of tile `tile` appended from core `core` is unperformed (R62). -/
def State.takePending (s : State) (core tile : Nat) : Bool :=
  s.strands.any fun t => t.core == core && t.entries.any fun e =>
    match e.body with
    | .tag i => i.tile == tile && i.kind == .take
    | _ => false

/-- What a wait sees of a tile whose state becomes `st`: PARK a change (R224), TWAIT and TTAKE the state that ends them
(R30, R62, R209); `free` says that no take of the tile is unperformed. -/
def Wait.seeTag (tile : Nat) (st : BitVec 2) (free : Bool) (w : Wait) : Wait :=
  match w with
  | .event true _ start limit => .event true true start limit
  | .tile c i rel scope none =>
    if i = tile ∧ (st = Tag.full ∨ st = Tag.poison) then .tile c i rel scope (some st) else w
  | .take i rel scope h none =>
    if i = tile ∧ (st = Tag.poison ∨ (st = Tag.full ∧ free)) then .take i rel scope h (some st) else w
  | w => w

/-- What a wait sees of a barrier that becomes `b`: PARK a change (R224), BARWAIT the poison or the phase that ends it
(R30, R220). -/
def Wait.seeBarrier (bar : Nat) (b : Barrier) (w : Wait) : Wait :=
  match w with
  | .event true _ start limit => .event true true start limit
  | .barrier i rel phase scope none =>
    if i = bar ∧ b.poison then .barrier i rel phase scope (some true)
    else if i = bar ∧ b.phase ≠ phase then .barrier i rel phase scope (some false)
    else w
  | w => w

/-- The waits of a crew's strands see a change. -/
def State.noteChange (s : State) (crew : Option Crew) (see : Wait → Wait) : State :=
  match crew with
  | none => s
  | some c =>
    let note : Strand → Strand := fun t => if t.key.crew = c.uid then { t with wait := t.wait.map see } else t
    { s with me := note s.me, others := s.others.map note }

def State.setTag (s : State) (core tile : Nat) (t : Tag) : State :=
  match s.parkedTile? core tile with
  | none =>
    let s' := { s with tags := mapSet .clear (256 * core + tile) t s.tags }
    if s.tag core tile = t then s'
    else s'.noteChange (s.tileCrew? core tile) (.seeTag tile t.state !(s.takePending core tile))
  | some (slot, i) =>
    let a := s.storeAddr (slot + 0x41000 + 16 * i)
    { s with dev := s.dev.writeBytes a (bytesOf 8 t.word.toNat ++ bytesOf 8 t.notify.toNat) }

def State.barrier (s : State) (core b : Nat) : Barrier :=
  match s.parkedBar? core b with
  | none => mapGet .clear (128 * core + b) s.bars
  | some (slot, j) =>
    let a := s.storeAddr (slot + 0x42000 + 16 * j)
    .ofWords (s.dev.readWord a 8) (s.dev.readWord (a + 8) 8)

def State.setBarrier (s : State) (core b : Nat) (v : Barrier) : State :=
  match s.parkedBar? core b with
  | none =>
    let old := s.barrier core b
    let s' := { s with bars := mapSet .clear (128 * core + b) v s.bars }
    if old.phase = v.phase ∧ old.poison = v.poison then s' else s'.noteChange (s.barCrew? core b) (.seeBarrier b v)
  | some (slot, j) =>
    let a := s.storeAddr (slot + 0x42000 + 16 * j)
    { s with dev := s.dev.writeBytes a (bytesOf 8 v.words.1.toNat ++ bytesOf 8 v.words.2.toNat) }

/-- The single test of R63: the phase completes when ARRIVED equals EXPECT and the current counter is 0. -/
def Barrier.test (b : Barrier) : Barrier :=
  if !b.poison && b.arrived == b.expect && b.cur == 0 then
    { b with phase := b.phase + 1, arrived := 0, cur := b.next, next := 0 }
  else b

/-- A free value: nothing constrains it. Left open by the spec: log entry 7 (DESIGN CHOICE). -/
def State.freshWord (s : State) : Word × State := (Config.freeWord s.free, { s with free := s.free + 1 })

/-- An error record of an event that has no counter: R397 gives its UNIT no value, nor an INFO to kinds 7 and 8.
Left open by the spec: log entry 9 (DESIGN CHOICE). -/
def State.recordFree (s : State) (kind die part : Nat) (addr : Word) (info : Option Word) : State :=
  s.freshWord.2.freshWord.2.errorRecord
    ⟨kind, die, s.freshWord.1.toNat % 2 ^ 16, part, addr, info.getD s.freshWord.2.freshWord.1⟩

/-- A free choice among a list. Left open by the spec: log entry 7 (DESIGN CHOICE). -/
def State.pick {α : Type} (s : State) (xs : List α) : Option α × State :=
  (xs[(Config.freeWord s.free).toNat % xs.length]?, { s with free := s.free + 1 })

/-- The bytes of a line that another package holds, with the poison of its words: free values. -/
def State.freeLine (s : State) : (List Byte × List Bool) × State :=
  (((List.range 8).flatMap fun i => bytesOf 8 (Config.freeWord (s.free + i)).toNat,
    (List.range 16).map fun i => (Config.freeWord (s.free + 8)).getLsbD i), { s with free := s.free + 9 })

end Sys2Proof.Machine
end

