-- ==== Sys2Proof/Machine/Translate.lean ====
section
/-!
DEFINITION. Translate.lean: steps 3 to 5 of the checks of an access (R182): address spaces (R325), the walk (R326,
R327), physical memory (R328, R353, R354, R369), scratchpad windows (R329), Preath windows (R365), worlds (R22,
R356), readiness (R404), the spaces of atomics (R70) and host-shared spaces (R333, R334, R373).
-/

namespace Sys2Proof.Machine

/-- Who makes an access: the unit whose caches translate it, its die, ASID, partition, level and world; a copy of a
voted crew; Insole, which uses physical addresses (R409); a unit that no scratchpad window serves (R329). `job` tells
the accesses of a unit apart (R373). -/
structure Who where
  unit : Nat
  job : Nat := 0
  die : Nat
  asid : Nat
  part : Nat
  level : Level
  secure : Bool
  voted : Bool
  phys : Bool
  noWin : Bool
  deriving DecidableEq, Repr

def Who.asker (w : Who) : Asker := ⟨w.unit, w.job⟩

/-- What an access does. -/
inductive Acc where
  | load | store | fetch
  | atomic (k : AtomKind) (scope : Scope)
  deriving DecidableEq, Repr

def Acc.isFetch : Acc → Bool
  | .fetch => true
  | .load | .store | .atomic _ _ => false

def Acc.page : Acc → PageKind
  | .load => .load
  | .store => .store
  | .fetch => .fetch
  | .atomic _ _ => .atomic

/-- What the checks come to: the access may be made at a place; it fails with a cause and its TRAP_INFO; or it has
to wait for a walk, a Translation Request or a page request. -/
inductive Xl where
  | at (p : Place) (pin : Bool)
  | fail (cause : Nat) (info : Word)
  | miss (k : WalkKey)
  | ats (k : PageKey)
  | page (k : PageKey)
  deriving DecidableEq, Repr

/-- ACCESS with a reason (R339). -/
def denied (a : Acc) (reason : Nat) : Xl := .fail Cause.access (num (reason * 2 ^ 12 + if a.isFetch then 2 ^ 10 else 0))

/-- XLATE_FAULT at a level of the walk (R327). -/
def noXlate (a : Acc) (level : Nat) : Xl := .fail Cause.xlateFault (num (level * 2 ^ 8 + if a.isFetch then 2 ^ 10 else 0))

/-- Whether the crew of a strand is a copy of a voted one. -/
def State.isVoted (s : State) (t : Strand) : Bool :=
  match s.crew? t.key.crew with
  | some c => c.voted
  | none => false

/-- A strand as the maker of an access. -/
def State.who (s : State) (t : Strand) : Who where
  unit := t.core
  die := t.die
  asid := t.asid.toNat
  part := t.part
  level := t.level
  secure := t.secure
  voted := s.isVoted t
  phys := t.isInsole
  noWin := false

/-! ### Physical memory -/

/-- The valid region of a partition that an address falls in (R353, R354). -/
def State.region? (s : State) (p a : Nat) : Option Nat :=
  (List.range 64).find? fun r =>
    let b := s.bar (0x310000 + 16 * r)
    b.getLsbD 63 && fieldOf b 59 56 == p && decide (fieldOf b 51 21 ≤ a / 2 ^ 21) &&
      decide (a / 2 ^ 21 ≤ s.barField (0x310008 + 16 * r) 51 21)

/-- Offset of register `r` of window `w` of partition `p` (R364). -/
def windowReg (p w r : Nat) : Nat := partReg p (0x800 + 32 * w + r)

/-- The enabled window of a partition whose local range holds an address (R365). -/
def State.window? (s : State) (p a : Nat) : Option Nat :=
  (List.range 64).find? fun w =>
    let cfg := s.bar (windowReg p w 0)
    let l := fieldOf cfg 5 0
    let base := (s.bar (windowReg p w 8)).toNat
    cfg.getLsbD 63 && l != 0 && decide (base ≤ a ∧ a < base + 2 ^ l)

/-- The lowest enabled window of a partition toward a node (R365). -/
def State.nodeWindow? (s : State) (p node : Nat) : Option Nat :=
  (List.range 64).find? fun w =>
    let cfg := s.bar (windowReg p w 0)
    cfg.getLsbD 63 && fieldOf cfg 43 32 == node

/-- The way through a window of a partition (R364, R365). -/
def State.via (s : State) (p w : Nat) : Via :=
  let cfg := s.bar (windowReg p w 0)
  ⟨p, w, fieldOf cfg 43 32, fieldOf cfg 59 56, cfg.getLsbD 62⟩

/-- The way to a tile or ring of another node (R365): through the lowest enabled window toward it. -/
def State.viaNode? (s : State) (p node : Nat) : Option Via := (s.nodeWindow? p node).map (s.via p)

/-- Whether an atomic is allowed in the space of a place at its scope (R70). -/
def atomicAllowed (k : AtomKind) (scope : Scope) (p : Place) : Bool :=
  match p with
  | .dev _ => true
  | .tile _ | .remote _ _ => scope != .system
  | .host _ => k == .xchg || k == .cas || k == .add

/-- The last check of step 4: an atomic in its space. Left open by the spec: log entry 11 (DEDUCED). -/
def checkSpace (a : Acc) (p : Place) (pin : Bool) : Xl :=
  match a with
  | .atomic k scope => if atomicAllowed k scope p then .at p pin else denied a 4
  | .load | .store | .fetch => .at p pin

/-- An access to physical memory (R22, R328, R354, R356, R365, R404).
Left open by the spec: log entry 11 (DEDUCED). -/
def State.physical (s : State) (w : Who) (a : Acc) (pa : Nat) (pin : Bool) : Xl :=
  let inRegion : Xl :=
    if w.phys then checkSpace a (.dev pa) pin
    else
      match s.region? w.part pa with
      | none => denied a 6
      | some r =>
        if (s.bar (0x310000 + 16 * r)).getLsbD 62 && !w.secure then denied a 2 else checkSpace a (.dev pa) pin
  if pa < hbmEnd then
    let d := pa / 2 ^ 36
    if pa % 2 ^ 36 < fieldOf (s.bar (stackReg d 0)) 4 0 * 2 ^ 32 ∧ s.ready (10 + d) ∧ s.ready d then inRegion
    else denied a 8
  else if cxlBase ≤ pa ∧ pa < cxlEnd then
    match s.decoder? pa with
    | none => denied a 8
    | some i => if (s.bar (decoderReg i 0)).getLsbD 62 && !w.secure then denied a 2 else inRegion
  else if 2 ^ 51 ≤ pa ∧ pa < 2 ^ 52 then
    match (if w.phys then none else s.window? w.part pa) with
    | none => denied a 6
    | some n =>
      if (s.bar (windowReg w.part n 0)).getLsbD 61 && !w.secure then denied a 2
      else
        checkSpace a (.remote (s.via w.part n)
          ((s.bar (windowReg w.part n 16)).toNat + (pa - (s.bar (windowReg w.part n 8)).toNat))) pin
  else denied a 8

/-! ### The walk (R326, R327, R329) -/

/-- Whether a WIN leaf names a core that exists (R329). -/
def winWellFormed (e : Word) : Bool := fieldOf e 51 31 == 0 && decide (fieldOf e 23 20 ≤ 11)

/-- The walk from table `t` at level `lv`, `fuel` = 4 − `lv`: the size and entry of the leaf, or the level of the
fault. An entry that is poisoned at its home does not translate. -/
def State.walkFrom (s : State) (va : Word) (t lv : Nat) : Nat → Except Nat (Nat × Word)
  | 0 => .error lv
  | fuel + 1 =>
    let shift := 42 - 13 * (lv - 1)
    let r := s.readHome (.dev (t + 8 * (va.toNat / 2 ^ shift % 2 ^ 13))) 8 .none
    let e := wordOfBytes r.1
    let addr := (e &&& bitsMask 51 16).toNat
    if r.2 || !e.getLsbD 0 || fieldOf e 63 52 != 0 || fieldOf e 15 8 != 0 then .error lv
    else if e.getLsbD 1 then
      let size := 2 ^ (16 + 13 * (3 - lv))
      if (!e.getLsbD 7 && addr % size != 0) || (e.getLsbD 7 && (decide (lv < 3) || !winWellFormed e)) then .error lv
      else .ok (size, e)
    else if lv = 3 ∨ hbmEnd ≤ addr then .error lv
    else s.walkFrom va addr (lv + 1) fuel

/-- Bytes of address that a table of level `lv` covers. -/
def tableSpan (lv : Nat) : Nat := 2 ^ (68 - 13 * lv)

/-- The tables of levels 2 and 3 that a walk from table `t` at level `lv` passes. -/
def State.walkTables (s : State) (va : Word) (t lv : Nat) : Nat → List (Nat × Nat)
  | 0 => []
  | fuel + 1 =>
    let r := s.readHome (.dev (t + 8 * (va.toNat / 2 ^ (42 - 13 * (lv - 1)) % 2 ^ 13))) 8 .none
    let e := wordOfBytes r.1
    if r.2 || !e.getLsbD 0 || e.getLsbD 1 || lv = 3 then []
    else
      let next := (e &&& bitsMask 51 16).toNat
      if hbmEnd ≤ next then [] else (lv + 1, next) :: s.walkTables va next (lv + 1) fuel

/-- The walk of R327 in an address space: a leaf as a unit caches it. -/
def State.walk (s : State) (k : WalkKey) : Except Nat Leaf :=
  let root := (s.bar (asroot k.asid) &&& bitsMask 51 16).toNat
  if hbmEnd ≤ root then .error 1
  else
    match s.walkFrom k.va root 1 3 with
    | .error l => .error l
    | .ok (size, e) => .ok ⟨k.unit, k.asid, k.va.toNat / size * size, size, e⟩

/-- The leaf that a unit's caches hold for an address. -/
def State.cached? (s : State) (k : WalkKey) : Option Leaf :=
  s.tlb.find? fun l =>
    l.unit == k.unit && l.asid == k.asid && decide (l.va ≤ k.va.toNat ∧ k.va.toNat < l.va + l.size)

/-- Whether a leaf permits an access (R327). Left open by the spec: log entry 11 (DEDUCED). -/
def leafPermits (e : Word) (level : Level) (a : Acc) : Bool :=
  (e.getLsbD 5 || level != .program) &&
  match a with
  | .load => e.getLsbD 2
  | .store => e.getLsbD 3
  | .atomic _ _ => e.getLsbD 2 && e.getLsbD 3
  | .fetch => e.getLsbD 4

/-- An access through a scratchpad window (R329). -/
def State.window (s : State) (w : Who) (a : Acc) (e : Word) (off : Nat) (pin : Bool) : Xl :=
  let die := fieldOf e 26 24
  let cluster := 12 * die + fieldOf e 23 20
  if w.noWin || die != w.die then denied a 3
  else if s.clusterPart cluster != some w.part then denied a 6
  else if s.clusterSecure cluster && !w.secure then denied a 2
  else checkSpace a (.tile (tileAddr (16 * cluster + fieldOf e 19 16) (16 * fieldOf e 30 27 + off / 4096) (off % 4096))) pin

/-- An access checked against a leaf. Left open by the spec: log entry 11 (DEDUCED). -/
def State.throughLeaf (s : State) (w : Who) (a : Acc) (va : Word) (l : Leaf) : Xl :=
  if !leafPermits l.entry w.level a then denied a 1
  else
    let off := va.toNat - l.va
    if l.entry.getLsbD 7 then s.window w a l.entry off (l.entry.getLsbD 6)
    else s.physical w a ((l.entry &&& bitsMask 51 16).toNat + off) (l.entry.getLsbD 6)

/-! ### Host-shared spaces (R333, R334, R373) -/

/-- The ATC entry of a die for an address of a PASID. -/
def State.atc? (s : State) (die pasid : Nat) (va : Word) : Option AtcEntry :=
  s.atc.find? fun e =>
    e.die == die && e.pasid == pasid && decide (e.va ≤ va.toNat ∧ va.toNat < e.va + e.size)

def AtcEntry.permits (e : AtcEntry) (a : Acc) : Bool :=
  match a with
  | .load => e.read
  | .store => e.write
  | .atomic _ _ => e.read && e.write
  | .fetch => e.exec

/-- The 4 KiB page of an address. -/
def pageOf (va : Word) : Word := va &&& ~~~0xFFF#64

/-- Whether a Translation Request for a page stands at its die (R373). -/
def State.atsAsked (s : State) (k : PageKey) : Bool :=
  s.ats.any fun r => r.key.die == k.die && s.pasid r.key.asid == s.pasid k.asid && r.key.va == k.va

/-- Whether a page request stands for a PASID, page and kind of access (R334, R373). -/
def State.pageAsked (s : State) (k : PageKey) : Bool :=
  s.pri.any fun r => s.pasid r.key.asid == s.pasid k.asid && r.key.va == k.va && r.key.kind == k.kind

/-- Left open by the spec: log entry 11 (DEDUCED). -/
def State.hostAccess (s : State) (w : Who) (a : Acc) (va : Word) : Xl :=
  let k : PageKey := ⟨w.die, w.asid, pageOf va, a.page⟩
  let deniedSpace := match a with
    | .atomic op scope => !atomicAllowed op scope (.host 0)
    | .load | .store | .fetch => false
  if deniedSpace then denied a 4
  else if w.voted then denied a 5
  else
    match s.atc? w.die (s.pasid w.asid) va with
    | some e => if e.permits a then .at (.host (e.frame + (va.toNat - e.va))) false else .page k
    | none => if s.pageAsked k then .page k else .ats k

/-! ### Requests to the host (R333, R334) -/

/-- The host function that serves a partition (R350). -/
def State.partFn (s : State) (p : Nat) : Nat := fieldOf (s.part p 0x060) 4 0

/-- The function that an ASID's requests leave through. -/
def State.asidFn (s : State) (a : Nat) : Nat := s.partFn (s.barField (asent a) 59 56)

/-- Whether a request is for a page of a PASID at a die. -/
def State.sameAts (s : State) (k : PageKey) (r : AtsReq) : Bool :=
  r.key.die == k.die && s.pasid r.key.asid == s.pasid k.asid && r.key.va == k.va

/-- Whether a page request is for a PASID, page and kind of access. -/
def State.samePri (s : State) (k : PageKey) (r : PageReq) : Bool :=
  s.pasid r.key.asid == s.pasid k.asid && r.key.va == k.va && r.key.kind == k.kind

/-- A Translation Request, unless one is outstanding for the PASID and page (R373); a unit's access waits on it. -/
def State.askAts (s : State) (k : PageKey) (priv : Bool) (unit : Option (PageKind × Asker)) : State :=
  if s.atsAsked k then
    { s with ats := s.ats.map fun r => if s.sameAts k r then { r with units := r.units ++ unit.toList } else r }
  else { s with ats := ⟨k, priv, unit.toList⟩ :: s.ats }.send (.translation k (s.pasid k.asid) priv)

/-- The page request groups that a function may have outstanding: as many as the host allocated (R334). -/
def State.priRoom (s : State) (fn : Nat) : Bool :=
  decide ((s.pri.countP fun r => r.fn == fn && r.sent) < mapGet 0 fn s.priLimits)

/-- A page request, unless one stands for the PASID, page and kind; sent while the function has room (R334).
Left open by the spec: log entry 27 (DESIGN CHOICE). -/
def State.askPage (s : State) (k : PageKey) (unit : Option Asker) : State :=
  if s.pageAsked k then
    { s with pri := s.pri.map fun r => if s.samePri k r then { r with units := r.units ++ unit.toList } else r }
  else
    let fn := s.asidFn k.asid
    let now := s.priRoom fn
    let s := { s with pri := s.pri ++ [⟨k, fn, now, unit.toList⟩] }
    if now then s.send (.pageRequest k (s.pasid k.asid)) else s

/-- A unit's access that finds no translation sends its Translation Request (`ats`) or page request and is made again;
none while the request that it waits on stands already (R334, R373). -/
def State.askUnit (s : State) (w : Who) (k : PageKey) (ats : Bool) : Option State :=
  if ats then
    if s.ats.any fun r => s.sameAts k r && r.units.contains (k.kind, w.asker) then none
    else some (s.askAts k (w.level != Level.program) (some (k.kind, w.asker)))
  else if s.pri.any fun r => s.samePri k r && r.units.contains w.asker then none
  else some (s.askPage k (some w.asker))

/-- A walk that an access waits for (R330), after those asked for before. -/
def State.askWalk (s : State) (k : WalkKey) : State :=
  if s.walks.contains k then s else { s with walks := s.walks ++ [k] }

/-! ### The checks -/

/-- Steps 3 to 5 of R182 for the access at `va`. -/
def State.xlate (s : State) (w : Who) (a : Acc) (va : Word) : Xl :=
  if w.phys then s.physical w a va.toNat false
  else if !s.asidOwned w.asid w.part then denied a 6
  else if fieldOf va 63 55 != 0 then noXlate a 0
  else if s.asidHost w.asid then s.hostAccess w a va
  else
    match s.cached? ⟨w.unit, w.asid, va⟩ with
    | some l => s.throughLeaf w a va l
    | none => .miss ⟨w.unit, w.asid, va⟩

/-- The refusal of a host page that a unit's access has asked for (R334).
Left open by the spec: log entry 27 (DESIGN CHOICE). -/
def State.pageRefused? (s : State) (w : Who) (k : PageKey) : Option Nat :=
  (s.pageFailed.find? fun f => f.by_ == w.asker && f.key.die == k.die && s.pasid f.key.asid == s.pasid k.asid &&
    f.key.va == k.va && f.key.kind == k.kind).map (·.code)

/-- The checks of a unit that is no strand: its own walk ends in the step of its access; a host page that was refused
fails it. Left open by the spec: log entry 27 (DESIGN CHOICE). -/
def State.xlateUnit (s : State) (w : Who) (a : Acc) (va : Word) : Xl :=
  let asked (k : PageKey) (x : Xl) : Xl := match s.pageRefused? w { k with kind := a.page } with
    | some code => .fail Cause.hostPageFail (num (code * 2 ^ 8))
    | none => x
  match s.xlate w a va with
  | .miss k => match s.walk k with
    | .ok l => s.throughLeaf w a va l
    | .error lv => noXlate a lv
  | .ats k => asked k (.ats k)
  | .page k =>
    if s.priStopped.contains (s.asidFn k.asid) then
      .fail Cause.hostPageFail (num (0x0F * 2 ^ 8))
    else asked k (.page k)
  | x => x

/-- What a unit's failed access leaves: the next one asks for its page anew. -/
def State.forgetPage (s : State) (w : Who) (va : Word) : State :=
  { s with pageFailed := s.pageFailed.filter fun f =>
      !(f.by_ == w.asker && f.key.die == w.die && s.pasid f.key.asid == s.pasid w.asid && f.key.va == pageOf va) }

/-- The makers of accesses that are no strands: a ring unit (R329, R356), a dispatcher, the engine of a cluster. -/
def State.ringWho (s : State) (n : Nat) : Who where
  unit := 3000 + n
  die := 9
  asid := fieldOf (s.ring n 15) 63 48
  part := s.barField (rngown n) 59 56
  level := .supervisor
  secure := (s.bar (rngown n)).getLsbD 62
  voted := false
  phys := false
  noWin := true

def State.dispatcherWho (s : State) (p asid : Nat) (job : Nat := 0) : Who where
  unit := 4000 + p
  job := job
  die := 8
  asid := asid
  part := p
  level := .supervisor
  secure := s.partSecure p
  voted := false
  phys := false
  noWin := true

def State.engineWho (s : State) (j : Job) : Who where
  unit := 2000 + j.engine
  job := 64 * j.seq.toNat + j.slot + 1
  die := j.engine / 12
  asid := j.asid
  part := j.part
  level := j.level
  secure := s.clusterSecure j.engine
  voted := false
  phys := false
  noWin := false

end Sys2Proof.Machine
end

