-- ==== Sys2Proof/Machine/Far.lean ====
section
/-!
DEFINITION. Far.lean: what leaves for other packages: packets (R362), their CRC, routes (R361), window counters
(R364), and events about far items (R366, R367).
-/

namespace Sys2Proof.Machine

/-! ### CRC -/

/-- One byte into a reflected CRC-32 of polynomial 0x04C11DB7. -/
def crc32Byte (c : BitVec 32) (b : Byte) : BitVec 32 :=
  (List.range 8).foldl (fun c _ => if c.getLsbD 0 then (c >>> 1) ^^^ 0xEDB88320#32 else c >>> 1) (c ^^^ b.setWidth 32)

/-- CRC-32, reflected, with initial and final value all ones (R362). -/
def crc32 (bs : List Byte) : BitVec 32 := (bs.foldl crc32Byte (BitVec.allOnes 32)) ^^^ BitVec.allOnes 32

/-! ### Codes (R54, R188) -/

end Sys2Proof.Machine

namespace Sys2Proof

def Scope.code : Scope → Nat
  | .strand => 0 | .core => 1 | .cluster => 2 | .die => 3 | .package => 4 | .domain => 5 | .system => 6

def Order.code : Order → Nat
  | .plain => 0 | .acquire => 1 | .release => 2 | .acqRel => 3

/-- Whether an order carries release, or acquire. -/
def Order.releases : Order → Bool
  | .plain | .acquire => false
  | .release | .acqRel => true
def Order.acquires : Order → Bool
  | .plain | .release => false
  | .acquire | .acqRel => true

end Sys2Proof

namespace Sys2Proof.Machine

/-- FN bits 4:0 of an ATOM. -/
def AtomKind.code : AtomKind → Nat
  | .xchg => 0 | .cas => 1 | .add => 2 | .and => 3 | .or => 4 | .xor => 5 | .min => 6 | .max => 7 | .minn => 8
  | .maxn => 9 | .fadd => 10 | .fmin => 11 | .fmax => 12 | .incw => 13 | .decw => 14

def AtomKind.ofCode (n : Nat) : Option AtomKind :=
  [AtomKind.xchg, .cas, .add, .and, .or, .xor, .min, .max, .minn, .maxn, .fadd, .fmin, .fmax, .incw, .decw][n]?

/-- FN of a ring item (R237). -/
def RingFn.code : RingFn → Nat
  | .put => 0 | .fwd => 4 | .acc => 5 | .rej => 6 | .mark => 7

/-! ### Packets (R362) -/

/-- A packet, by the fields of its header flit, and its data. -/
structure Packet where
  kind : Nat
  vc : Nat
  src : Nat
  dst : Nat
  srcPart : Nat
  dstPart : Nat
  secure : Bool
  release : Bool
  acquire : Bool
  poisoned : Bool
  addr : Word
  len : Nat
  op : Nat
  scope : Nat
  tag : Nat
  count : Nat
  opLo : Word
  opHi : Word
  mask : Word
  vote : Nat
  data : List Byte
  deriving DecidableEq, Repr

/-- Kinds of packets. -/
def Packet.read : Nat := 1
def Packet.write : Nat := 2
def Packet.atomic : Nat := 3
def Packet.transfer : Nat := 4
def Packet.token : Nat := 5
def Packet.response : Nat := 6
def Packet.markerKind : Nat := 7

/-- Control packets carry ring functions; which kind does is not stated, and this is the model's choice.
Left open by the spec: log entry 31 (DESIGN CHOICE). -/
def Packet.control : Nat := 8

/-- The data flits of a packet. -/
def Packet.flits (p : Packet) : Nat := (p.data.length + 63) / 64

/-- The bytes of a packet before its CRC is put in. -/
def Packet.body (p : Packet) (crc : Nat) : List Byte :=
  let flag (b : Bool) (v : Nat) : Nat := if b then v else 0
  bytesOf 1 p.kind ++ bytesOf 1 p.vc ++ bytesOf 2 (p.src % 4096) ++ bytesOf 2 (p.dst % 4096) ++
    bytesOf 1 (p.srcPart + 16 * p.dstPart) ++
    bytesOf 1 (flag p.secure 1 + flag p.release 2 + flag p.acquire 4 + flag p.poisoned 8 + 16 * p.flits) ++
    bytesOf 8 p.addr.toNat ++ bytesOf 2 p.len ++ bytesOf 1 p.op ++ bytesOf 1 p.scope ++ bytesOf 4 p.tag ++
    bytesOf 8 p.count ++ bytesOf 8 p.opLo.toNat ++ bytesOf 8 p.opHi.toNat ++ bytesOf 8 p.mask.toNat ++
    bytesOf 4 p.vote ++ bytesOf 4 crc ++ p.data ++ List.replicate (64 * p.flits - p.data.length) 0

/-- The packet as sent: its CRC covers it with the CRC field zero.
Left open by the spec: log entry 31 (DESIGN CHOICE). -/
def Packet.bytes (p : Packet) : List Byte := p.body (crc32 (p.body 0)).toNat

/-- The fields of a packet's bytes; `len` data bytes are kept. -/
def Packet.ofBytes (bs : List Byte) : Packet where
  kind := fieldAt bs 0 1
  vc := fieldAt bs 1 1
  src := fieldAt bs 2 2 % 4096
  dst := fieldAt bs 4 2 % 4096
  srcPart := fieldAt bs 6 1 % 16
  dstPart := fieldAt bs 6 1 / 16
  secure := fieldAt bs 7 1 % 2 == 1
  release := fieldAt bs 7 1 / 2 % 2 == 1
  acquire := fieldAt bs 7 1 / 4 % 2 == 1
  poisoned := fieldAt bs 7 1 / 8 % 2 == 1
  addr := num (fieldAt bs 0x08 8)
  len := fieldAt bs 0x10 2
  op := fieldAt bs 0x12 1
  scope := fieldAt bs 0x13 1
  tag := fieldAt bs 0x14 4
  count := fieldAt bs 0x18 8
  opLo := num (fieldAt bs 0x20 8)
  opHi := num (fieldAt bs 0x28 8)
  mask := num (fieldAt bs 0x30 8)
  vote := fieldAt bs 0x38 4
  data := (bs.drop 64).take (64 * (fieldAt bs 7 1 / 16 % 8))

/-- Whether a packet's length is that of its flits and its CRC is right. -/
def packetIntact (bs : List Byte) : Bool :=
  let flits := fieldAt bs 7 1 / 16 % 8
  decide (64 ≤ bs.length ∧ flits ≤ 4 ∧ bs.length = 64 + 64 * flits) &&
    fieldAt bs 0x3C 4 == (crc32 (bs.take 0x3C ++ [0, 0, 0, 0] ++ bs.drop 0x40)).toNat

/-- The operation byte of a head delivery, and of the vacancy notice of its tile (R260, R293).
Left open by the spec: log entry 31 (DESIGN CHOICE). -/
def deliveryOp : Nat := 0x40
def vacancyOp : Nat := 0x41

/-- The operation byte of an engine's read of one element of a ring (R279).
Left open by the spec: log entry 31 (DESIGN CHOICE). -/
def elementOp : Nat := 0x42

/-! ### Routes and windows -/

/-- Offset of register `r` of Preath port `p` (R360), and of the route entry of a node (R361). -/
def portReg (p r : Nat) : Nat := 0x3000 + 0x40 * p + r
def routeReg (node : Nat) : Nat := 0x80000 + 8 * node

def State.portUp (s : State) (p : Nat) : Bool := (s.bar (portReg p 0)).getLsbD 63

/-- Whether packets to a node find a port (R361). -/
def State.routed (s : State) (node : Nat) : Bool :=
  (s.bar (routeReg node)).getLsbD 63 &&
    (List.range 12).any fun p => (s.bar (routeReg node)).getLsbD p && s.portUp p

/-- REFUSED (63:32) or TIMEOUTS (31:0) of the window that an item went through moves on (R364, R366, R367). -/
def State.countWindow (s : State) (v : Via) (refused : Bool) : State :=
  let off := windowReg v.part v.win 24
  if refused then s.setBarField off 63 32 (s.barField off 63 32 + 1)
  else s.setBarField off 31 0 (s.barField off 31 0 + 1)

/-- The same for an item that goes by no window. -/
def State.countVia (s : State) (v : Option Via) (refused : Bool) : State :=
  match v with
  | some v => s.countWindow v refused
  | none => s

/-! ### Sending -/

/-- The fields of a packet by a way that say whence and whither it goes and in which world. The request tag is free.
Left open by the spec: log entry 31 (DESIGN CHOICE). -/
def State.header (s : State) (v : Via) (a : Nat) (secure : Bool) : Packet :=
  ⟨0, 0, s.barField 0x2000 11 0, v.node, v.part, v.rem, secure, false, false, false, num a, 0, 0, 0,
    (Config.freeWord s.free).toNat % 2 ^ 32, 0, 0, 0, 0, 0, []⟩

/-- The words of `n` bytes of data that are all poisoned or not, as a mask. -/
def wordsMask (n : Nat) (poison : Bool) : Word := if poison then BitVec.ofNat 64 (2 ^ ((n + 3) / 4) - 1) else 0

/-- The paths to and from a node: the ports that are UP and in the mask of its route entry (R67, R361). -/
def State.pathsTo (s : State) (node : Nat) : List Nat :=
  (List.range 12).filter fun p => (s.bar (routeReg node)).getLsbD p && s.portUp p

/-- The copies of the marker of a release (R67), one on each path: each names the request tag of the release, and how
many there are. Left open by the spec: log entry 31 (DESIGN CHOICE). -/
def State.sendMarkers (s : State) (v : Via) (p : Packet) : State :=
  (s.pathsTo v.node).foldl
    (fun (s : State) _ =>
      let s := { s with free := s.free + 1 }
      s.send (.packet v.node { s.header v 0 p.secure with
        kind := Packet.markerKind, vc := 3, opLo := num p.tag, opHi := num (s.pathsTo v.node).length }.bytes)) s

/-- What a packet carries of a vote at another package (R394): the tag that the copies of its item have in common, and
the number of this copy. -/
abbrev Cast := Option (VoteTag × Nat)

/-- The part in a vote of an item of a strand, if its crew is voted: copies number their items alike (R42). -/
def State.castOf (s : State) (k : StrandKey) (n part : Nat) : Cast :=
  (s.crew? k.crew).bind fun c => if c.voted then some (⟨c.launch, c.index, k.idx, n, part⟩, c.copy) else none

/-- The vote tag of an item of a strand, if its crew is voted. -/
def State.voteTag? (s : State) (t : Strand) (n part : Nat) : Option VoteTag := (s.castOf t.key n part).map (·.1)

/-- What the packets of a voted item have toward a node: what a copy that went before has been given; or, for the first,
a number that no other item in flight to the node has, with the writes that went before. Which number is free.
Left open by the spec: log entry 31 (DESIGN CHOICE). -/
def State.farVote (s : State) (node : Nat) (tag : VoteTag) : FarVote :=
  match s.farVotes.find? fun f => f.node == node && f.tag == tag with
  | some f => f
  | none =>
    let used := (s.farVotes.filter fun f => f.node == node).map (·.number)
    let from_ := (Config.freeWord (s.free + 1)).toNat
    let number := ((List.range (used.length + 1)).map fun i => (from_ + i) % 2 ^ 30).find? fun n => !used.contains n
    ⟨node, tag, number.getD 0, mapGet 0 node s.writesTo, []⟩

/-- One copy more of a voted item has been sent; its number is free again after the third. -/
def State.voteSent (s : State) (f : FarVote) (copy : Nat) : State :=
  let rest := s.farVotes.filter fun g => !(g.node == f.node && g.tag == f.tag)
  { s with farVotes := if f.sent.length < 2 then { f with sent := copy :: f.sent } :: rest else rest }

/-- A packet on its way. A release in COUNT mode says how many writes went before; in MARKER mode markers go before it
(R67). A voted item carries its copy and its number (R394), and counts once among the writes.
Left open by the spec: log entry 31 (DESIGN CHOICE). -/
def State.dispatch (s : State) (v : Via) (p : Packet) (cast : Cast := none) : State :=
  let vote := cast.map fun c => (s.farVote v.node c.1, c.2)
  let s := if p.release && v.marker then s.sendMarkers v p else s
  let p := if p.release && !v.marker then
      { p with count := (vote.map fun f => f.1.count).getD (mapGet 0 p.dst s.writesTo) } else p
  let word : Nat := match vote with
    | some f => (f.2 + 1) * 2 ^ 30 + f.1.number
    | none => 0
  let p := { p with vote := word }
  let s := { s with free := s.free + 2 }
  let s := if p.kind = Packet.write ∧ (vote.all fun f => f.1.sent.isEmpty) then
      { s with writesTo := mapSet 0 p.dst (mapGet 0 p.dst s.writesTo + 1) s.writesTo } else s
  let s := match vote with
    | some f => s.voteSent f.1 f.2
    | none => s
  s.send (.packet p.dst p.bytes)

/-- A disagreement counts at its core (R395, R396). -/
def State.countDissent (s : State) (core : Nat) : State :=
  let off := errReg (core / 192) (0xE00 + 8 * (core % 192))
  s.setBarField off 31 0 (min (s.barField off 31 0 + 1) (2 ^ 32 - 1))

/-- The same for a copy of a voted crew of the package whose item was voted at another one: that one keeps the record.
Left open by the spec: log entry 22 (DESIGN CHOICE). -/
def State.farDissent (s : State) (k : StrandKey) : State :=
  match s.crew? k.crew with
  | some c => s.countDissent c.core
  | none => s

/-- The poison mask of words. -/
def maskWord (ps : List Bool) : Word := maskOf fun i => ps.getD i false

/-! ### Events about a place -/

/-- TRAP_ADDR of REMOTE (R339): the global tile address of a tile; for a place that is none, no rule states it, and it
is a free value. Left open by the spec: log entry 10 (DEDUCED). -/
def State.remoteAddr (s : State) (p : Place) : Word × State :=
  match p with
  | .tile x => (gtOf (x / 2 ^ 20) (x / 4096 % 256) + num (x % 4096), s)
  | .dev _ | .host _ | .remote _ _ => s.freshWord

/-- REMOTE for strands whose access to a place is lost. -/
def State.raiseRemote (s : State) (ks : List StrandKey) (p : Place) : State :=
  ks.foldl (fun (t : State) (k : StrandKey) => t.raiseTo k Cause.remote (s.remoteAddr p).1 0) (s.remoteAddr p).2

/-- The event that tells a strand of an access that failed at its home (R51, R366, R369, R383). -/
def State.blame (s : State) (k : StrandKey) (cause : Nat) (a : Access) (reason : Nat) : State :=
  if cause = Cause.remote then s.raiseRemote [k] a.place
  else s.raiseTo k cause a.va (num (reason * 2 ^ 12 + a.lane))

end Sys2Proof.Machine
end

