-- ==== Sys2Proof/Machine/RingCore.lean ====
section
/-!
DEFINITION. RingCore.lean: a ring unit's indices and windows (R247, R262), its accesses to the ring block (R270,
R271), kept-record headers (R266, R268), what disables a ring (R246), and replay (R272).
-/

namespace Sys2Proof.Machine

/-! ### Indices (R247) -/

/-- Sample indices run modulo 2^48. -/
def idx (n : Int) : Nat := (n % 2 ^ 48).toNat

/-- x − y as a signed 48-bit difference. -/
def idxDiff (x y : Nat) : Int :=
  let d := idx ((x : Int) - y)
  if d < 2 ^ 47 then d else (d : Int) - 2 ^ 48

def idxLe (x y : Nat) : Bool := decide (idxDiff x y ≤ 0)
def idxMax (x y : Nat) : Nat := if idxLe x y then y else x
def idxMin (x y : Nat) : Nat := if idxLe x y then x else y

/-! ### Configuration (R245, R252) -/

def State.rgEnabled (s : State) (n : Nat) : Bool := (s.ring n 0).getLsbD 63
def State.rgProgram (s : State) (n : Nat) : Bool := (s.ring n 0).getLsbD 62
def State.rgPausable (s : State) (n : Nat) : Bool := (s.ring n 0).getLsbD 61
def State.rgSplit (s : State) (n : Nat) : Bool := (s.ring n 0).getLsbD 60
def State.rgN (s : State) (n : Nat) : Nat := 2 ^ fieldOf (s.ring n 0) 57 52
def State.rgHead (s : State) (n : Nat) : Nat := fieldOf (s.ring n 4) 47 0
def State.rgDepth (s : State) (n l : Nat) : Nat := fieldOf (s.ring n 5) (8 * l + 7) (8 * l)
def State.rgBlock (s : State) (n : Nat) : Nat := fieldOf (s.ring n 5) 47 32

/-- Element widths by type code 0x0 to 0xD (R79). -/
def typeWidth (t : Nat) : Nat :=
  match t with
  | 0 | 1 | 9 | 10 | 13 => 8
  | 2 | 3 | 6 | 7 => 16
  | 11 | 12 => 4
  | _ => 32

/-- Bytes of a sample by its size code (R245). -/
def sampleBytes (code : Nat) : Nat := 2 ^ (code + 1)

/-- Elements of a sample: 8 × wire size / width of the wire type (R252). -/
def State.rgElems (s : State) (n : Nat) : Nat :=
  8 * sampleBytes (fieldOf (s.ring n 0) 43 41) / typeWidth (fieldOf (s.ring n 0) 47 44)

/-- Bytes of a stored sample (R252). -/
def State.rgSize (s : State) (n : Nat) : Nat :=
  if s.rgProgram n then sampleBytes (fieldOf (s.ring n 0) 43 41)
  else s.rgElems n * typeWidth (fieldOf (s.ring n 0) 51 48) / 8

/-- The oldest retained sample (R247). -/
def State.rgOld (s : State) (n : Nat) (u : RingUnit) : Nat := idxMax u.start (idx ((s.rgHead n : Int) - s.rgN n))

/-- Whether a sample is retained (R247). -/
def State.rgRetained (s : State) (n : Nat) (u : RingUnit) (x : Nat) : Bool :=
  idxLe (s.rgOld n u) x && !idxLe (s.rgHead n) x

/-! ### Candidate records (R236) -/

def Cand.sample (c : Cand) : Nat := fieldOf c.lo 47 0
def Cand.ring (c : Cand) : Nat := fieldOf c.lo 53 48
def Cand.level (c : Cand) : Nat := fieldOf c.lo 55 54
def Cand.score (c : Cand) : Nat := fieldOf c.hi 31 0
def Cand.tag (c : Cand) : Nat := fieldOf c.hi 63 32

/-- The window of a candidate (R262): with VARPRE, PRE comes from the record's TAG. -/
def State.rgWindow (s : State) (n : Nat) (c : Cand) : Nat × Nat :=
  let w := s.ring n 3
  let pre := if w.getLsbD 63 then c.tag % 2 ^ 24 else fieldOf w 23 0
  (idx ((c.sample : Int) - pre), idx ((c.sample : Int) + fieldOf w 47 24))

/-! ### Accesses of the ring unit -/

/-- Why a ring-unit access is not made: a fault at an address, or the translation (`ats`) or host page it waits for. -/
inductive RingErr where
  | fault (a : Word)
  | wait (k : PageKey) (ats : Bool)
  deriving DecidableEq, Repr

/-- Where a ring-unit access goes, and whether its leaf has PIN set. -/
def State.ringPlace (s : State) (n : Nat) (a : Acc) (va : Word) : Except RingErr (Place × Bool) :=
  match s.xlateUnit (s.ringWho n) a va with
  | .at p pin => .ok (p, pin)
  | .fail _ _ | .miss _ => .error (.fault va)
  | .ats k => .error (.wait k true)
  | .page k => .error (.wait k false)

/-- What a unit's partition learns of an access that is lost: on a CXL port that is down (R369), toward a node without a
route (R367). -/
def State.unitLost (s : State) (w : Who) (p : Place) (va : Word) : State :=
  match p with
  | .remote v _ => (s.countWindow v false).faultRecord w.part Cause.remote 0 va
  | .dev _ | .host _ | .tile _ => s.faultRecord w.part Cause.access (num (8 * 2 ^ 12)) va

/-- What becomes of a unit's access at another package, which is free: it is answered, refused (R366), or gets no answer
(R367); the unit's partition learns of it. Left open by the spec: log entry 31 (DESIGN CHOICE). -/
def State.unitAnswered (s : State) (w : Who) (v : Via) (va : Word) : Bool × State :=
  let f := s.freshWord
  match f.1.toNat % 3 with
  | 0 => (true, f.2)
  | 1 => (false, (f.2.countWindow v true).faultRecord w.part Cause.access (num (6 * 2 ^ 12)) va)
  | _ => (false, (f.2.countWindow v false).faultRecord w.part Cause.remote 0 va)

/-- A write of a unit at a home, or its packet toward another package's. -/
def State.unitWrite (s : State) (w : Who) (p : Place) (pin : Bool) (va : Word) (bs : List Byte) (poison : Bool) :
    State :=
  match p with
  | .dev a => if s.cxlLost a then s.unitLost w p va else (s.noteCxl p w.asid pin).writeHome p bs poison
  | .host _ | .tile _ => s.writeHome p bs poison
  | .remote v a =>
    if !s.routed v.node then s.unitLost w p va
    else
      ((s.dispatch v { s.header v a w.secure with
        kind := Packet.write, len := bs.length, scope := Scope.code .system, poisoned := poison,
        mask := wordsMask bs.length poison, data := bs }).unitAnswered w v va).2

/-- Free bytes, and a free poison. -/
def State.freeBytes (s : State) (n : Nat) : (List Byte × Bool) × State :=
  (((List.range n).map fun i => (Config.freeWord (s.free + 1 + i)).setWidth 8, (Config.freeWord s.free).getLsbD 0),
    { s with free := s.free + 1 + n })

/-- A read of a unit at a home. What another package's holds is free; one without an answer gives 0 with poison. -/
def State.unitRead (s : State) (w : Who) (p : Place) (pin : Bool) (va : Word) (n : Nat) : State × (List Byte × Bool) :=
  match p with
  | .dev a =>
    if s.cxlLost a then (s.unitLost w p va, List.replicate n 0, true)
    else (s.noteCxl p w.asid pin, s.readHome p n .none)
  | .host _ | .tile _ => (s, s.readHome p n .none)
  | .remote v a =>
    if !s.routed v.node then (s.unitLost w p va, List.replicate n 0, true)
    else
      let t := s.dispatch v { s.header v a w.secure with
        kind := Packet.read, len := n, scope := Scope.code .system }
      let r := t.unitAnswered w v va
      if r.1 then (r.2.freeBytes n).swap else (r.2, List.replicate n 0, true)

/-- A write of the ring unit at a home. -/
def State.ringStore (s : State) (n : Nat) (va : Word) (bs : List Byte) (p : Bool) : Except RingErr State :=
  (s.ringPlace n .store va).map fun x => s.unitWrite (s.ringWho n) x.1 x.2 va bs p

/-- A read of the ring unit at a home. -/
def State.ringLoad (s : State) (n : Nat) (va : Word) (len : Nat) : Except RingErr (State × (List Byte × Bool)) :=
  (s.ringPlace n .load va).map fun x => s.unitRead (s.ringWho n) x.1 x.2 va len

/-- An address in the ring block (R270). -/
def State.ringBlock (s : State) (n off : Nat) : Word := s.ring n 13 + num off

/-- A sample in storage with its poison, which is its bit of the bitmap or that of its home (R245, R253). -/
def State.ringSample (s : State) (n x : Nat) : Except RingErr (State × (List Byte × Bool)) := do
  let pos := x % s.rgN n
  let size := s.rgSize n
  let r ← s.ringLoad n (s.ring n 1 + num (pos * size)) size
  let b ← r.1.ringLoad n (s.ring n 2 + num (pos / 8)) 1
  .ok (b.1, r.2.1, r.2.2 || b.2.2 || (b.2.1.headD 0).getLsbD (pos % 8))

/-- A counter of the ring block, 8 bytes. -/
def State.ringCounter (s : State) (n off : Nat) : Except RingErr (State × Nat) :=
  (s.ringLoad n (s.ringBlock n off) 8).map fun r => (r.1, natOfBytes r.2.1)

def State.ringSetCounter (s : State) (n off v : Nat) : Except RingErr State :=
  s.ringStore n (s.ringBlock n off) (bytesOf 8 v) false

def State.ringCount (s : State) (n off by_ : Nat) : Except RingErr State := do
  let v ← s.ringCounter n off
  v.1.ringSetCounter n off ((v.2 + by_) % 2 ^ 64)

/-- Offsets of the counters of level `l` (R270). -/
def levelCounter (l i : Nat) : Nat := 0x040 + 0x40 * l + 8 * i
namespace RingBlock
def deadSamples : Nat := 0
def lost : Nat := 1
def late : Nat := 2
def lostSamples : Nat := 3
def taken : Nat := 4
def forwarded : Nat := 5
def accepted : Nat := 6
def deadFrom : Nat := 7
def gaps : Nat := 0x140
def gapSamples : Nat := 0x148
def crcPoison : Nat := 0x150
def saturated : Nat := 0x158
def droppedFrames : Nat := 0x160
def staleFrames : Nat := 0x168
def trunc : Nat := 0x170
def logCount : Nat := 0x178
end RingBlock

/-- A lost candidate: its log entry, LOGCOUNT, and LOST of its level (R270, R271). Reasons: 0 QUEUE_FULL, 1 LATE,
2 ERROR. -/
def State.logLost (s : State) (n level : Nat) (c : Cand) (reason : Nat) : Except RingErr State := do
  let (s, lc) ← s.ringCounter n RingBlock.logCount
  let count := lc % 2 ^ 32
  let s ← s.ringStore n (s.ringBlock n (0x180 + 16 * (count % 16)))
    (bytesOf 8 (c.sample + 2 ^ 48 * level + 2 ^ 50 * reason) ++ bytesOf 8 (c.score + 2 ^ 32 * c.tag)) false
  let s ← s.ringSetCounter n RingBlock.logCount (lc / 2 ^ 32 * 2 ^ 32 + (count + 1) % 2 ^ 32)
  s.ringCount n (levelCounter level RingBlock.lost) 1

/-- A gap of `g` samples from `first`: its log entry and the counts (R251, R271). -/
def State.logGap (s : State) (n first g reason : Nat) : Except RingErr State := do
  let (s, lc) ← s.ringCounter n RingBlock.logCount
  let count := lc / 2 ^ 32
  let s ← s.ringStore n (s.ringBlock n (0x280 + 16 * (count % 16)))
    (bytesOf 8 (first + 2 ^ 48 * reason) ++ bytesOf 8 g) false
  let s ← s.ringSetCounter n RingBlock.logCount (lc % 2 ^ 32 + (count + 1) % 2 ^ 32 * 2 ^ 32)
  let s ← s.ringCount n RingBlock.gaps 1
  s.ringCount n RingBlock.gapSamples g

/-! ### Kept-record headers (R266, R268) -/

/-- Samples from x to y inclusive; none when y lies before x. -/
def idxCount (x y : Nat) : Nat := (idxDiff y x + 1).toNat

/-- The 64 bytes of a header. The last index is that of the record, the claim's or, at a disable, the last copied. -/
def Claim.header (c : Claim) (n last seq size kn : Nat) (split : Bool) : List Byte :=
  let flag (b : Bool) (v : Nat) : Nat := if b then v else 0
  let flags := flag (c.truncated != 0 || c.dead) 1 + flag c.joined 2 + flag c.late 4 + flag c.super.isSome 8 +
    flag c.group 16 + 32 * min 7 (c.accs.length - 1)
  let data := if split then c.offset % (kn * size) else c.first % kn * size
  bytesOf 6 c.first ++ bytesOf 1 n ++ bytesOf 1 flags ++ bytesOf 4 (idxCount c.first last) ++
    bytesOf 4 c.poisoned ++ bytesOf 4 c.lost ++ bytesOf 4 c.truncated ++ bytesOf 4 seq ++
    bytesOf 4 (c.super.getD 0) ++ bytesOf 8 data ++
    (List.range 4).flatMap fun i => bytesOf 6 ((c.accs.map (·.2)).getD i (2 ^ 48 - 1))

/-- The header area's slot for the next header, while it has room (R266). -/
def State.headerRoom (s : State) (n : Nat) : Bool :=
  let idx := s.ring n 11
  (fieldOf idx 31 0 + 2 ^ 32 - fieldOf idx 63 32) % 2 ^ 32 != 2 ^ fieldOf (s.ring n 10) 5 0

/-- A header written at system scope, and PROD advanced (R266). -/
def State.writeHeader (s : State) (n : Nat) (u : RingUnit) (c : Claim) (last : Nat) : Except RingErr State := do
  let kh := s.ring n 10
  let prod := fieldOf (s.ring n 11) 31 0
  let slot := (kh &&& bitsMask 63 6) + num (64 * (prod % 2 ^ fieldOf kh 5 0))
  let s ← s.ringStore n slot
    (c.header n last u.seq (s.rgSize n) (2 ^ fieldOf (s.ring n 9) 5 0) (s.rgSplit n)) false
  let s := s.setRing n 11 (withField (s.ring n 11) 31 0 (prod + 1))
  .ok (s.setUnit n { u with
    seq := u.seq + 1
    claims := u.claims.filter fun d => d.id != c.id
    closed := ⟨c.first, last, u.seq, c.poisoned, c.truncated⟩ :: u.closed })

/-! ### Disabling (R246) -/

/-- Whether a job is a keep-copy of a ring. -/
def Job.keepsFor (j : Job) (n : Nat) : Bool :=
  match j.keep with
  | some (r, _) => r == n
  | none => false

/-- The first index from `x` on that a claim has not copied: `skip` names what the keep area held before (R264). -/
def pastSkip (skip : List (Nat × Nat)) (x : Nat) : Nat → Nat
  | 0 => x
  | fuel + 1 =>
    match skip.find? fun r => idxLe r.1 x && idxLe x r.2 with
    | some r => pastSkip skip (idx ((r.2 : Int) + 1)) fuel
    | none => x

/-- The index after the last sample that a claim has copied or passed. -/
def Claim.reached (c : Claim) : Nat := pastSkip c.skip c.next c.skip.length

/-- A claim of a ring that stops closes with what it has copied (R246). -/
def State.closeStopped (s : State) (n : Nat) (c : Claim) : Except RingErr State :=
  match s.unit? n with
  | none => .ok s
  | some u => s.writeHeader n u c (idx ((c.reached : Int) - 1))

/-- What a ring that is enabled anew does with the claims of its last run: those close whose headers can be written now.
Left open by the spec: log entry 30 (DESIGN CHOICE). -/
def State.closeNow (s : State) (n : Nat) : State :=
  match s.unit? n with
  | none => s
  | some u => u.claims.foldl (fun (s : State) (c : Claim) =>
    if s.headerRoom n then
      match s.closeStopped n c with
      | .ok t => t
      | .error _ => s
    else s) s

/-- EN cleared (R246): the writer stops at once, candidates and holds go, keep-copies end; RING_DISABLE closes the
claims and ends the unit. -/
def State.disableRing (s : State) (n : Nat) : State :=
  let s := s.setRing n 0 (withBit (s.ring n 0) 63 false)
  match s.unit? n with
  | none => s
  | some u =>
    { s.setUnit n { u with stopping := true, holds := [], queues := [[], [], [], []], pending := [], due := [] } with
      jobs := s.jobs.map fun (j : Job) => if j.keepsFor n then { j with abort := true } else j }

/-- The unit of a ring that is enabled and not stopping. -/
def State.liveUnit? (s : State) (n : Nat) : Option RingUnit :=
  if s.rgEnabled n then (s.unit? n).filter fun u => !u.stopping else none

/-- A fault of a ring-unit access: the ring is disabled, and RING goes to its partition (R246). -/
def State.ringFault (s : State) (n : Nat) (a : Word) : State :=
  ((s.disableRing n).forgetPage (s.ringWho n) a).faultRecord (s.barField (rngown n) 59 56) Cause.ring 0 a

/-- A ring step from `s`, with its faults settled. Where it waits for a translation or a host page, the unit asks for
it; none while what it has asked for stands. -/
def State.settleRing (s : State) (n : Nat) (r : Except RingErr State) : Option State :=
  match r with
  | .ok t => some t
  | .error (.fault a) => some (s.ringFault n a)
  | .error (.wait k ats) => s.askUnit (s.ringWho n) k ats

/-- An effect at a ring inside another step: its fault is settled where it stands, its wait is passed on. -/
def State.orFault (s : State) (n : Nat) (r : Except RingErr State) : Except RingErr State :=
  match r with
  | .error (.fault a) => .ok (s.ringFault n a)
  | r => r

/-! ### Replay (R272) -/

/-- An update of one element of a list. -/
def setNth {α : Type} (xs : List α) (i : Nat) (v : α) : List α :=
  xs.zipIdx.map fun x => if x.2 = i then v else x.1

def RingUnit.queue (u : RingUnit) (l : Nat) : List Cand := u.queues.getD l []
def RingUnit.setQueue (u : RingUnit) (l : Nat) (q : List Cand) : RingUnit := { u with queues := setNth u.queues l q }
def RingUnit.replayOf (u : RingUnit) (l : Nat) : List Cand := u.replay.getD l []
def RingUnit.setReplay (u : RingUnit) (l : Nat) (q : List Cand) : RingUnit := { u with replay := setNth u.replay l q }

/-- Whether the unit holds a record at a level for a partition. -/
def RingUnit.held (u : RingUnit) (c : Cand) (l : Nat) : Bool := u.holds.any fun h => h.cand == c && h.level == l

def RingUnit.release (u : RingUnit) (c : Cand) : RingUnit := { u with holds := u.holds.eraseP fun h => h.cand == c }

/-- One listed record at replay, the youngest first: requeued at the front, or lost. -/
def State.replayOne (s : State) (n l : Nat) (c : Cand) : Except RingErr State :=
  match s.unit? n with
  | none => .ok s
  | some u =>
    if !u.held c l then .ok s
    else if idxLe (s.rgOld n u) (s.rgWindow n c).1 then
      let again : Cand := ⟨c.lo ||| (1#64 <<< 56), c.hi⟩
      .ok (s.setUnit n ((u.release c).setQueue l (again :: u.queue l)))
    else (s.setUnit n (u.release c)).logLost n l c 2

/-- A held record that the list does not name: lost. -/
def State.replayOther (s : State) (n l : Nat) (c : Cand) : Except RingErr State :=
  match s.unit? n with
  | none => .ok s
  | some u => (s.setUnit n (u.release c)).logLost n l c 2

/-- Replay of level `l` of ring `n`. Left open by the spec: log entry 17 (DEDUCED). -/
def State.replayLevel (s : State) (n l : Nat) : Except RingErr State :=
  match s.unit? n with
  | none => .ok s
  | some u =>
    let others := (u.holds.filter fun h => h.level == l && !(u.replayOf l).contains h.cand).map (·.cand)
    do
      let s ← (u.replayOf l).reverse.foldlM (fun s c => s.replayOne n l c) s
      let s ← others.foldlM (fun s c => s.replayOther n l c) s
      match s.unit? n with
      | none => .ok s
      | some u => .ok (s.setUnit n (u.setReplay l []))

/-- Replay on every ring and level of which a crew holds records, when a strand of it takes POISON from a checked load
(R272). The answer of a ring that has to wait is that of the whole step.
Left open by the spec: log entry 17 (DEDUCED). -/
def State.replayCrew (s : State) (crew : Nat) : Except (Option State) State :=
  s.rings.foldlM (fun t r =>
    [1, 2, 3].foldlM (fun t l =>
      if r.2.holds.any fun h => h.crew == crew && h.level == l then
        match t.replayLevel r.1 l with
        | .ok u => .ok u
        | .error (.fault a) => .ok (t.ringFault r.1 a)
        | .error (.wait k ats) => .error (s.askUnit (s.ringWho r.1) k ats)
      else .ok t) t) s

end Sys2Proof.Machine
end

