-- ==== Sys2Proof/Machine/Discard.lean ====
section
/-!
DEFINITION. Discard.lean: crews that leave without an end of their own: discarded crews (R320, R338, R386, R393).
-/

namespace Sys2Proof.Machine

/-- The crews that go together with a crew: itself, or the copies of its voted crew (R40). -/
def State.copiesOf (s : State) (uid : Nat) : List Crew :=
  match s.crew? uid with
  | none => []
  | some c =>
    if c.place = .retired then []
    else if c.voted then s.crews.filter fun d => d.launch == c.launch && d.index == c.index else [c]

/-- A job's copy in a state that has not ended. -/
def JobState.alive : JobState → Bool
  | .awaited | .queued | .running => true
  | .done | .faulted | .aborted => false

/-- One crew discarded (CMD 2 of R320): no strand issues again, its items go on performing, its copy jobs are
aborted, its launch never increments DONE_ADDR; a slot it lies in is freed.
Left open by the spec: log entry 25 (DESIGN CHOICE). -/
def State.discardOne (s : State) (c : Crew) : State :=
  let stop : Strand → Strand := fun t =>
    if t.key.crew = c.uid then { t with live := false, wait := none, events := [], deferred := [] } else t
  let s := { s with
    me := stop s.me
    others := s.others.map stop
    jobs := s.jobs.map fun (j : Job) =>
      if j.owner.crew = c.uid ∧ j.keep = none ∧ j.state.alive then { j with abort := true } else j }
  let s := match c.place with
    | .frozen n => s.setPart c.part 0x038 (withBit (s.part c.part 0x038) n false)
    | _ => s
  (s.onCrew c.uid fun d => { d with place := .gone, keep := false }).onLaunch c.launch fun l => { l with dropped := true }

/-- A crew discarded, with the other copies of a voted one. Left open by the spec: log entry 25 (DESIGN CHOICE). -/
def State.discardCrew (s : State) (uid : Nat) : State := (s.copiesOf uid).foldl State.discardOne s

/-- A crew discarded with its FAULT record (R338, R386, R393). Left open by the spec: log entry 16 (DEDUCED). -/
def State.discardFault (s : State) (c : Crew) (cause : Nat) (info addr : Word) : State :=
  (s.discardCrew c.uid).crewFault c cause info addr

/-- A double trap (R338); on Insole the processor halts (R409). Left open by the spec: log entry 16 (DEDUCED). -/
def State.doubleTrap (s : State) (cause : Nat) (info : Word) : State :=
  if s.me.isInsole then
    let s := s.onMe fun t => { t with live := false, wait := none }
    ({ s with boot := { s.boot with halted := true } }.setReady 41 false).recordFree 8 8 0xFF 0 none
  else
    match s.crew? s.me.key.crew with
    | some c => s.discardFault c cause info s.me.pc
    | none => s.onMe fun t => { t with live := false, wait := none }

end Sys2Proof.Machine
end

