-- ==== Sys2Proof/Machine/Ops.lean ====
section
/-!
DEFINITION. Ops.lean: what every instruction passes through (R105, R106): the guard, the wait for pending
registers, the count in ISSUED, the advance of PC, and taking a trap (R336 to R340).
-/

namespace Sys2Proof.Machine

/-- What a step answers. -/
abbrev Res := Host.Outcome State Fault Refusal

/-- What an instruction's effect comes to: it completes and PC moves past it; it completes and has written PC; it
traps with no effect (R105), `trapAny` where the spec names no TRAP_ADDR; or it waits (R29),
`hold` with an effect before the wait. -/
inductive Eff where
  | ok (s : State)
  | go (s : State)
  | trap (cause : Nat) (addr info : Word)
  | trapAny (cause : Nat) (info : Word)
  | wait (w : Wait)
  | hold (s : State) (w : Wait)

/-! ### Taking a trap -/

/-- TRAP_VEC: the partition's, or Insole's own (R323, R409). -/
def State.trapVec (s : State) : Word :=
  if s.me.isInsole then s.me.trapVec else s.part s.me.part 0x070

/-- TRAP_SCRATCH likewise. -/
def State.trapScratch (s : State) : Word :=
  if s.me.isInsole then s.me.trapScratch else s.part s.me.part 0x078

/-- Entering the handler (R336): the cause, address, detail, PC and level are saved, INHANDLER is set, x63 takes
TRAP_SCRATCH, and the strand goes to TRAP_VEC at supervisor level; Insole's keeps machine level (R409). -/
def State.enterHandler (s : State) (cause : Nat) (addr info : Word) (async : Bool) : State :=
  let vec := s.trapVec
  let scratch := s.trapScratch
  s.onMe fun t =>
    { t.setX 63 scratch false with
      trapCause := num cause
      trapAddr := addr
      trapInfo := info
      trapPc := t.pc
      prev := t.level.code
      async := async
      inHandler := true
      level := if t.isInsole then .machine else .supervisor
      pc := vec
      wait := none
      counted := false }

/-- A precise trap of the executing strand (R336); with INHANDLER set it is a double trap (R338). -/
def State.takeTrap (s : State) (cause : Nat) (addr info : Word) : State :=
  if s.me.inHandler then s.doubleTrap cause info
  else s.enterHandler cause addr info false

/-! ### The instruction frame (R105, R106) -/

/-- The count in ISSUED (R18): once an issue, however long the instruction then waits.
Left open by the spec: log entry 14 (DEDUCED). -/
def State.countIssue (s : State) : State :=
  s.onMe fun t => if t.counted then t else { t with issued := t.issued + 1, counted := true }

/-- The end of an instruction: no wait is left, and the next one counts for itself. -/
def State.endInstr (s : State) : State := s.onMe fun t => { t with wait := none, counted := false }

/-- The end of an instruction that leaves PC to the frame: PC moves past its words.
Left open by the spec: log entry 14 (DEDUCED). -/
def State.advance (s : State) (len : Word) : State := (s.onMe fun t => { t with pc := t.pc + len }).endInstr

/-- The strand waits; its PC stays at the instruction. What the wait asks the host for is sent. -/
def State.await (s : State) (w : Wait) : State :=
  let s := match w with
    | .ats k _ => s.askAts k (s.me.level != Level.program) none
    | .hostPage k _ => s.askPage k none
    | .ringPage n k ats =>
      if ats then s.askAts k true (some (k.kind, ⟨3000 + n, 0⟩)) else s.askPage k (some ⟨3000 + n, 0⟩)
    | .walk k _ => s.askWalk k
    | _ => s
  s.onMe fun t => { t with wait := some w }

/-- What follows from an effect, for an instruction of `len` bytes. Left open by the spec: log entry 10 (DEDUCED). -/
def State.settle (s : State) (len : Word) (e : Eff) : State :=
  match e with
  | .ok t => t.advance len
  | .go t => t.endInstr
  | .trap c a i => s.takeTrap c a i
  | .trapAny c i => s.freshWord.2.takeTrap c s.freshWord.1 i
  | .wait w => s.await w
  | .hold t w => t.await w

/-- The frame of every instruction. Guarded off, it counts in ISSUED, moves PC and does nothing else. Otherwise
it waits while a register it reads or writes is pending (`xs`, `vs`), and then has its effect.
Left open by the spec: log entry 13 (DEDUCED). -/
def frameOf (len : Word) (g : Guard) (xs : List XReg) (vs : List VReg) (eff : State → Eff) (s : State) : Res :=
  if !s.guardOn g then .next (s.countIssue.advance len)
  else if s.me.pending xs vs then .next (s.await (.regs xs vs))
  else .next (s.countIssue.settle len (eff s.countIssue))

/-- The frame of an instruction of one word. -/
def frame (g : Guard) (xs : List XReg) (vs : List VReg) (eff : State → Eff) (s : State) : Res :=
  frameOf 8 g xs vs eff s

end Sys2Proof.Machine
end

