-- ==== Sys2Proof/Machine/Flags.lean ====
section
/-!
DEFINITION. Flags.lean: the conditions of compares (R138, R147), the rounding mode an instruction uses (R81, R83,
R111), and the flags it leaves in FPFLAGS (R19, R87).
-/

namespace Sys2Proof.Machine

/-- The integer conditions of R138. -/
inductive ICond where
  | eq | ne | lt | ge | le | gt | ltn | gen | len | gtn | tst | ntst
  deriving DecidableEq, Repr

/-- The truth of an integer condition, signed or natural as it requires (R138). -/
def ICond.holds {n : Nat} (c : ICond) (a b : BitVec n) : Bool :=
  match c with
  | .eq => a == b
  | .ne => a != b
  | .lt => a.slt b
  | .ge => !a.slt b
  | .le => !b.slt a
  | .gt => b.slt a
  | .ltn => a.ult b
  | .gen => !a.ult b
  | .len => !b.ult a
  | .gtn => b.ult a
  | .tst => (a &&& b) != 0
  | .ntst => (a &&& b) == 0

/-- A compare's truth combined with the old condition (R138). -/
def combine (k : Comb) (old t : Bool) : Bool :=
  match k with
  | .set => t
  | .and => old && t
  | .or => old || t

/-- The mode FPMODE.RM names for an instruction with no random-bits operand: .rs is taken as .rne (R19, R83). -/
def modeOfRm (rm : BitVec 3) : RMode :=
  match rm with
  | 1#3 => .rtz
  | 2#3 => .rdn
  | 3#3 => .rup
  | _ => .rne

/-- The mode of an instruction: the one it names, or FPMODE.RM as read at issue (R111). -/
def State.mode (s : State) (r : Rnd) : RMode :=
  match r with
  | .dyn => modeOfRm s.me.fpmode
  | .rne => .rne
  | .rtz => .rtz
  | .rdn => .rdn
  | .rup => .rup

/-- Flags raised join FPFLAGS, which hardware only sets (R19). -/
def State.raise (s : State) (f : Flags) : State := s.onMe fun t => { t with fpflags := t.fpflags ||| f }

end Sys2Proof.Machine
end

