-- ==== Sys2Proof/Machine/Operands.lean ====
section
/-!
DEFINITION. Operands.lean: effective addresses (R110, R181, R194), the checks made at issue on an access (R182,
R194), tile and barrier operands (R205, R206), and what appends an item (R29, R50).
-/

namespace Sys2Proof.Machine

/-! ### Values of operands -/

def disp16 (d : BitVec 16) : Word := d.signExtend 64

/-- Log2 and bytes of an access size (R127). -/
def sizeLog : Size → Nat
  | .s8 => 0 | .s16 => 1 | .s32 => 2 | .s64 => 3
def sizeOf_ (z : Size) : Nat := 2 ^ sizeLog z

/-- X[A] + (X[B] << k) + disp. -/
def State.indexed (s : State) (a b : XReg) (k : Nat) (d : BitVec 16) : Word := s.xr a + (s.xr b <<< k) + disp16 d

/-- The lanes of a mask, rising. -/
def lanesOf (m : Word) : List Nat := (List.range 64).filter m.getLsbD

/-! ### The checks of one access (R182) -/

/-- A failing check, or the access that passed. -/
inductive Chk where
  | pass (a : Access)
  | stop (e : Eff)

/-- HOST_PAGE_FAIL with its response code (R334). -/
def hostPageFail (addr : Word) (lane code : Nat) : Eff := .trap Cause.hostPageFail addr (num (code * 2 ^ 8 + lane))

/-- The voter of a device address (R394): a slice of its die's cache, or the home agent of its CXL port, numbered from
16 on die 8. -/
def State.voter (s : State) (a : Nat) : Nat × Nat :=
  if a < hbmEnd then (a / 2 ^ 36, (Config.homeSlice a).val) else (8, 16 + ((s.decoder? a).map (· / 4)).getD 0)

/-- Whether a voted access to device memory finds its home's vote buffer full (R43, R394). -/
def State.voteBufferFull (s : State) (a : Nat) : Bool :=
  decide (32 ≤ (s.voteBufs.countP fun b => match b.home with
    | .dev x => s.voter x == s.voter a
    | .host _ | .tile _ | .remote _ _ => false))

/-- Steps 3 to 5 of R182. Left open by the spec: log entry 22 (DESIGN CHOICE). -/
def State.checkPlace (s : State) (acc : Acc) (addr : Word) (lane : Nat) (w : Waiter) : Chk :=
  let who := s.who s.me
  match s.xlate who acc addr with
  | .at p pin =>
    let full : Bool := match p with
      | .dev a => s.isVoted s.me && (acc == Acc.load) && s.voteBufferFull a
      | .host _ | .tile _ | .remote _ _ => false
    if full then .stop (.wait (.voteBuffer p.addr)) else .pass ⟨lane, addr, some who.asid, p, pin⟩
  | .fail c info => .stop (.trap c addr (info ||| num lane))
  | .miss k => .stop (.wait (.walk k ⟨addr, lane, w⟩))
  | .ats k => .stop (.wait (.ats k ⟨addr, lane, w⟩))
  | .page k =>
    if s.priStopped.contains (s.asidFn k.asid) then .stop (hostPageFail addr lane 0x0F)
    else .stop (.wait (.hostPage k ⟨addr, lane, w⟩))

/-- The checks of R182 on one access: `poisoned` says that an address register is. -/
def State.checkAccess (s : State) (acc : Acc) (addr : Word) (align lane : Nat) (poisoned : Bool) (w : Waiter) : Chk :=
  if poisoned then .stop (.trap Cause.poison 0 (num lane))
  else if addr.toNat % align ≠ 0 then .stop (.trap Cause.misalign addr (num lane))
  else s.checkPlace acc addr lane w

/-- The accesses of several lanes, checked lane by lane; `then_` receives them all. -/
def checkAll (check : Nat → Chk) (lanes : List Nat) (then_ : List Access → Eff) : Eff :=
  match lanes with
  | [] => then_ []
  | l :: ls => match check l with
    | .stop e => e
    | .pass a => checkAll check ls fun as => then_ (a :: as)

/-! ### The checks of a local scratchpad access (R194) -/

/-- An absolute address of a byte of the crew's scratchpad. -/
def State.localPlace (s : State) (addr : Nat) : Place :=
  .tile (tileAddr s.me.core (s.me.ids.tileBase.toNat + addr / 4096) (addr % 4096))

/-- Whether `n` bytes at a local address lie in one tile of the crew. -/
def State.inTiles (s : State) (addr : Word) (n : Nat) : Bool :=
  decide (addr.toNat < 2 ^ 20 ∧ addr.toNat / 4096 < s.me.ids.tileCount.toNat ∧ addr.toNat % 4096 + n ≤ 4096)

/-- The checks of R194 on one access of `n` bytes; `beyond` says that it lies beyond the end of the tile that holds
the base of a contiguous vector form. -/
def State.checkLocal (s : State) (addr : Word) (n lane : Nat) (poisoned beyond : Bool) : Chk :=
  if poisoned then .stop (.trap Cause.poison 0 (num lane))
  else if addr.toNat % n ≠ 0 then .stop (.trap Cause.misalign addr (num lane))
  else if !s.inTiles addr n || beyond then .stop (.trap Cause.space addr (num lane))
  else .pass ⟨lane, addr, none, s.localPlace addr.toNat, false⟩

/-! ### Appending (R29, R50) -/

/-- The entries a handle queue holds at most (R11). -/
def queueCap : Nat := 64

/-- An item or gate at the end of a queue of the executing strand. -/
def Strand.append (t : Strand) (h : HReg) (b : Body) : Strand :=
  { t.setQueue h (t.queue h ++ [⟨t.appended, b, false⟩]) with appended := t.appended + 1 }

/-- The next item, or the wait for room in its queue. -/
def State.enqueue (s : State) (h : HReg) (b : Body) : Eff :=
  if (s.me.queue h).length < queueCap then .ok (s.onMe fun t => t.append h b) else .wait (.queue h 1)

/-- Several items together, or the wait for room for all of them. -/
def State.enqueueAll (s : State) (h : HReg) (bs : List Body) : Eff :=
  if (s.me.queue h).length + bs.length ≤ queueCap then .ok (s.onMe fun t => bs.foldl (fun t b => t.append h b) t)
  else .wait (.queue h bs.length)

/-! ### Earlier items of the strand that an instruction waits for (R156, R197, R223, R230) -/

/-- The accesses of an item that are still to be made, with their sizes. -/
def Body.awaits : Body → List (Access × Nat)
  | .load i => i.todo.map fun a => (a, i.bytes)
  | .store i => (i.pieces.filter fun p => !i.written.contains p.access.lane).map fun p => (p.access, p.bytes.length)
  | .atomic i => [(i.access, if i.w64 then 8 else 4)]
  | .transfer _ | .tag _ | .bar _ | .copy _ | .ring _ | .gate _ => []

/-- The accesses of an item with their sizes, made or not: it is performed as one (R55). -/
def Body.touches : Body → List (Access × Nat)
  | .load i => (i.got.map (·.access) ++ i.todo).map fun a => (a, i.bytes)
  | .store i => i.pieces.map fun p => (p.access, p.bytes.length)
  | .atomic i => [(i.access, if i.w64 then 8 else 4)]
  | .transfer _ | .tag _ | .bar _ | .copy _ | .ring _ | .gate _ => []

/-- Entries of the strand's queues that satisfy a predicate, as references. -/
def Strand.entriesWhere (t : Strand) (f : Body → Bool) : List Ref :=
  (List.range 8).flatMap fun i =>
    let h := BitVec.ofNat 3 i
    ((t.queue h).filter fun e => f e.body).map fun e => t.ref h e.n

/-- The strand's unperformed local loads and stores (only stores with `stores`) that touch given bytes of
scratchpad. -/
def State.ownScratch (s : State) (stores : Bool) (a n : Nat) : List Ref :=
  s.me.entriesWhere fun b =>
    (match b with
     | .store _ => true
     | _ => !stores) && b.touches.any fun x => x.1.asid.isNone && x.1.place.overlap x.2 (.tile a) n

/-- An effect after the wait for earlier items. -/
def afterItems (rs : List Ref) (e : Eff) : Eff := if rs.isEmpty then e else .wait (.items rs .strand)

/-! ### Tile and barrier operands (R205, R206) -/

/-- The registers a tile or barrier operand reads. -/
def tileRegs : TileRef → List XReg
  | .imm _ => []
  | .reg c => [c]

/-- A tile or barrier number below `count`, or its trap. -/
def State.refNumber (s : State) (r : TileRef) (count : Nat) (then_ : Nat → Eff) : Eff :=
  let go (n : Word) : Eff :=
    if 255 < n.toNat ∨ count ≤ n.toNat then .trap Cause.space n 0 else then_ n.toNat
  match r with
  | .imm n => go (n.setWidth 64)
  | .reg c => if s.xPois c then .trap Cause.poison 0 0 else go (s.xr c)

/-- A crew-relative tile and the absolute one. Left open by the spec: log entry 13 (DEDUCED). -/
def State.tileRef (s : State) (r : TileRef) (then_ : Nat → Nat → Eff) : Eff :=
  s.refNumber r s.me.ids.tileCount.toNat fun n => then_ n (s.me.ids.tileBase.toNat + n)

/-- Left open by the spec: log entry 13 (DEDUCED). -/
def State.barRef (s : State) (r : TileRef) (then_ : Nat → Nat → Eff) : Eff :=
  s.refNumber r s.me.ids.barCount.toNat fun n => then_ n (s.me.ids.barBase.toNat + n)

/-! ### Global tile addresses (R206) -/

def gtNode (w : Word) : Nat := fieldOf w 63 52
def gtCluster (w : Word) : Nat := 12 * fieldOf w 47 45 + fieldOf w 44 41
def gtCore (w : Word) : Nat := 16 * gtCluster w + fieldOf w 40 37
def gtTile (w : Word) : Nat := fieldOf w 19 12
def gtOffset (w : Word) : Nat := fieldOf w 11 0

/-- Whether a global tile address is well formed, bar the offset of a token or notice. -/
def gtWellFormed (w : Word) : Bool :=
  fieldOf w 51 48 == 0 && fieldOf w 36 20 == 0 && decide (fieldOf w 44 41 < 12)

/-- Whether a node number names the package (R206, R359). -/
def State.isOwnNode (s : State) (n : Nat) : Bool := n == 0xFFF || n == fieldOf (s.bar 0x2000) 11 0

/-- The way of a partition's transfer to a tile of another node (R365). -/
def State.tileVia (s : State) (part : Nat) (w : Word) : Option Via :=
  if s.isOwnNode (gtNode w) then none else s.viaNode? part (gtNode w)

/-- The ACCESS reason with which a target tile is refused at issue, if it is (R22, R206, R365, R404). -/
def State.targetDenied (s : State) (part : Nat) (secure : Bool) (w : Word) : Option Nat :=
  if s.isOwnNode (gtNode w) then
    if !s.ready (gtCluster w / 12) then some 8
    else if s.clusterPart (gtCluster w) != some part then some 6
    else if s.clusterSecure (gtCluster w) && !secure then some 2 else none
  else
    match s.nodeWindow? part (gtNode w) with
    | none => some 6
    | some n => if (s.bar (windowReg part n 0)).getLsbD 61 && !secure then some 2 else none

/-- The check of a target tile at issue; Insole has no partition (R409). -/
def State.checkTarget (s : State) (w : Word) (e : Eff) : Eff :=
  match (if s.me.isInsole then some 6 else s.targetDenied s.me.part s.me.secure w) with
  | some r => .trap Cause.access w (num (r * 2 ^ 12))
  | none => e

end Sys2Proof.Machine
end

