-- ==== Sys2Proof/Machine/Atomic.lean ====
section
/-!
DEFINITION. Atomic.lean: the atomics of R187 and R188.
-/

namespace Sys2Proof.Machine

/-- The new value of an atomic over `old` (R188), on the operand's width. -/
def atomInt {n : Nat} (k : AtomKind) (old b c : BitVec n) : BitVec n :=
  match k with
  | .xchg => b
  | .cas => if old = c then b else old
  | .add => old + b
  | .and => old &&& b
  | .or => old ||| b
  | .xor => old ^^^ b
  | .min => if b.slt old then b else old
  | .max => if old.slt b then b else old
  | .minn => if b.ult old then b else old
  | .maxn => if old.ult b then b else old
  | .incw => if b.ule old then 0 else old + 1
  | .decw => if old = 0 ∨ b.ult old then b else old - 1
  | .fadd => BitVec.ofNat n (fAdd .f32 .rne old.toNat b.toNat).code
  | .fmin => BitVec.ofNat n (fMinMax .f32 false old.toNat b.toNat).code
  | .fmax => BitVec.ofNat n (fMinMax .f32 true old.toNat b.toNat).code

def atomNew (k : AtomKind) (w64 : Bool) (old b c : Word) : Word :=
  if w64 then atomInt k old b c
  else (atomInt k (old.setWidth 32) (b.setWidth 32) (c.setWidth 32) : Lane).setWidth 64

/-- ATOM: its checks and its item (R187, R188). A poisoned operand or compare value does not trap. -/
def atomOp (g : Guard) (k : AtomKind) (d a b : XReg) (c : Option XReg) (disp : BitVec 16) (w64 : Bool) (md : Md)
    (s : State) : Res :=
  frame g (d :: a :: b :: c.toList) [] (fun s =>
    match s.checkAccess (.atomic k md.scope) (s.xr a + disp16 disp) (if w64 then 8 else 4) 0 (s.xPois a) .plain with
    | .stop e => e
    | .pass acc =>
      s.enqueue md.h (.atomic ⟨k, acc, w64, s.xr b, (c.map s.xr).getD 0, s.xPois b || c.any s.xPois,
        if d = 0 then none else some d, s.me.pc, md.order, md.scope⟩)) s

def atomX (g : Guard) (k : AtomKind) (o : AtomOp) (s : State) : Res := atomOp g k o.d o.a o.b none o.disp o.w64 o.md s
def atomF (g : Guard) (k : AtomKind) (o : AtomFOp) (s : State) : Res := atomOp g k o.d o.a o.b none o.disp false o.md s

def execAtomXchg (g : Guard) (o : AtomOp) (s : State) : Res := atomX g .xchg o s
def execAtomCas (g : Guard) (o : AtomCasOp) (s : State) : Res :=
  atomOp g .cas o.d o.a o.b (some o.c) o.disp o.w64 o.md s
def execAtomAdd (g : Guard) (o : AtomOp) (s : State) : Res := atomX g .add o s
def execAtomAnd (g : Guard) (o : AtomOp) (s : State) : Res := atomX g .and o s
def execAtomOr (g : Guard) (o : AtomOp) (s : State) : Res := atomX g .or o s
def execAtomXor (g : Guard) (o : AtomOp) (s : State) : Res := atomX g .xor o s
def execAtomMin (g : Guard) (o : AtomOp) (s : State) : Res := atomX g .min o s
def execAtomMax (g : Guard) (o : AtomOp) (s : State) : Res := atomX g .max o s
def execAtomMinn (g : Guard) (o : AtomOp) (s : State) : Res := atomX g .minn o s
def execAtomMaxn (g : Guard) (o : AtomOp) (s : State) : Res := atomX g .maxn o s
def execAtomFadd (g : Guard) (o : AtomFOp) (s : State) : Res := atomF g .fadd o s
def execAtomFmin (g : Guard) (o : AtomFOp) (s : State) : Res := atomF g .fmin o s
def execAtomFmax (g : Guard) (o : AtomFOp) (s : State) : Res := atomF g .fmax o s
def execAtomIncw (g : Guard) (o : AtomOp) (s : State) : Res := atomX g .incw o s
def execAtomDecw (g : Guard) (o : AtomOp) (s : State) : Res := atomX g .decw o s

end Sys2Proof.Machine
end

