-- ==== Sys2Proof/Machine/Barrier.lean ====
section
/-!
DEFINITION. Barrier.lean: BAR (R217 to R221), and what reaches a barrier (R63, R219, R221).
-/

namespace Sys2Proof.Machine

/-! ### Effects at a barrier -/

def inInt32 (n : Int) : Bool := decide (-2 ^ 31 ≤ n ∧ n < 2 ^ 31)

/-- An arrival (R219): one that finds ARRIVED equal to EXPECT poisons the barrier; `true` says so. -/
def Barrier.arrive (b : Barrier) : Barrier × Bool :=
  if b.arrived = b.expect then ({ b with arrived := b.arrived + 1, poison := true }, true)
  else ({ b with arrived := b.arrived + 1 }, false)

/-- Posted bytes (R219): past the signed 32-bit range they are withheld and the barrier is poisoned. -/
def Barrier.post (b : Barrier) (n : Int) : Barrier × Bool :=
  if inInt32 (b.cur + n) then ({ b with cur := b.cur + n }, false) else ({ b with poison := true }, true)

/-- An engine's payment of `n` bytes tagged `tag` (R221): `true` says that it was not applied. -/
def Barrier.pay (b : Barrier) (tag : Nat) (n : Int) : Barrier × Bool :=
  if tag = b.phase.toNat % 4 then
    if inInt32 (b.cur - n) then ({ b with cur := b.cur - n }, false) else ({ b with poison := true }, true)
  else if tag = (b.phase.toNat + 1) % 4 then
    if inInt32 (b.next - n) then ({ b with next := b.next - n }, false) else ({ b with poison := true }, true)
  else (b, true)

/-- A barrier item of a strand applied (R63, R219): PHASE is that of the step; the test is still to be made. -/
def State.applyBar (s : State) (t : Strand) (i : BarItem) : State :=
  let b := s.barrier t.core i.bar
  let x := if i.arrive then b.arrive else (b, false)
  let y := match i.bytes with
    | some w => x.1.post (w.toNat : Int)
    | none => (x.1, false)
  let s := s.setBarrier t.core i.bar y.1
  let s := if x.2 || y.2 then s.raiseTo t.key Cause.barrierOverrun 0 (num i.rel) else s
  match i.dest with
  | some r => s.onStrand t.key fun u => u.setX r (b.phase.setWidth 64) false
  | none => s

/-- The test of a barrier, after the events of a cycle (R63). -/
def State.testBar (s : State) (core b : Nat) : State := s.setBarrier core b (s.barrier core b).test

/-- A barrier item that is its cycle's only event. -/
def State.performBar (s : State) (t : Strand) (i : BarItem) : State := (s.applyBar t i).testBar t.core i.bar

/-! ### BAR -/

/-- BARINIT (R218). -/
def execBarinit (g : Guard) (o : BarinitOp) (s : State) : Res :=
  frame g (o.a :: tileRegs o.t) [] (fun s =>
    s.barRef o.t fun rel bar =>
      if s.xPois o.a then .trap Cause.poison 0 0
      else if s.xr o.a = 0 ∨ 64 < (s.xr o.a).toNat then .trap Cause.space (s.xr o.a) 0
      else
        let b := s.barrier s.me.core bar
        if b.poison || (b.arrived == 0 && b.cur == 0 && b.next == 0) then
          .ok (s.setBarrier s.me.core bar ⟨b.phase, (s.xr o.a).setWidth 7, 0, false, 0, 0⟩)
        else .trap Cause.barrierOverrun 0 (num rel)) s

/-- BARINV (R218). -/
def execBarinv (g : Guard) (o : BarinvOp) (s : State) : Res :=
  frame g (tileRegs o.t) [] (fun s =>
    s.barRef o.t fun _ bar =>
      .ok (s.setBarrier s.me.core bar { s.barrier s.me.core bar with poison := true })) s

/-- A destination that is not x0. -/
def destOf (d : XReg) : Option XReg := if d = 0 then none else some d

/-- BARARR (R219). -/
def execBararr (g : Guard) (o : BararrOp) (s : State) : Res :=
  frame g (o.d :: tileRegs o.t) [] (fun s =>
    s.barRef o.t fun rel bar => s.enqueue o.h (.bar ⟨bar, rel, true, none, destOf o.d, o.scope⟩)) s

/-- The checks on posted bytes (R219). -/
def State.postedBytes (s : State) (a : XReg) (rel : Nat) (e : Eff) : Eff :=
  if s.xPois a then .trap Cause.poison 0 0
  else if 2 ^ 31 ≤ (s.xr a).toNat then .trap Cause.barrierOverrun 0 (num rel)
  else e

def execBararx (g : Guard) (o : BararxOp) (s : State) : Res :=
  frame g (o.d :: o.a :: tileRegs o.t) [] (fun s =>
    s.barRef o.t fun rel bar => s.postedBytes o.a rel
      (s.enqueue o.h (.bar ⟨bar, rel, true, some (s.xr o.a), destOf o.d, o.scope⟩))) s

def execBarexp (g : Guard) (o : TagAOp) (s : State) : Res :=
  frame g (o.a :: tileRegs o.t) [] (fun s =>
    s.barRef o.t fun rel bar => s.postedBytes o.a rel
      (s.enqueue o.h (.bar ⟨bar, rel, false, some (s.xr o.a), none, o.scope⟩))) s

/-- The checks of BARWAIT and BARTRY, then what PHASE decides (R220): `moved` where it differs from X[A]. -/
def State.phaseTest (s : State) (a : XReg) (bar rel : Nat) (moved : Bool → Eff) : Eff :=
  if s.xPois a then .trap Cause.poison 0 0
  else if (s.barrier s.me.core bar).poison then .trap Cause.poison 0 (num rel)
  else moved ((s.barrier s.me.core bar).phase != (s.xr a).setWidth 16)

def execBarwait (g : Guard) (o : BarwaitOp) (s : State) : Res :=
  frame g (o.a :: tileRegs o.t) [] (fun s =>
    s.barRef o.t fun rel bar => s.phaseTest o.a bar rel fun m =>
      if m then .ok (s.acquireMe o.scope)
      else .wait (.barrier bar rel ((s.xr o.a).setWidth 16) o.scope none)) s

def execBartry (g : Guard) (o : BartryOp) (s : State) : Res :=
  frame g (o.a :: tileRegs o.t) [] (fun s =>
    s.barRef o.t fun rel bar => s.phaseTest o.a bar rel fun m =>
      .ok (if m then (s.setC o.d true).acquireMe o.scope else s.setC o.d false)) s

end Sys2Proof.Machine
end

