-- ==== Sys2Proof/Machine/Tile.lean ====
section
/-!
DEFINITION. Tile.lean: TTAG and TSEND (R207 to R214), and what the tag items do at the tile (R62, R211, R293).
-/

namespace Sys2Proof.Machine

/-! ### Effects at a tile -/

/-- Whether a global tile address names tile `tile` of core `core` of the package. -/
def State.namesTile (s : State) (w : Word) (core tile : Nat) : Bool :=
  w != 0 && s.isOwnNode (gtNode w) && gtCore w == core && gtTile w == tile

/-- The vacancy notice of a take (R260, R293): in the same step for a ring of the package; a notice through the
fabric for one of another package, a zero-byte transfer that names the tile.
Left open by the spec: log entry 31 (DESIGN CHOICE). -/
def State.vacate (s : State) (part : Nat) (secure : Bool) (core tile : Nat) : State :=
  let tell : Nat × RingUnit → Nat × RingUnit := fun r =>
    (r.1, { r.2 with
      vacA := r.2.vacA || s.namesTile (s.ring r.1 6) core tile
      vacB := r.2.vacB || s.namesTile (s.ring r.1 7) core tile })
  let s := { s with rings := s.rings.map tell }
  match (s.remoteRings.find? fun e => e.1 == 256 * core + tile).map fun e => s.viaNode? part e.2 with
  | none => s
  | some none => s.faultRecord part Cause.access (num (6 * 2 ^ 12)) (gtOf core tile)
  | some (some v) =>
    if !s.routed v.node then (s.countWindow v false).faultRecord part Cause.remote 0 (gtOf core tile)
    else s.dispatch v { s.header v 0 secure with
      kind := Packet.token, vc := 2, op := vacancyOp, addr := gtOf core tile, scope := Scope.code .domain }

/-- A transfer in the bag. -/
def State.intoBag (s : State) (e : Nat → BagEntry) : State :=
  let n := s.newId
  { n.2 with bag := n.2.bag ++ [e n.1] }

/-- The take (R62, R209): EMPTY, XDONE 0, and the notice to NOTIFY in the same step.
Left open by the spec: log entry 39 (DESIGN CHOICE). -/
def State.takeTile (s : State) (t : Strand) (core tile : Nat) : State :=
  let tag := s.tag core tile
  let s := s.setTag core tile { tag with state := Tag.empty, xdone := 0 }
  let s := if tag.notify = 0 then s else
    s.intoBag fun id =>
      ⟨id, [], some t.key, tag.notify, s.tileVia t.part tag.notify, [], [], t.part, t.secure, none, none, .plain, .domain⟩
  s.vacate t.part t.secure core tile

/-- A tag item of a strand performed at its tile (R62, R211). Left open by the spec: log entry 10 (DEDUCED). -/
def State.performTag (s : State) (t : Strand) (i : TagItem) : State :=
  let core := t.core
  let tag := s.tag core i.tile
  match i.kind with
  | .take => s.takeTile t core i.tile
  | .mark =>
    if tag.state = Tag.poison then s
    else if tag.state = Tag.full then
      (s.freshWord.2.setTag core i.tile { tag with overrun := true }).raiseTo t.key Cause.tileOverrun s.freshWord.1
        (num i.rel)
    else s.setTag core i.tile { tag with state := Tag.full }
  | .pois => s.setTag core i.tile { tag with state := Tag.poison }
  | .scale v => s.setTag core i.tile { tag with scale := v }
  | .zero =>
    (s.writeTile (tileAddr core i.tile 0) (List.replicate 4096 0) false).setTag core i.tile .clear

/-! ### TTAG -/

/-- A crew that arms a tile with a non-zero NOTIFY returns to its core after pre-emption (R36). -/
def State.arms (s : State) (notify : Word) : State :=
  if notify = 0 then s else s.onCrew s.me.key.crew fun c => { c with armed := true }

/-- TARM (R208). Left open by the spec: log entry 10 (DEDUCED). -/
def execTarm (g : Guard) (o : TarmOp) (s : State) : Res :=
  frame g (o.b :: tileRegs o.t) [] (fun s =>
    s.tileRef o.t fun rel tile =>
      if s.xPois o.b then .trap Cause.poison 0 0
      else
        let notify := s.xr o.b
        let arm : Eff :=
          let tag := s.tag s.me.core tile
          if tag.state = Tag.full ∨ tag.state = Tag.poison then .trapAny Cause.tileOverrun (num rel)
          else
            let put (st : BitVec 2) : State :=
              (s.arms notify).setTag s.me.core tile { tag with xexp := o.n, notify := notify, state := st }
            if tag.xdone = o.n then .ok (put Tag.full)
            else if o.n.ult tag.xdone then
              .ok ((put Tag.poison).freshWord.2.raiseTo s.me.key Cause.tileOverrun s.freshWord.1 (num rel))
            else .ok (put Tag.filling)
        if notify = 0 then arm
        else if !gtWellFormed notify || gtOffset notify != 0 then .trap Cause.handle notify 0
        else s.checkTarget notify arm) s

/-- The end of TWAIT, whose tile it has found in a state, FULL or POISON (R209). -/
def State.twaitEnd (s : State) (d : CReg) (st : BitVec 2) (scope : Scope) : State :=
  (s.setC d (st == Tag.full)).acquireMe scope

/-- Whether a tile is FULL or POISON. -/
def State.tileReady (s : State) (core tile : Nat) : Bool :=
  (s.tag core tile).state == Tag.full || (s.tag core tile).state == Tag.poison

def execTwait (g : Guard) (o : TwaitOp) (s : State) : Res :=
  frame g (tileRegs o.t) [] (fun s =>
    s.tileRef o.t fun rel tile =>
      if s.tileReady s.me.core tile then .ok (s.twaitEnd o.d (s.tag s.me.core tile).state o.scope)
      else .wait (.tile o.d tile rel o.scope none)) s

/-- TTAKE of a tile that it has found POISON, or FULL with no take unperformed (R62, R209). -/
def State.ttake (s : State) (st : BitVec 2) (tile rel : Nat) (scope : Scope) (h : HReg) : Eff :=
  if st = Tag.poison then .trap Cause.poison 0 (num rel)
  else (s.acquireMe scope).enqueue h (.tag ⟨.take, tile, rel, scope⟩)

/-- Whether TTAKE need not wait (R62). -/
def State.takeable (s : State) (core tile : Nat) : Bool :=
  (s.tag core tile).state == Tag.poison || ((s.tag core tile).state == Tag.full && !s.takePending core tile)

def execTtake (g : Guard) (o : TagOp) (s : State) : Res :=
  frame g (tileRegs o.t) [] (fun s =>
    s.tileRef o.t fun rel tile =>
      if s.takeable s.me.core tile then s.ttake (s.tag s.me.core tile).state tile rel o.scope o.h
      else .wait (.take tile rel o.scope o.h none)) s

/-- TSTAT (R210). -/
def execTstat (g : Guard) (o : TstatOp) (s : State) : Res :=
  frame g (o.d :: tileRegs o.t) [] (fun s =>
    s.tileRef o.t fun _ tile =>
      let tag := s.tag s.me.core tile
      let s := if o.clr then s.setTag s.me.core tile { tag with overrun := false } else s
      .ok (s.setX o.d (if o.notify then tag.notify else tag.word) false)) s

/-- The item of TMARK, TPOIS and TZERO (R211). -/
def tagOp (k : TagKind) (g : Guard) (o : TagOp) (s : State) : Res :=
  frame g (tileRegs o.t) [] (fun s => s.tileRef o.t fun rel tile => s.enqueue o.h (.tag ⟨k, tile, rel, o.scope⟩)) s

def execTmark (g : Guard) (o : TagOp) (s : State) : Res := tagOp .mark g o s
def execTpois (g : Guard) (o : TagOp) (s : State) : Res := tagOp .pois g o s
def execTzero (g : Guard) (o : TagOp) (s : State) : Res := tagOp .zero g o s

/-- TSCLS: the scale is read at issue (R211). -/
def execTscls (g : Guard) (o : TagAOp) (s : State) : Res :=
  frame g (o.a :: tileRegs o.t) [] (fun s =>
    s.tileRef o.t fun rel tile =>
      if s.xPois o.a then .trap Cause.poison 0 0
      else s.enqueue o.h (.tag ⟨.scale ((s.xr o.a).setWidth 20), tile, rel, o.scope⟩)) s

def execTsclg (g : Guard) (o : TsclgOp) (s : State) : Res :=
  frame g (o.d :: tileRegs o.t) [] (fun s =>
    s.tileRef o.t fun _ tile => .ok (s.setX o.d ((s.tag s.me.core tile).scale.setWidth 64) false)) s

/-! ### TSEND (R213, R214) -/

/-- The source of a transfer from scratchpad: an absolute byte address. -/
def State.sendSource (s : State) (a : Word) : Nat :=
  tileAddr s.me.core (s.me.ids.tileBase.toNat + a.toNat / 4096) (a.toNat % 4096)

/-- The checks of R213 from step 2, for `n` bytes from local address `src` where there is one. -/
def State.checkSend (s : State) (dst : Word) (src : Option Word) (n : Nat) (e : Eff) : Eff :=
  let badSource := src.any fun a =>
    decide (a.toNat % 4 ≠ 0 ∨ 2 ^ 20 ≤ a.toNat ∨ s.me.ids.tileCount.toNat ≤ a.toNat / 4096)
  let space (w : Word) : Eff := .trap Cause.space w 0
  if !gtWellFormed dst || (src.isNone && n == 0 && gtOffset dst != 0) then space dst
  else if gtOffset dst % 4 ≠ 0 then space dst
  else if src.isSome ∧ (n % 4 ≠ 0 ∨ n < 4 ∨ 4096 < n) then space (num n)
  else if badSource then space (src.getD 0)
  else if src.any fun a => decide (4096 < a.toNat % 4096 + n) then space (src.getD 0)
  else if 4096 < gtOffset dst + n then space dst
  else s.checkTarget dst e

/-- A transfer item (R50). -/
def State.transfer (s : State) (src : SendSrc) (dst : Word) (md : Md) : Eff :=
  s.enqueue md.h (.transfer ⟨src, dst, s.tileVia s.me.part dst, md.order, md.scope⟩)

def execTsend (g : Guard) (o : SendOp) (s : State) : Res :=
  frame g [o.a, o.b] [] (fun s =>
    if s.xPois o.a || s.xPois o.b then .trap Cause.poison 0 0
    else s.checkSend (s.xr o.b) (some (s.xr o.a)) o.n.toNat
      (s.transfer (.tile (s.sendSource (s.xr o.a)) o.n.toNat) (s.xr o.b) o.md)) s

/-- TSENDX; a count that 4,096 does not bound is the failing value itself. -/
def execTsendx (g : Guard) (o : AbcOp) (s : State) : Res :=
  frame g [o.a, o.b, o.c] [] (fun s =>
    if s.xPois o.a || s.xPois o.b || s.xPois o.c then .trap Cause.poison 0 0
    else s.checkSend (s.xr o.b) (some (s.xr o.a)) (s.xr o.c).toNat
      (s.transfer (.tile (s.sendSource (s.xr o.a)) (s.xr o.c).toNat) (s.xr o.b) o.md)) s

/-- TSENDV: the lanes and their poison are read at issue. -/
def execTsendv (g : Guard) (o : SendVOp) (s : State) : Res :=
  frame g [o.b] [o.d] (fun s =>
    if s.xPois o.b then .trap Cause.poison 0 0
    else s.checkSend (s.xr o.b) none 256
      (s.transfer (.data ((List.range 64).map fun i => (laneAt (s.vr o.d) i, (s.vPois o.d).getLsbD i)))
        (s.xr o.b) o.md)) s

def execTnote (g : Guard) (o : BmdOp) (s : State) : Res :=
  frame g [o.b] [] (fun s =>
    if s.xPois o.b then .trap Cause.poison 0 0
    else s.checkSend (s.xr o.b) none 0 (s.transfer .none (s.xr o.b) o.md)) s

end Sys2Proof.Machine
end

