-- ==== Sys2Proof/Machine/Perform.lean ====
section
/-!
DEFINITION. Perform.lean: the head of a handle queue, the release condition (R59), accesses at homes with their
errors (R366, R369, R383, R390), and how loads and stores that are not voted perform (R56, R57).
-/

namespace Sys2Proof.Machine

/-- The outcome of a step of the machine that may not be enabled. -/
def taken (r : Option State) : Res :=
  match r with
  | some t => .next t
  | none => .fault .notEnabled

/-! ### The head of a queue -/

/-- The strand and the entry at the head of one of its queues. -/
def State.headOf (s : State) (k : StrandKey) (h : HReg) : Option (Strand × Entry) :=
  (s.strand? k).bind fun t => (t.queue h).head?.map fun e => (t, e)

/-- The head, while its perform step has not been taken. -/
def State.freshHead (s : State) (k : StrandKey) (h : HReg) : Option (Strand × Entry) :=
  (s.headOf k h).filter fun x => !x.2.sent

def State.popHead (s : State) (k : StrandKey) (h : HReg) : State :=
  s.onStrand k fun t => t.setQueue h ((t.queue h).drop 1)

def State.setHead (s : State) (k : StrandKey) (h : HReg) (e : Entry) : State :=
  s.onStrand k fun t => t.setQueue h (e :: (t.queue h).drop 1)

/-- The head stays, its perform step taken. -/
def State.markSent (s : State) (k : StrandKey) (h : HReg) (e : Entry) : State := s.setHead k h { e with sent := true }

/-- An item leaves the head of its queue if it is performed at its own scope, and else stays there (R55). -/
def State.leaveHead (s : State) (k : StrandKey) (h : HReg) (e : Entry) (scope : Scope) : State :=
  let r : Ref := ⟨k, h, e.n⟩
  if (scope.wide && s.outstanding.contains r) || !s.sentNarrow r e then s.markSent k h e else s.popHead k h

/-- The scope of an item that can stay at the head after its perform step. -/
def Body.scope? : Body → Option Scope
  | .store i => some i.scope
  | .transfer i => some i.scope
  | .load _ | .atomic _ | .tag _ | .bar _ | .copy _ | .ring _ | .gate _ => none

/-- After an effect that may have been the last of an item: its entry leaves the queue (R55). -/
def State.settleSent (s : State) (r : Ref) : State :=
  match s.headOf r.key r.h with
  | some (_, e) =>
    match e.body.scope? with
    | some scope =>
      if e.sent && e.n == r.n && s.performedAt r scope then s.popHead r.key r.h else s
    | none => s
  | none => s

/-! ### Release (R59) -/

/-- Whether the items of a handle that have left its queue are performed at a scope. -/
def State.handleClear (s : State) (k : StrandKey) (h : HReg) (scope : Scope) : Bool :=
  !scope.wide || !(s.outstanding.any fun r => r.key == k && r.h == h)

def State.releaseOk (s : State) (k : StrandKey) (h : HReg) (o : Order) (scope : Scope) : Bool :=
  !o.releases || s.handleClear k h scope

/-- The acquire of a performed item with an order. -/
def State.acquireIf (s : State) (t : Strand) (o : Order) (scope : Scope) : State :=
  if o.acquires then s.acquire t.core t.cluster scope else s

/-! ### Accesses at homes -/

/-- The die of a home and its counter in the die's error block: a die-cache slice's, or that of a scratchpad's core
(R390, R396). The home agent of CXL port p is on edge die p, number 8 + p in records (R368, R397), where R396 lays down
no counter. -/
def State.homeUnit (s : State) (p : Place) : Nat × Option Nat :=
  match p with
  | .dev a => if a < hbmEnd then (a / 2 ^ 36, some (0xC00 + 8 * (Config.homeSlice a).val)) else (8 + s.cxlPort a, none)
  | .tile a => (a / 2 ^ 20 / 192, some (8 * (32 * (a / 2 ^ 24 % 12) + a / 2 ^ 20 % 16)))
  | .host _ | .remote _ _ => (8, none)

/-- The unit that meets an error at a home: the home's own, or the HBM channel behind a die-cache slice, one of 32;
which it is is free. Left open by the spec: log entry 9 (DESIGN CHOICE). -/
def State.errorUnit (s : State) (p : Place) : (Nat × Option Nat) × State :=
  let w := s.freshWord
  let n := w.1.toNat % 64
  match p with
  | .dev a =>
    if a < hbmEnd ∧ n % 2 = 1 then ((a / 2 ^ 36, some (0xC80 + 8 * (n / 2))), w.2) else (s.homeUnit p, w.2)
  | .tile _ | .host _ | .remote _ _ => (s.homeUnit p, w.2)

/-- An error of a unit counted and recorded (R390, R396, R397). One without a counter is recorded when it cannot be
corrected, with a free UNIT. The syndrome is free. Left open by the spec: log entry 9 (DESIGN CHOICE). -/
def State.unitError (s : State) (u : Nat × Option Nat) (part : Nat) (addr : Word) (corrected : Bool) : State :=
  match u.2 with
  | some off =>
    if corrected then s.freshWord.2.countCorr u.1 off part addr s.freshWord.1
    else s.freshWord.2.countUncorr u.1 off part addr s.freshWord.1
  | none => if corrected then s else s.freshWord.2.recordFree 2 u.1 part addr (some s.freshWord.1)

/-- How many aligned words `n` bytes at a place meet. -/
def wordsMet (p : Place) (n : Nat) : Nat := (p.addr % 4 + n + 3) / 4

/-- Words at a home of the package poisoned, by their number from the word of `p` on. -/
def State.poisonWords (s : State) (p : Place) (words : List Nat) : State :=
  match p with
  | .dev a => { s with dev := words.foldl (fun m i => m.setPoison (s.storeAddr a / 4 + i) true) s.dev }
  | .tile a =>
    match s.parkedTile? (a / 2 ^ 20) (a / 4096 % 256) with
    | none => { s with tiles := words.foldl (fun m i => m.setPoison (a / 4 + i) true) s.tiles }
    | some (slot, i) =>
      { s with dev := words.foldl (fun m w => setImagePoison m (s.storeAddr slot) i (a % 4096 / 4 + w) true) s.dev }
  | .host _ | .remote _ _ => s

/-- The words of `n` bytes at a home of the package poisoned. -/
def State.poisonHome (s : State) (p : Place) (n : Nat) : State := s.poisonWords p (List.range (wordsMet p n))

/-- The words that hold the bad symbols poisoned (R390): one of those of `n` bytes at a home, or more; which ones is
free. Left open by the spec: log entry 40 (DESIGN CHOICE). -/
def State.poisonSome (s : State) (p : Place) (n : Nat) : State :=
  let k := wordsMet p n
  let one := (Config.freeWord s.free).toNat % k
  { s with free := s.free + 1 + k }.poisonWords p
    ((List.range k).filter fun i => i == one || (Config.freeWord (s.free + 1 + i)).getLsbD 0)

/-- An error that the check of an access finds at a home of the package (R390): counted, and poison where it cannot
be corrected. The syndrome is free. -/
def State.homeError (s : State) (p : Place) (n part : Nat) (r : Reply) : Option State :=
  match r with
  | .none => some s
  | .corrected => some ((s.errorUnit p).2.unitError (s.errorUnit p).1 part (num p.addr) true)
  | .uncorrectable => some (((s.errorUnit p).2.poisonSome p n).unitError (s.errorUnit p).1 part (num p.addr) false)
  | .value _ _ | .refused | .ring | .bytes _ _ | .voteFail | .dissent _ _ => none

/-- A strand's access of `n` bytes read at its home: none where the answer does not fit the home. The packet toward
another package's carries the order, the scope and the vote of the item (R362, R394). -/
def State.readAt (s : State) (t : Strand) (a : Access) (n : Nat) (o : Order) (scope : Scope) (cast : Cast) (r : Reply) :
    Option (State × (List Byte × Bool)) :=
  let asid := a.asid.getD 0
  match a.place with
  | .dev x =>
    if s.cxlLost x then
      if r = .none then some (s.blame t.key Cause.access a 8, s.readHome a.place n .none) else none
    else
      (s.homeError a.place n t.part r).map fun s => (s.noteCxl a.place asid a.pin, s.readHome a.place n .none)
  | .host _ => if r = .none then some (s, s.readHome a.place n .none) else none
  | .tile x =>
    if s.scratchUp (x / 2 ^ 24) then (s.homeError a.place n t.part r).map fun s => (s, s.readHome a.place n .none)
    else if r = .none then some (s.blame t.key Cause.remote a 0, s.readHome a.place n .none) else none
  | .remote v x =>
    if !s.routed v.node then none
    else
      let ask := s.dispatch v { s.header v x t.secure with
        kind := Packet.read, len := n, scope := scope.code, acquire := o.acquires } cast
      match r with
      | .value w p => some (ask, (bytesOf n w.toNat, p))
      | .dissent w p => if cast.isSome then some (ask.farDissent t.key, (bytesOf n w.toNat, p)) else none
      | .refused => some ((ask.countWindow v true).blame t.key Cause.access a 6, (List.replicate n 0, true))
      | .none | .corrected | .uncorrectable | .ring | .bytes _ _ | .voteFail => none

/-- The pieces of one store entry written at their home, with the event of a home that is lost; pieces at another
package are its own. -/
def State.writePiece (s : State) (t : Ref) (p : Piece) : State :=
  let n := p.bytes.length
  match p.access.place with
  | .dev x =>
    if s.cxlLost x then s.blame t.key Cause.access p.access 8
    else
      (s.noteCxl p.access.place (p.access.asid.getD 0) p.access.pin).writeHome p.access.place p.bytes p.poison
  | .tile x =>
    if s.scratchUp (x / 2 ^ 24) then s.writeHome p.access.place p.bytes p.poison
    else s.blame t.key Cause.remote p.access 0
  | .host _ => { s with host := s.host.store p.access.place.addr p.bytes p.poison }
  | .remote _ _ => if n = 0 then s else s

/-- A store entry written at its home (R52); at the host's, as one posted Memory Write (R374). -/
def State.writeEntry (s : State) (e : UpEntry) : State :=
  let s' := e.pieces.foldl (fun (s : State) (p : Piece) => s.writePiece e.ref p) s
  match e.pieces with
  | p :: _ => (match p.access.place with
    | .host _ => s'.send (.memWrite .atPage (e.pieces.map fun q => (q.access.place.addr, q.bytes)) (e.pieces.any (·.poison)))
    | .dev _ | .tile _ | .remote _ _ => s')
  | [] => s'

/-! ### Loads (R57, R190) -/

/-- Whether a load's access reads a copy, and whose. -/
def copyRead (t : Strand) (l : LoadItem) (p : Place) : Option CopySet :=
  if p.isTile then none
  else if l.ro then some (.core t.core)
  else if l.scope.wide then none else some (.cluster t.cluster)

/-- A scalar as a load extends it. -/
def extended (sext : Bool) (bytes : Nat) (w : Word) : Word :=
  if sext then
    match bytes with
    | 1 => (w.setWidth 8).signExtend 64
    | 2 => (w.setWidth 16).signExtend 64
    | 4 => (w.setWidth 32).signExtend 64
    | _ => w
  else w

/-- The destination written from what the accesses have read. -/
def Strand.bindLoad (t : Strand) (l : LoadItem) : Strand :=
  let at? (i : Nat) : Option Got := l.got.find? fun g => g.access.lane == i
  match l.dest with
  | .x r sext =>
    match l.got with
    | g :: _ => t.setX r (extended sext l.bytes g.value) g.poison
    | [] => t
  | .v r =>
    t.setVMasked r (maskOf fun i => (at? i).isSome) (fun i => ((at? i).map fun g => g.value.setWidth 32).getD 0)
      fun i => ((at? i).map (·.poison)).getD false
  | .all r m =>
    match l.got with
    | g :: _ => t.setVMasked r m (fun _ => g.value.setWidth 32) fun _ => g.poison
    | [] => t

/-- A checked load has bound poisoned data (R185): the trap is due, or the partition learns of it.
Left open by the spec: log entry 15 (DEDUCED). -/
def State.deferPoison (s : State) (k : StrandKey) (addr pc : Word) : State :=
  match s.strand? k with
  | none => s
  | some t =>
    if t.live then s.onStrand k fun t => { t with deferred := t.deferred ++ [⟨addr, pc⟩] }
    else
      match s.crew? k.crew with
      | some c => s.crewFault c Cause.poison pc addr
      | none => s

/-- A load all of whose accesses are read: its value is bound, then its acquire; poison is due after. -/
def State.finishLoad (s : State) (t : Strand) (h : HReg) (l : LoadItem) (addr : Word) : State :=
  let s := ((s.popHead t.key h).onStrand t.key fun t => t.bindLoad l).acquireIf t l.order l.scope
  if l.checked && l.got.any (·.poison) then s.deferPoison t.key addr l.pc else s

/-- A load with one more access read. -/
def State.gotOne (s : State) (t : Strand) (h : HReg) (e : Entry) (l : LoadItem) (i : Nat) (a : Access)
    (v : List Byte × Bool) : State :=
  let l := { l with todo := l.todo.eraseIdx i, got := l.got ++ [⟨a, wordOfBytes v.1, v.2⟩] }
  if l.todo.isEmpty then s.finishLoad t h l a.va else s.setHead t.key h { e with body := .load l }

/-- Whether the fill of an absent line fails: its home is on a CXL port that is down, or the other package has refused
it (R366, R369). -/
def State.fillFails (s : State) (p : Place) (r : Reply) : Bool :=
  match p with
  | .dev a => s.cxlLost a
  | .remote _ _ => r == .refused
  | .host _ | .tile _ => false

/-- Whether no vote in progress holds a store of the same strand over these bytes.
Left open by the spec: log entry 22 (DESIGN CHOICE). -/
def State.voteClear (s : State) (k : StrandKey) (p : Place) (n : Nat) : Bool :=
  !(s.votes.any fun v => !v.performed && v.closed.isNone && v.arrivals.any fun a =>
    a.key == k && match a.ballot with
      | .entry e => e.pieces.any fun q => q.access.place.overlap q.bytes.length p n
      | .item _ | .spawn _ _ _ _ _ | .packet _ => false)

/-- Whether a copy serves an access of a load, and whose: none serves one that is voted (R43). -/
def copyServes (t : Strand) (l : LoadItem) (a : Access) (cast : Cast) : Option CopySet :=
  if cast.isSome then none else copyRead t l a.place

/-- Whether an access that no copy serves can be made at its home now (R57). -/
def State.homeReady (s : State) (t : Strand) (a : Access) (n : Nat) (cast : Cast) : Bool :=
  (a.place.isTile || s.homeClear t.cluster a.place n) && (cast.isNone || s.voteClear t.key a.place n)

/-- One access of a load that is not voted here; one that is voted at another package carries its vote there (R394).
Where its copy cannot be filled, it binds what a refused access binds. -/
def State.loadOne (s : State) (t : Strand) (l : LoadItem) (a : Access) (cast : Cast) (r : Reply) :
    Option (State × (List Byte × Bool)) :=
  match copyServes t l a cast with
  | some o =>
    match s.copy? o a.place.line with
    | some c => if r = .none then some (s, c.read a.place l.bytes) else none
    | none => if s.fillFails a.place r then s.readAt t a l.bytes l.order l.scope cast r else none
  | none => if s.homeReady t a l.bytes cast then s.readAt t a l.bytes l.order l.scope cast r else none

/-! ### Stores (R56, R191) -/

/-- The lines of a store's pieces in the order of their lowest lanes, each with its pieces: a contiguous store's in
rising address order (R56, R191). Left open by the spec: log entry 43 (DESIGN CHOICE). -/
def byLine : Nat → List Piece → List (List Piece)
  | 0, _ => []
  | _, [] => []
  | fuel + 1, p :: ps =>
    let same (q : Piece) : Bool := q.access.place.line.bare == p.access.place.line.bare
    (p :: ps.filter same) :: byLine fuel (ps.filter fun q => !same q)

/-- A store's pieces through translation, by line. -/
def storeLines (i : StoreItem) : List (List Piece) :=
  let far := i.pieces.filter fun p => p.access.asid.isSome || !p.access.place.isTile
  byLine far.length far

/-- The pieces of a store that are local scratchpad accesses: they are no voted items. -/
def ownPieces (i : StoreItem) : List Piece := i.pieces.filter fun p => p.access.asid.isNone && p.access.place.isTile

/-- Whether a line of a store is written at its tile when the store performs: one of a voted crew goes to the voter. -/
def directLine (voted : Bool) (ps : List Piece) : Bool := !voted && ps.all fun p => p.access.place.isTile

/-- The pieces of a store that are still to be written at their tiles. -/
def tileLeft (i : StoreItem) (voted : Bool) : List Piece :=
  (ownPieces i ++ ((storeLines i).filter (directLine voted)).flatten).filter fun p => !i.written.contains p.access.lane

/-- One of several lanes of a store at its tile: lanes are not atomic with one another, and which comes next is free
(R68). The store stays at the head of its queue. -/
def State.storeLane (s : State) (t : Strand) (h : HReg) (e : Entry) (i : StoreItem) (left : List Piece) : State :=
  match s.pick left with
  | (some p, u) =>
    (u.writePiece ⟨t.key, h, e.n⟩ p).setHead t.key h { e with body := .store { i with written := p.access.lane :: i.written } }
  | (none, u) => u

/-- The last of a store: the tile bytes that are left, which are one lane at most (R68); copies; uplink entries, each
voted one with its vote (R42, R56). -/
def State.storeNow (s : State) (t : Strand) (h : HReg) (n : Nat) (i : StoreItem) (vote : Nat → Option VoteTag) : State :=
  let r : Ref := ⟨t.key, h, n⟩
  let voted := (vote 0).isSome
  let s := (tileLeft i voted).foldl (fun (s : State) (p : Piece) => s.writePiece r p) s
  let s := s.storeCopies t.core t.cluster (i.pieces.filter fun p => !p.access.place.isTile)
  let sent := (storeLines i).zipIdx.filter fun l => !directLine voted l.1
  let mk : List Piece × Nat → UpEntry := fun l => ⟨r, t.cluster, l.1, (Body.store i).touches, vote l.2, i.order, i.scope⟩
  { s with uplinks := s.uplinks ++ sent.map mk }

/-! ### Atomics (R58, R188) -/

/-- An atomic of a strand read and written at its home: the old value with its poison; `cast` is its vote at another
package. -/
def State.atomicAt (s : State) (t : Strand) (i : AtomItem) (cast : Cast) (r : Reply) : Option (State × (Word × Bool)) :=
  let n := if i.w64 then 8 else 4
  let p := i.access.place
  match p with
  | .remote v x =>
    if !s.routed v.node then none
    else
      let ask := s.dispatch v { s.header v x t.secure with
        kind := Packet.atomic, len := n, op := i.kind.code + if i.w64 then 32 else 0, scope := i.scope.code,
        release := i.order.releases, acquire := i.order.acquires, poisoned := i.poison, opLo := i.b, opHi := i.c } cast
      let got (w : Word) : Word := if i.w64 then w else (w.setWidth 32).setWidth 64
      match r with
      | .value w q => some (ask, (got w, q))
      | .refused => some ((ask.countWindow v true).blame t.key Cause.access i.access 6, (0, true))
      | .dissent w q => if cast.isNone then none else some (ask.farDissent t.key, (got w, q))
      | .voteFail =>
        if cast.isNone then none
        else some (ask.freshWord.2.raiseTo t.key Cause.voteFail i.access.va 2, (ask.freshWord.1, true))
      | .none | .corrected | .uncorrectable | .ring | .bytes _ _ => none
  | .host x =>
    if r = .none then
      let v := s.readHome p n .none
      let old := wordOfBytes v.1
      let new := atomNew i.kind i.w64 old i.b i.c
      some ({ s with host := s.host.store x (bytesOf n new.toNat) (v.2 || i.poison) }.send
        (.atomicOp x i.kind i.w64 i.b i.c), (old, v.2))
    else none
  | .dev _ | .tile _ =>
    (s.readAt t i.access n i.order i.scope none r).map fun x =>
      let old := wordOfBytes x.2.1
      let new := atomNew i.kind i.w64 old i.b i.c
      (x.1.writeHome p (bytesOf n new.toNat) (x.2.2 || i.poison), (old, x.2.2))

/-- The copies of its line that an atomic drops (R58). -/
def State.dropLine (s : State) (t : Strand) (p : Place) : State :=
  (s.dropCopy (.cluster t.cluster) p.line).dropCopy (.core t.core) p.line

/-- What an atomic's strand gets: the old value, the acquire, and the trap that a poisoned one makes due. -/
def State.atomicResult (s : State) (t : Strand) (h : HReg) (i : AtomItem) (v : Word × Bool) : State :=
  let s := (s.popHead t.key h).acquireIf t i.order i.scope
  match i.dest with
  | none => s
  | some d =>
    let s := s.onStrand t.key fun t => t.setX d v.1 v.2
    if v.2 then s.deferPoison t.key i.access.va i.pc else s

/-! ### Transfers (R65, R214) -/

/-- The words a transfer carries with their poison: scratchpad words, or the lanes read at issue. -/
def State.sendLanes (s : State) (src : SendSrc) : List (Lane × Bool) :=
  match src with
  | .none => []
  | .data ls => ls
  | .tile a len =>
    (List.range (len / 4)).map fun i =>
      let r := s.readTile (a + 4 * i) 4
      ((wordOfBytes r.1).setWidth 32, r.2)

/-- A transfer entering the bag. -/
def State.sendTransfer (s : State) (t : Strand) (refs : List Ref) (lanes : List (Lane × Bool)) (i : TransferItem)
    (vote : Option VoteTag) : State :=
  s.intoBag fun id =>
    ⟨id, refs, some t.key, i.dst, i.via, lanes.flatMap fun l => bytesOf 4 l.1.toNat, lanes.map (·.2), t.part, t.secure,
      none, vote, i.order, i.scope⟩

end Sys2Proof.Machine
end

