-- ==== Sys2Proof/Machine/Land.lean ====
section
/-!
DEFINITION. Land.lean: a transfer settled at tiles of the package (R33, R40, R65, R212, R260, R351, R383).
-/

namespace Sys2Proof.Machine

/-- The crew that a tile of a core belongs to: on its core, leaving, discarded and not yet retired, or out with its
tiles parked (R33, R36, R38). -/
def State.tileOwner? (s : State) (core t : Nat) : Option Crew :=
  s.crews.find? fun c => c.hasTile core t && (c.onCore || c.place == .gone || (c.keep && c.place.slot?.isSome))

/-- Whether arrivals reach the tiles and barriers of a core: its cluster is owned and not being released (R351),
and its controller is in ACTIVE or QUIESCING (R383). Left open by the spec: log entry 34 (DESIGN CHOICE). -/
def State.coreOpen (s : State) (core : Nat) : Bool :=
  s.clusterState (core / 16) == 1 && s.scratchUp (core / 16)

/-- Bytes written at an absolute address word by word, with the poison of each word (R184). -/
def State.writeWords (s : State) (a : Nat) (bs : List Byte) : List Bool → State
  | [] => s
  | p :: ps => (s.writeTile a (bs.take 4) p).writeWords (a + 4) (bs.drop 4) ps

/-- One tile meets a transfer (R65): landed, or refused as on a FULL tile. Head deliveries never set POISON. -/
def State.landOne (s : State) (core tile off : Nat) (bs : List Byte) (ps : List Bool) (delivery : Bool) :
    State × Landing :=
  let tag := s.tag core tile
  if tag.state = Tag.full ∨ tag.xdone = 63 then (s.setTag core tile { tag with overrun := true }, .overrun)
  else
    let done := tag.xdone + 1
    let state :=
      if tag.state = Tag.poison ∨ (!delivery && ps.any id) then Tag.poison
      else if done = tag.xexp ∧ tag.xexp ≠ 0 then Tag.full else Tag.filling
    ((s.writeWords (tileAddr core tile off) bs ps).setTag core tile { tag with xdone := done, state := state }, .landed)

/-- The tiles where a transfer to tile `tile` of core `core` lands: in a voted crew, the same crew-relative tile of
every copy (R40). -/
def State.landTargets (s : State) (core tile : Nat) (c : Crew) : List (Nat × Nat) :=
  if c.voted then (s.copiesOf c.uid).map fun d => (d.core, d.tileBase + (tile - c.tileBase)) else [(core, tile)]

/-- The worse of two outcomes. -/
def worseLanding : Landing → Landing → Landing
  | .landed, l => l
  | l, .landed => l
  | l, _ => l

/-- A transfer settled at a tile of the package. -/
def State.land (s : State) (dst : Word) (bs : List Byte) (ps : List Bool) (delivery : Bool) : State × Landing :=
  let core := gtCore dst
  match s.tileOwner? core (gtTile dst) with
  | none => (s, if 2 ≤ s.clusterState (core / 16) then .released else .gone)
  | some c =>
    (s.landTargets core (gtTile dst) c).foldl
      (fun x t =>
        if x.1.coreOpen t.1 then
          let r := x.1.landOne t.1 t.2 (gtOffset dst) bs ps delivery
          (r.1, worseLanding x.2 r.2)
        else (x.1, worseLanding x.2 (if 2 ≤ x.1.clusterState (t.1 / 16) then .released else .gone)))
      (s, .landed)

end Sys2Proof.Machine
end

