-- ==== Sys2Proof/Machine/Launch.lean ====
section
/-!
DEFINITION. Launch.lean: the launch record (R23), its checks (R24), and its acceptance into a queue (R26, R306).
-/

namespace Sys2Proof.Machine

/-- The fields of a record's 64 bytes. -/
def LaunchRec.ofBytes (bs : List Byte) : LaunchRec where
  entry := num (fieldAt bs 0x00 8)
  args := num (fieldAt bs 0x08 8)
  crews := fieldAt bs 0x10 4
  strands := fieldAt bs 0x14 1
  barriers := fieldAt bs 0x15 1
  tiles := fieldAt bs 0x16 2
  accums := fieldAt bs 0x18 1
  prio := fieldAt bs 0x19 1
  voted := fieldAt bs 0x1A 2 % 2 == 1
  coreBound := fieldAt bs 0x1A 2 / 2 % 2 == 1
  serial := fieldAt bs 0x1A 2 / 4 % 2 == 1
  notifyHost := fieldAt bs 0x1A 2 / 8 % 2 == 1
  stack := fieldAt bs 0x1C 4
  waitAddr := num (fieldAt bs 0x20 8)
  waitValue := num (fieldAt bs 0x28 8)
  doneAddr := num (fieldAt bs 0x30 8)
  asid := fieldAt bs 0x38 2
  hint := BitVec.ofNat 12 (fieldAt bs 0x3A 2)
  dies := BitVec.ofNat 8 (fieldAt bs 0x3C 1)
  raw := bs

/-- The clusters of a partition that a record allows (R25): a mask of 0 allows all. -/
def State.allowedClusters (s : State) (p : Nat) (r : LaunchRec) : List Nat :=
  (s.clustersOf p).filter fun c =>
    (r.dies == 0 || r.dies.getLsbD (c / 12)) && (r.hint == 0 || r.hint.getLsbD (c % 12))

/-- Whether a reserved bit of the record is set (R24). -/
def recordReserved (bs : List Byte) : Bool :=
  fieldAt bs 0x1A 2 / 16 != 0 || fieldAt bs 0x3A 2 / 2 ^ 12 != 0 || fieldAt bs 0x3D 3 != 0

/-- Whether a field lies outside its range (R23, R24). -/
def LaunchRec.outOfRange (r : LaunchRec) : Bool :=
  decide (r.entry.toNat % 8 ≠ 0 ∨ 2 ^ 55 ≤ r.entry.toNat ∨ r.crews = 0 ∨ r.strands = 0 ∨ 16 < r.strands ∨
    128 < r.barriers ∨ 256 < r.tiles ∨ 8 < r.accums ∨ 7 < r.prio ∨ 1024 < r.stack ∨
    r.waitAddr.toNat % 8 ≠ 0 ∨ r.doneAddr.toNat % 8 ≠ 0)

/-- The cause for which a record is refused (R20, R24), the first in the order of R24. -/
def State.refusal? (s : State) (p : Nat) (bs : List Byte) : Option Nat :=
  let r := LaunchRec.ofBytes bs
  if recordReserved bs then some 1
  else if r.outOfRange then some 2
  else if !s.asidOwned r.asid p then some 3
  else if (s.allowedClusters p r).isEmpty then some 4
  else if r.voted && decide ((s.allowedClusters p r).length < 3) then some 7
  else if r.voted && s.asidHost r.asid then some 5
  else none

/-- The records of a queue whose crews are not all placed (R26, R306).
Left open by the spec: log entry 24 (DESIGN CHOICE). -/
def State.occupancy (s : State) (queue : Nat) : Nat :=
  s.launches.countP fun l => l.queue == queue && !l.finished && decide (l.placed < l.record.crews)

/-- A launch joins its queue, behind the earlier ones. -/
def State.letIn (s : State) (queue seq p : Nat) (bs : List Byte) (gate : Option Gate) : State :=
  let r := LaunchRec.ofBytes bs
  let n := s.newId
  { n.2 with launches := n.2.launches ++
      [⟨n.1, queue, seq % 2 ^ 32, p, r, gate, r.waitAddr == 0, 0, 0, r.prio, none, false, false, false, 8⟩] }

/-- An accepted record in the storage of its queue, in the slot of its sequence number; one that fails the checks of
R354 is not written there (R303, R307, R354). Left open by the spec: log entry 21 (DESIGN CHOICE). -/
def State.storeRecord (s : State) (p base cap seq : Nat) (bs : List Byte) : State :=
  let a := base + 64 * (seq % cap)
  match s.physical (s.dispatcherWho p 0) .store a false with
  | .at x pin => s.unitWrite (s.dispatcherWho p 0) x pin (num a) bs false
  | .fail _ _ | .miss _ | .ats _ | .page _ => s

/-- The queue number of a partition's spawn queue (R17). -/
def spawnQueue (p : Nat) : Nat := 0x2000 + p

/-- A record offered to the spawn queue (R223): refused with its cause, turned away by a full queue (`some 0`), or
accepted. Left open by the spec: log entry 21 (DESIGN CHOICE). -/
def State.offerSpawn (s : State) (p : Nat) (bs : List Byte) (gate : Gate) : Except Nat State :=
  match s.refusal? p bs with
  | some c => .error c
  | none =>
    let cap := 2 ^ fieldOf (s.part p 0x008) 4 0
    if cap ≤ s.occupancy (spawnQueue p) then .error 0
    else
      let d := s.dispatcher p
      let s := s.storeRecord p (s.part p 0x008 &&& bitsMask 63 16).toNat cap d.spawnSeq bs
      .ok ((s.letIn (spawnQueue p) d.spawnSeq p bs (some gate)).setDispatcher p
        { d with spawnSeq := (d.spawnSeq + 1) % 2 ^ 32 })

/-- What SPAWN leaves in a strand (R223): its condition register, and SPAWN_ERR where a record is refused. -/
def Strand.spawned (t : Strand) (d : CReg) (r : Except Nat State) : Strand :=
  match r with
  | .ok _ => t.setC d true
  | .error 0 => t.setC d false
  | .error c => { t.setC d false with spawnCause := BitVec.ofNat 4 c, spawnErr := true }

end Sys2Proof.Machine
end

