-- ==== Sys2Proof/Machine/System.lean ====
section
/-!
DEFINITION. System.lean: SYS (R151 to R161), the system registers of R16, R323 and R378, and what writing them does.
-/

namespace Sys2Proof.Machine

/-! ### Which registers there are, and who may use them (R16, R154, R323, R378, R403, R409) -/

/-- The numbers of R16 in 0x000 to 0x1FF. -/
def progRegs : List Nat :=
  [0x000, 0x001, 0x002, 0x003, 0x004, 0x005, 0x008, 0x009, 0x00A, 0x00B, 0x00C, 0x010, 0x011, 0x012, 0x013, 0x014,
    0x020, 0x021, 0x100, 0x101, 0x102]

/-- The numbers of R323. -/
def superRegs : List Nat := [0x200, 0x201, 0x202, 0x203, 0x204, 0x205, 0x206, 0x208, 0x209, 0x20A, 0x20B]

/-- Step 1 of R154: whether a number is assigned; Insole has no ASID, XLATE_ROOT, WDOG_LIMIT or PASID (R409). -/
def sysAssigned (insole : Bool) (n : Nat) : Bool :=
  if n < 0x200 then progRegs.contains n
  else if n < 0x400 then superRegs.contains n && !(insole && decide (0x208 ≤ n))
  else if n < 0x700 then decide (n % 8 < 6)
  else if n < 0x800 then n == 0x700 || n == 0x701
  else decide (n < 0xC00)

/-- The lowest level of a number's range; writes of the ring registers need supervisor level (R16). -/
def sysLevel (n : Nat) (write : Bool) : Level :=
  if n < 0x200 then .program
  else if n < 0x400 then .supervisor
  else if n < 0x800 then .machine
  else if write then .supervisor else .program

/-- Registers marked RO: those of R16, PASID, READYSYS and PKGID, and RGHEAD, whose fields all are. -/
def sysReadOnly (n : Nat) : Bool :=
  decide (n < 0x100) || n == 0x20B || n == 0x700 || n == 0x701 || (decide (0x800 ≤ n) && n % 16 == 4)

/-- Steps 1 to 4 of R154, and the world of a ring (R22, R356): the trap, or what follows.
Left open by the spec: log entry 10 (DEDUCED). -/
def State.sysReach (s : State) (n : Nat) (write : Bool) (then_ : Eff) : Eff :=
  if !sysAssigned s.me.isInsole n then .trap Cause.illegal 0 0
  else if s.me.level.rank < (sysLevel n write).rank then .trap Cause.privilege 0 0
  else if write && sysReadOnly n then .trap Cause.illegal 0 0
  else if decide (0x800 ≤ n) && !s.me.isInsole && !s.ownsRing s.me.part ((n - 0x800) / 16) then
    .trapAny Cause.access (num (6 * 2 ^ 12))
  else if decide (0x800 ≤ n) && !s.me.isInsole && !s.me.secure && (s.bar (rngown ((n - 0x800) / 16))).getLsbD 62 then
    .trapAny Cause.access (num (2 * 2 ^ 12))
  else then_

/-! ### Reading (R16, R18, R323, R337, R379, R403) -/

/-- TRAP_STATUS (R337). -/
def Strand.trapStatus (t : Strand) : Word :=
  num (t.prev.toNat + (if t.async then 4 else 0) + (if t.inHandler then 16 else 0) + (if t.ovf then 32 else 0) +
    2 ^ 12 * t.events.length)

/-- MODE (R16). -/
def Strand.mode (t : Strand) : Word := num (t.level.code.toNat + if t.secure then 4 else 0)

/-- SPAWN_ERR (R20). -/
def Strand.spawnErrWord (t : Strand) : Word := num (16 * t.spawnCause.toNat + if t.spawnErr then 1 else 0)

/-- XLATE_ROOT: the address of the level-1 table of the ASID (R323). -/
def State.xlateRoot (s : State) : Word := s.bar (asroot s.me.asid.toNat) &&& bitsMask 51 16

/-- The die on whose rail controller register `n` lies (R378). -/
def cpDie (n : Nat) : Nat := (n - 0x400) / 8 / 12

/-- The value of an assigned register; a controller's reads zero while its die is not ready (R404). -/
def State.sysRead (s : State) (n : Nat) : Word :=
  let t := s.me
  match n with
  | 0x000 => t.ids.strandId
  | 0x001 => t.ids.crewId
  | 0x002 => t.ids.crewSize
  | 0x003 => t.ids.launchId
  | 0x004 => t.ids.slotId
  | 0x005 => t.mode
  | 0x008 => t.ids.coreId
  | 0x009 => t.ids.clusterId
  | 0x00A => t.ids.dieId
  | 0x00B => num (s.barField 0x2000 11 0)
  | 0x00C => t.ids.partId
  | 0x010 => t.ids.tileBase
  | 0x011 => t.ids.tileCount
  | 0x012 => t.ids.barBase
  | 0x013 => t.ids.barCount
  | 0x014 => t.ids.accCount
  | 0x020 => s.coreCycles t.core
  | 0x021 => t.issued
  | 0x100 => t.fpflags.setWidth 64
  | 0x101 => t.fpmode.setWidth 64
  | 0x102 => t.spawnErrWord
  | 0x200 => t.trapCause
  | 0x201 => t.trapPc
  | 0x202 => t.trapAddr
  | 0x203 => t.trapInfo
  | 0x204 => s.trapVec
  | 0x205 => t.trapStatus
  | 0x206 => s.trapScratch
  | 0x208 => t.asid.setWidth 64
  | 0x209 => s.xlateRoot
  | 0x20A => s.part t.part 0x028
  | 0x20B => if s.asidHost t.asid.toNat then num (s.pasid t.asid.toNat) else 0
  | 0x700 => s.bar 0x100
  | 0x701 => Config.packageId
  | n =>
    if n < 0x700 then (if s.ready (cpDie n) then s.cp ((n - 0x400) / 8) (n % 8) else 0)
    else s.ring ((n - 0x800) / 16) (n % 16)

/-- What a controller has been written and not yet evaluated (R380). -/
def State.pulse? (s : State) (c : Nat) : Option Pulse := (s.pulses.find? fun p => p.1 == c).map (·.2)

/-- More cycles of a core may have passed than it has issued (R18): how many is free.
Left open by the spec: log entry 7 (DESIGN CHOICE). -/
def State.elapse (s : State) (core : Nat) : State :=
  let w := s.freshWord
  { w.2 with cycles := mapSet 0 core (w.2.coreCycles core + num (w.1.toNat % 2 ^ 32)) w.2.cycles }

/-- IMEAS as measured now: free while the rail is on, up to the current at which the regulator drops it (R379, R386).
Left open by the spec: log entry 7 (DESIGN CHOICE). -/
def State.senseRail (s : State) (c : Nat) : State :=
  if s.cpState c = 6 then s
  else
    let w := s.freshWord
    w.2.setCp c 3 (withField (w.2.cp c 3) 47 32 (w.1.toNat % 3201))

/-- What the machine measures in the step of a read: cycles, or the current of a rail. -/
def State.sense (s : State) (n : Nat) : State :=
  if n = 0x020 then s.elapse s.me.core
  else if 0x400 ≤ n ∧ n < 0x700 ∧ n % 8 = 3 then s.senseRail ((n - 0x400) / 8)
  else s

/-- SRD (R154). A controller with writes to evaluate answers after its evaluation, and X[D] is pending until then (R29,
R380). Left open by the spec: log entry 14 (DEDUCED), log entry 33 (DESIGN CHOICE). -/
def execSrd (g : Guard) (o : SrdOp) (s : State) : Res :=
  frame g [o.d] [] (fun s =>
    let n := o.n.toNat
    s.sysReach n false <|
      if 0x400 ≤ n ∧ n < 0x700 ∧ (s.pulse? ((n - 0x400) / 8)).isSome ∧ o.d ≠ 0 then
        .ok (s.onMe fun t => { t with asked := t.asked ++ [(o.d, n)] })
      else .ok ((s.sense n).setX o.d ((s.sense n).sysRead n) false)) s

/-- The answers that an evaluation of controller `c` makes due (R380). -/
def State.answerAsked (s : State) (c : Nat) : State :=
  let due (a : XReg × Nat) : Bool := (a.2 - 0x400) / 8 == c
  s.strands.foldl (fun (s : State) (t : Strand) =>
    (t.asked.filter due).foldl (fun (s : State) (a : XReg × Nat) =>
      let s := s.sense a.2
      let w := s.sysRead a.2
      s.onStrand t.key fun t => { t.setX a.1 w false with asked := t.asked.filter fun b => !due b }) s) s

/-! ### Writing a controller's registers (R379, R380, R388) -/

/-- CPTL, CPSTAT, CPSAVE, CPRAIL, CPWAKE and CPTIME after a write. -/
def State.cpWritten (s : State) (c i : Nat) (w : Word) : Word :=
  let old := s.cp c i
  match i with
  | 0 => w &&& 3
  | 1 => if w.getLsbD 4 then withBit old 4 false else old
  | 2 => w &&& bitsMask 51 12
  | 3 =>
    let st := s.cpState c
    let vset := fieldOf w 55 48
    let old := withBit (withField old 15 0 (fieldOf w 15 0)) 63 (w.getLsbD 63)
    let old := if w.getLsbD 61 then withBit old 61 false else old
    if 56 ≤ vset ∧ vset ≤ 68 ∧ (st = 5 ∨ st = 6 ∨ st = 8) then withField old 55 48 vset else old
  | 4 =>
    let old := if w.getLsbD 1 then withBit old 0 false else old
    if w.getLsbD 0 then withBit old 0 true else old
  | 5 => withField old 31 0 (fieldOf w 31 0)
  | _ => old

/-- A write to a controller, whose evaluation is then due (R380). Left open by the spec: log entry 37 (DEDUCED). -/
def State.cpWrite (s : State) (c i : Nat) (w : Word) : State :=
  let p := (s.pulse? c).getD .none
  let p := if i = 0 then
      { p with
        save := p.save || w.getLsbD 2
        restore := p.restore || w.getLsbD 3
        rise := p.rise || (w.getLsbD 0 && !(s.cp c 0).getLsbD 0) }
    else p
  let held := if i = 3 ∧ !w.getLsbD 63 then s.railHeld.filter (· != c) else s.railHeld
  { s with
    pulses := (c, p) :: s.pulses.filter fun q => q.1 != c
    railHeld := held }.setCp c i (s.cpWritten c i w)

/-! ### Writing a ring's registers (R244 to R246) -/

/-- The bits of a ring register that a write changes (R245). -/
def ringMask (i : Nat) : Word :=
  match i with
  | 0 => bitsMask 63 16 ||| bitsMask 14 8
  | 4 => 0
  | 5 => bitsMask 47 0
  | 8 => bitsMask 63 63 ||| bitsMask 55 0
  | 9 => bitsMask 63 16 ||| bitsMask 5 0
  | 11 => bitsMask 63 32
  | 15 => bitsMask 63 42
  | _ => BitVec.allOnes 64

/-- The conditions of R246 under which EN may be set with RGCTL `w`.
Left open by the spec: log entry 30 (DESIGN CHOICE). -/
def State.ringConfigOk (s : State) (n : Nat) (w : Word) : Bool :=
  let t := s.setRing n 0 w
  let program := w.getLsbD 62
  let part := s.barField (rngown n) 59 56
  let log2n := fieldOf w 57 52
  let ssize := fieldOf w 43 41
  let kn := fieldOf (s.ring n 9) 5 0
  let kh := fieldOf (s.ring n 10) 5 0
  let win := s.ring n 3
  let grp := s.ring n 15
  let a := s.ring n 6
  let b := s.ring n 7
  let tile (x : Word) := x == 0 || gtWellFormed x
  decide ((if program then 4 else 10) ≤ log2n ∧ log2n ≤ 32 ∧ ssize ≤ 5 ∧ log2n ≤ kn ∧ kn ≤ 36 ∧ 1 ≤ kh ∧ kh ≤ 20) &&
    decide (fieldOf w 51 48 ≤ 13 ∧ fieldOf w 47 44 ≤ 13 ∧ fieldOf w 11 8 ≤ 11) &&
    (!program || fieldOf w 51 48 == fieldOf w 47 44) &&
    [2, 4, 8, 16, 32, 64].contains (t.rgSize n) &&
    decide (t.rgBlock n * t.rgSize n ≤ 4032) && !(t.rgBlock n != 0 && a == 0 && b == 0) &&
    (List.range 4).all (fun l => decide (t.rgDepth n l ≤ 64)) &&
    !(program && (w.getLsbD 59 || w.getLsbD 58 || grp.getLsbD 43 || grp.getLsbD 42)) &&
    !(w.getLsbD 58 && t.rgElems n % 3 != 0) &&
    decide (fieldOf win 23 0 + fieldOf win 47 24 + 1 ≤ 2 ^ log2n) &&
    tile a && tile b && s.asidOwned (fieldOf grp 63 48) part &&
    (program || (List.range 64).all fun m =>
      m == n || !s.rgEnabled m || s.rgProgram m ||
        !(fieldOf (s.ring m 0) 40 38 == fieldOf w 40 38 && fieldOf (s.ring m 0) 37 32 == fieldOf w 37 32 &&
          fieldOf (s.ring m 0) 31 16 == fieldOf w 31 16))

/-- Whether a value is one that the description of ring register i allows, for its fields that R246 does not check at EN
(R154, R245). -/
def ringValueOk (i : Nat) (w : Word) : Bool :=
  match i with
  | 0 => decide (fieldOf w 51 48 ≤ 13 ∧ fieldOf w 47 44 ≤ 13 ∧ fieldOf w 11 8 ≤ 11) &&
      (!w.getLsbD 62 || fieldOf w 51 48 == fieldOf w 47 44)
  | 1 => fieldOf w 15 0 == 0
  | 2 => fieldOf w 5 0 == 0
  | 5 => (List.range 4).all fun l => decide (fieldOf w (8 * l + 7) (8 * l) ≤ 64)
  | 10 => decide (1 ≤ fieldOf w 5 0 ∧ fieldOf w 5 0 ≤ 20)
  | 13 => fieldOf w 9 0 == 0
  | _ => true

/-- An SWR to register i of ring n: none where it raises ILLEGAL (R154, R244, R246). A write that sets EN has no effect
where the ring's world is not its partition's (R356). Clearing EN leaves the closing of claims to RING_DISABLE, setting
it the work of R246 to RING_ENABLE. Left open by the spec: log entry 37 (DEDUCED). -/
def State.ringWrite (s : State) (n i : Nat) (w : Word) : Option State :=
  let old := s.ring n i
  let new := (old &&& ~~~ringMask i) ||| (w &&& ringMask i)
  if s.rgEnabled n then
    if i = 0 then (if new = withBit old 63 false then some (s.disableRing n) else none)
    else if i = 8 ∨ i = 11 ∨ i = 12 then some (s.setRing n i new)
    else none
  else if !ringValueOk i new then none
  else if i = 0 ∧ new.getLsbD 63 then
    if !s.ringConfigOk n new then none
    else if s.partSecure (s.barField (rngown n) 59 56) != (s.bar (rngown n)).getLsbD 62 then some s
    else some (((s.closeNow n).setRing n 0 new).setUnit n (.fresh s.me.key))
  else some (s.setRing n i new)

/-! ### Writing (R154, R155, R323, R337) -/

/-- SWR of a value: none where the register's description forbids it (step 6).
Left open by the spec: log entry 37 (DEDUCED). -/
def State.sysWrite (s : State) (n : Nat) (w : Word) : Option State :=
  let t := s.me
  match n with
  | 0x100 => some (s.onMe fun t => { t with fpflags := w.setWidth 5 })
  | 0x101 => if 4 < fieldOf w 2 0 then none else some (s.onMe fun t => { t with fpmode := w.setWidth 3 })
  | 0x102 => some (s.onMe fun t => { t with spawnCause := w.extractLsb' 4 4, spawnErr := w.getLsbD 0 })
  | 0x200 => some (s.onMe fun t => { t with trapCause := w })
  | 0x201 => some (s.onMe fun t => { t with trapPc := w })
  | 0x202 => some (s.onMe fun t => { t with trapAddr := w })
  | 0x203 => some (s.onMe fun t => { t with trapInfo := w })
  | 0x204 =>
    if fieldOf w 2 0 ≠ 0 then none
    else some (if t.isInsole then s.onMe fun t => { t with trapVec := w } else s.setPart t.part 0x070 w)
  | 0x205 =>
    let prev := fieldOf w 1 0
    if prev = 3 ∨ (prev = 2 ∧ !t.isInsole) then none
    else some (s.onMe fun t => { t with
      prev := w.setWidth 2, async := w.getLsbD 2, inHandler := w.getLsbD 4, ovf := w.getLsbD 5 })
  | 0x206 => some (if t.isInsole then s.onMe fun t => { t with trapScratch := w } else s.setPart t.part 0x078 w)
  | 0x208 =>
    if !s.asidOwned w.toNat t.part || (s.isVoted t && s.asidHost w.toNat) then none
    else some (s.onMe fun t => { t with asid := w.setWidth 16 })
  | 0x209 =>
    let a := t.asid.toNat
    if s.asidHost a || decide (w.toNat % 2 ^ 16 ≠ 0 ∨ hbmEnd ≤ w.toNat) then none else some (s.setBar (asroot a) w)
  | 0x20A => some (s.setPart t.part 0x028 (w &&& bitsMask 47 0))
  | n =>
    if n < 0x700 then some (if s.ready (cpDie n) then s.cpWrite ((n - 0x400) / 8) (n % 8) w else s)
    else s.ringWrite ((n - 0x800) / 16) (n % 16) w

/-- SWR (R154, R155). Left open by the spec: log entry 37 (DEDUCED). -/
def execSwr (g : Guard) (o : SwrOp) (s : State) : Res :=
  frame g [o.a] [] (fun s =>
    s.sysReach o.n.toNat true <|
      if s.xPois o.a then .trap Cause.poison 0 0
      else
        match s.sysWrite o.n.toNat (s.xr o.a) with
        | none => .trap Cause.illegal 0 0
        | some t => .ok t) s

/-! ### The rest of SYS -/

def execNop (g : Guard) (s : State) : Res := frame g [] [] (fun s => .ok s) s

/-- TRAP raises SOFTWARE, BRK raises BREAK (R152). -/
def execTrap (g : Guard) (o : TrapOp) (s : State) : Res :=
  frame g [] [] (fun _ => .trap Cause.software 0 (o.code.setWidth 64)) s
def execBrk (g : Guard) (s : State) : Res := frame g [] [] (fun _ => .trap Cause.breakpoint 0 0) s

/-- An instruction of supervisor level (R151). -/
def supervisorOnly (s : State) (e : Eff) : Eff := if s.me.level = .program then .trap Cause.privilege 0 0 else e

/-- ERET (R153, R336); Insole's returns to machine level (R409). PC holds a multiple of 8 (R11).
Left open by the spec: log entry 12 (DEDUCED). -/
def execEret (g : Guard) (s : State) : Res :=
  frame g [] [] (fun s => supervisorOnly s <| .go (s.onMe fun t =>
    { t with
      pc := t.trapPc &&& ~~~7#64
      level := if t.isInsole then .machine else .ofCode t.prev
      inHandler := false })) s

/-- A wait until references are performed at a scope, then the acquire of R60; no wait where they are already. -/
def State.fenceOn (s : State) (rs : List Ref) (scope : Scope) : Eff :=
  if s.allPerformed rs scope then .ok (s.acquireMe scope) else .wait (.handles rs none scope true)

/-- FENCE (R156). -/
def execFence (g : Guard) (o : ScopeOp) (s : State) : Res :=
  frame g [] [] (fun s => s.fenceOn (s.earlierAll s.me) o.scope) s

/-- Whether an access touches the virtual range from `a` of `n` bytes, which ends at 2^64 − 1 at the latest. -/
def touchesRange (a : Word) (n : Nat) (x : Access × Nat) : Bool :=
  x.1.asid.isSome && decide (n ≠ 0 ∧ x.1.va.toNat < a.toNat + n ∧ a.toNat < x.1.va.toNat + x.2)

/-- Whether a copy command of the strand has a layout in global memory (R156). -/
def State.copyIsGlobal (s : State) (c : CopyItem) : Bool :=
  s.jobs.any fun j => j.engine == c.engine && j.slot == c.slot && j.state.alive &&
    (j.src.space == 0 || j.src.space == 3 || j.dst.space == 0 || j.dst.space == 3)

/-- The items that overlap a virtual range with any of their bytes, in the strand's queues or on their way (R156). -/
def State.overlapping (s : State) (a : Word) (n : Nat) : List Ref :=
  (s.me.entriesWhere fun b =>
    b.touches.any (touchesRange a n) ||
      match b with
      | .copy c => decide (n ≠ 0) && s.copyIsGlobal c
      | _ => false) ++
  ((s.uplinks ++ s.fabric ++ s.votedEntries).filter fun e =>
    e.ref.key == s.me.key && e.whole.any (touchesRange a n)).map (·.ref)

/-- FENCER (R156). -/
def execFencer (g : Guard) (o : RangeOp) (s : State) : Res :=
  frame g [o.a, o.b] [] (fun s => supervisorOnly s <|
    if s.xPois o.a || s.xPois o.b then .trap Cause.poison 0 0
    else s.fenceOn (s.overlapping (s.xr o.a) (s.xr o.b).toNat) o.scope) s

/-- CHK and CHKV (R157). -/
def execChk (g : Guard) (o : SrcX) (s : State) : Res :=
  frame g [o.a] [] (fun s => if s.xPois o.a then .trap Cause.poison 0 0 else .ok s) s

def execChkv (g : Guard) (o : ChkvOp) (s : State) : Res :=
  frame g [] [o.a] (fun s =>
    match (lanesOf (s.kr o.m)).find? (s.vPois o.a).getLsbD with
    | some i => .trap Cause.poison 0 (num i)
    | none => .ok s) s

/-- ROINV drops the core's read-only copies (R158). -/
def execRoinv (g : Guard) (s : State) : Res := frame g [] [] (fun s => .ok (s.acquireMe .core)) s

/-! ### TLBI (R159) -/

/-- Whether [a, a + n) meets the 64 KiB page of an address. -/
def meetsPage (va : Word) (a n : Nat) : Bool :=
  decide (a < va.toNat / 2 ^ 16 * 2 ^ 16 + 2 ^ 16 ∧ va.toNat / 2 ^ 16 * 2 ^ 16 < a + n)

def State.asidPart (s : State) (a : Nat) : Nat := s.barField (asent a) 59 56

/-- Whether a translation of `asid` over [a, a + n) is removed. -/
def State.removes (s : State) (r : Removed) (asid a n : Nat) : Bool :=
  match r with
  | .page i va => i == asid && meetsPage va a n
  | .space i => i == asid
  | .all p => s.asidPart asid == p

/-- Whether an ATC entry's PASID and range are removed: those of some ASID with that PASID. -/
def State.removesAtc (s : State) (r : Removed) (e : AtcEntry) : Bool :=
  match r with
  | .page i va => s.asidHost i && s.pasid i == e.pasid && meetsPage va e.va e.size
  | .space i => s.asidHost i && s.pasid i == e.pasid
  | .all p => (List.range 1024).any fun i => s.asidOwned i p && s.asidHost i && s.pasid i == e.pasid

/-- The items and jobs that used translations satisfying a predicate on ASID and address, and are not performed at
system scope. -/
def State.users (s : State) (used : Nat → Word → Bool) : List Ref × List (Nat × Nat) :=
  let hit : Access → Bool := fun a => match a.asid with
    | some i => used i a.va
    | none => false
  (s.strands.flatMap (fun t => (List.range 8).flatMap fun i =>
      let h := BitVec.ofNat 3 i
      ((t.queue h).filter fun e => e.body.awaits.any fun x => hit x.1).map fun e => t.ref h e.n) ++
    ((s.uplinks ++ s.fabric ++ s.votedEntries).filter fun e => e.pieces.any fun p => hit p.access).map (·.ref),
   (s.jobs.filter fun j => j.state.alive && match j.doneAt with
      | some a => hit a
      | none => false).map fun j => (j.engine, j.slot))

/-- The translations removed (R332); the users of what was removed, to be waited for. -/
def State.remove (s : State) (r : Removed) : State × (List Ref × List (Nat × Nat)) :=
  let gone := s.tlb.filter fun l => s.removes r l.asid l.va l.size
  let goneAtc := s.atc.filter fun e => s.removesAtc r e
  let used := fun asid (va : Word) =>
    s.removes r asid va.toNat 1 ||
      (gone.any fun l => l.asid == asid && decide (l.va ≤ va.toNat ∧ va.toNat < l.va + l.size)) ||
      (s.asidHost asid && goneAtc.any fun e =>
        s.pasid asid == e.pasid && decide (e.va ≤ va.toNat ∧ va.toNat < e.va + e.size))
  ({ s with
      tlb := s.tlb.filter fun l => !s.removes r l.asid l.va l.size
      upper := s.upper.filter fun u => !s.removes r u.asid u.va (tableSpan u.level)
      atc := s.atc.filter fun e => !s.removesAtc r e },
   s.users used)

/-- Whether a removal's accesses have been performed at system scope. -/
def State.removalDone (s : State) (r : Removal) : Bool :=
  s.allPerformed r.refs .system &&
    !(r.jobs.any fun k => s.jobs.any fun j => j.engine == k.1 && j.slot == k.2 && j.state.alive)

/-- The removal, and the wait until the accesses that used it are performed: those that used what the strand has removed
by the same TLBI before a trap or a pre-emption cut its wait among them. -/
def State.tlbi (s : State) (r : Removed) : Eff :=
  let x := s.remove r
  let id := x.1.nextId
  let cut (q : Removal) : Bool := q.by_ == some (s.me.key, r)
  let before := s.removals.filter cut
  let rec_ : Removal :=
    ⟨id, x.2.1 ++ before.flatMap (·.refs), x.2.2 ++ before.flatMap (·.jobs), some (s.me.key, r), false, none⟩
  let t := { x.1 with removals := x.1.removals.filter fun q => !cut q }
  if t.removalDone rec_ then .ok t
  else .hold { t with removals := rec_ :: t.removals, nextId := id + 1 } (.removal id)

/-- TLBI (R159). An ASID that is not the partition's raises ACCESS; Insole has none (R409).
Left open by the spec: log entry 10 (DEDUCED). -/
def execTlbi (g : Guard) (o : TlbiOp) (s : State) : Res :=
  frame g [o.a, o.b] [] (fun s =>
    let asid := (s.xr o.b).toNat % 2 ^ 16
    let owned (r : Removed) : Eff :=
      if s.asidOwned asid s.me.part then s.tlbi r else .trapAny Cause.access (num (6 * 2 ^ 12))
    if s.me.isInsole then .trap Cause.illegal 0 0
    else supervisorOnly s <|
      match o.kind with
      | .page => if s.xPois o.a || s.xPois o.b then .trap Cause.poison 0 0 else owned (.page asid (s.xr o.a))
      | .space => if s.xPois o.b then .trap Cause.poison 0 0 else owned (.space asid)
      | .all => s.tlbi (.all s.me.part)) s

/-! ### The event wait (R160, R224) -/

/-- The wait of WAITI and PARK: the limit in X[A], none for 0. -/
def State.eventWait (s : State) (a : XReg) (park : Bool) : Eff :=
  if s.xPois a then .trap Cause.poison 0 0
  else .wait (.event park false (s.coreCycles s.me.core) (if s.xr a = 0 then none else some (s.xr a).toNat))

def execWaiti (g : Guard) (o : SrcX) (s : State) : Res :=
  frame g [o.a] [] (fun s => supervisorOnly s (s.eventWait o.a false)) s

end Sys2Proof.Machine
end

