-- ==== Sys2Proof/Machine/Task.lean ====
section
/-!
DEFINITION. Task.lean: EXIT, YIELD and PARK, and what SPAWN reads and offers (R222 to R224).
-/

namespace Sys2Proof.Machine

/-- An instruction that needs a partition or crew: ILLEGAL on Insole (R409). -/
def crewOnly (s : State) (e : Eff) : Eff := if s.me.isInsole then .trap Cause.illegal 0 0 else e

/-! ### SPAWN (R223) -/

/-- What the record's bytes come to: the bytes with their poison, and the home of the first with the PIN of its leaf; or
why they cannot be read. -/
inductive SpawnRead where
  | bytes (bs : List Byte) (p : Bool) (home : Option (Place × Bool))
  | refused
  | wait (w : Wait)

/-- A byte at its home; another package answers with the whole record. -/
def State.byteHome (s : State) (p : Place) : Byte × Bool :=
  let r := s.readHome p 1 .none
  if p.isRemote then (0, false) else (r.1.headD 0, r.2)

/-- The record's bytes one by one, each translated as a load. Left open by the spec: log entry 20 (DEDUCED). -/
def State.spawnRead (s : State) (va : Word) (d : CReg) : Nat → SpawnRead
  | 0 => .bytes [] false none
  | n + 1 =>
    match s.spawnRead va d n with
    | .refused => .refused
    | .wait w => .wait w
    | .bytes bs p home =>
      let a := va + num n
      match s.xlate (s.who s.me) .load a with
      | .fail _ _ => .refused
      | .miss k => .wait (.walk k ⟨a, 0, .spawn d⟩)
      | .ats k => .wait (.ats k ⟨a, 0, .spawn d⟩)
      | .page k =>
        if s.priStopped.contains (s.asidFn k.asid) then .refused else .wait (.hostPage k ⟨a, 0, .spawn d⟩)
      | .at pl pin =>
        let b := s.byteHome pl
        .bytes (bs ++ [b.1]) (p || b.2) (home.or (some (pl, pin)))

/-- The access of SPAWN's record at its home: it counts at a CXL home agent (R370), and a port that is down raises
ACCESS with reason 8 as an event (R369). -/
def State.meetRecord (s : State) (va : Word) (home : Option (Place × Bool)) : State :=
  match home with
  | some (.dev a, pin) =>
    let asid := s.me.asid.toNat
    if s.cxlLost a then s.blame s.me.key Cause.access ⟨0, va, some asid, .dev a, pin⟩ 8 else s.noteCxl (.dev a) asid pin
  | _ => s

/-- The request for a record at another package, where a route lets it leave.
Left open by the spec: log entry 20 (DEDUCED). -/
def State.askRecord (s : State) (v : Via) (a : Nat) (scope : Scope) : State :=
  if s.routed v.node then
    s.dispatch v { s.header v a s.me.secure with kind := Packet.read, len := 64, scope := scope.code }
  else s

/-- The record offered, and what SPAWN leaves in the strand. Left open by the spec: log entry 21 (DESIGN CHOICE). -/
def State.spawnWith (s : State) (bs : List Byte) (d : CReg) (gate : Gate) : State :=
  let r := s.offerSpawn s.me.part bs gate
  let s := match r with
    | .ok t => t
    | .error _ => s
  s.onMe fun t => t.spawned d r

/-- The number that stands for the part of an item in the tag of a SPAWN. -/
def spawnPart : Nat := 2 ^ 16

/-! ### EXIT, YIELD, PARK (R224) -/

/-- The strand retired (R32): its pending events go to the partition, oldest first (R340). -/
def State.exitMe (s : State) : State :=
  let s' := match s.crew? s.me.key.crew with
    | some c => s.me.events.foldl (fun (s : State) (e : PendEvent) => s.crewFault c e.cause e.info e.addr) s
    | none => s
  s'.onMe fun t => { t with live := false, events := [] }

def execExit (g : Guard) (s : State) : Res := frame g [] [] (fun s => crewOnly s (.ok s.exitMe)) s

/-- YIELD changes no state: its issue is the strand's turn, and round-robin goes on behind it (R29). -/
def execYield (g : Guard) (s : State) : Res := frame g [] [] (fun s => .ok s) s

def execPark (g : Guard) (o : SrcX) (s : State) : Res := frame g [o.a] [] (fun s => s.eventWait o.a true) s

end Sys2Proof.Machine
end

