-- ==== Sys2Proof/Machine/Copy.lean ====
section
/-!
DEFINITION. Copy.lean: CPY (R228 to R233, R410, R411), layout entries (R225 to R227) and command blocks (R229).
-/

namespace Sys2Proof.Machine

/-! ### Layout entries and blocks -/

def signedOf (bits n : Nat) : Int := if n < 2 ^ (bits - 1) then n else (n : Int) - 2 ^ bits

/-- A layout entry from its 64 bytes (R226). -/
def Layout.ofBytes (bs : List Byte) : Layout where
  base := num (fieldAt bs 0x00 8)
  space := fieldAt bs 0x08 1
  type := fieldAt bs 0x09 1
  rank := fieldAt bs 0x0A 1
  bankXor := fieldAt bs 0x0B 1
  extent := (List.range 4).map fun i => fieldAt bs (0x10 + 4 * i) 4
  stride := 0 :: (List.range 3).map fun i => signedOf 64 (fieldAt bs (0x20 + 8 * i) 8)

/-- A command block from its 64 bytes (R229). -/
def Block.ofBytes (bs : List Byte) : Block where
  op := fieldAt bs 0x00 1
  transpose := fieldAt bs 0x01 1 % 2 == 1
  edgeZero := fieldAt bs 0x01 1 / 2 % 2 == 1
  status := fieldAt bs 0x01 1 / 4 % 2 == 1
  bulkRow := fieldAt bs 0x01 1 / 8 % 2 == 1
  srcLay := fieldAt bs 0x02 1
  dstLay := fieldAt bs 0x03 1
  srcType := fieldAt bs 0x04 1
  dstType := fieldAt bs 0x05 1
  round := fieldAt bs 0x06 1
  srcCoord := (List.range 4).map fun i => signedOf 32 (fieldAt bs (0x08 + 4 * i) 4)
  dstCoord := (List.range 4).map fun i => signedOf 32 (fieldAt bs (0x18 + 4 * i) 4)
  box := (List.range 4).map fun i => fieldAt bs (0x28 + 2 * i) 2
  fill := fieldAt bs 0x08 4
  scale := fieldAt bs 0x30 4
  doneKind := fieldAt bs 0x34 1
  doneSel := fieldAt bs 0x35 1
  donePhase := fieldAt bs 0x36 1
  doneAddr := num (fieldAt bs 0x38 8)

/-- The conditions of a list, each with the offset it reports: the first that fails. -/
def firstFailing : List (Nat × Bool) → Option Nat
  | [] => none
  | (off, ok) :: cs => if ok then firstFailing cs else some off

/-- The fields of a layout entry in rising offset (R226, R410). -/
def layoutError? (bs : List Byte) : Option Nat :=
  let l := Layout.ofBytes bs
  firstFailing <|
    [(0x00, l.space != 2 || fieldOf l.base 51 6 == 0),
     (0x08, decide (l.space ≤ 3)),
     (0x09, decide (l.type ≤ 13)),
     (0x0A, decide (1 ≤ l.rank ∧ l.rank ≤ 4) && (l.space != 2 || l.rank == 1)),
     (0x0B, decide (l.bankXor ≤ 3) && (l.bankXor == 0 || l.space == 1)),
     (0x0C, fieldAt bs 0x0C 4 == 0)] ++
    ((List.range 4).map fun i => (0x10 + 4 * i, (l.extent.getD i 0 == 0) == decide (l.rank ≤ i))) ++
    ((List.range 3).map fun i => (0x20 + 8 * i, decide (i + 1 < l.rank) || l.stride.getD (i + 1) 0 == 0)) ++
    [(0x38, fieldAt bs 0x38 8 == 0)]

/-- Pass 1 of R410: each field on its own; `entries` is the number of layout entries. -/
def blockFieldError? (bs : List Byte) (entries : Nat) : Option Nat :=
  let b := Block.ofBytes bs
  firstFailing
    [(0x00, decide (1 ≤ b.op ∧ b.op ≤ 3)), (0x01, decide (fieldAt bs 0x01 1 < 16)),
     (0x02, decide (b.srcLay < entries)), (0x03, decide (b.dstLay < entries)),
     (0x04, decide (b.srcType ≤ 13)), (0x05, decide (b.dstType ≤ 13)), (0x06, decide (b.round ≤ 3)),
     (0x07, fieldAt bs 0x07 1 == 0), (0x28, b.box.getD 0 0 != 0), (0x2A, b.box.getD 1 0 != 0),
     (0x2C, b.box.getD 2 0 != 0), (0x2E, b.box.getD 3 0 != 0), (0x30, decide (b.scale < 2 ^ 20)),
     (0x34, decide (b.doneKind ≤ 3)), (0x36, decide (b.donePhase ≤ 3)), (0x37, fieldAt bs 0x37 1 == 0),
     (0x38, b.doneAddr.toNat % 8 == 0)]

/-- BOX against a RANK (R229). -/
def boxChecks (b : Block) (rank : Nat) : List (Nat × Bool) :=
  (List.range 4).map fun i => (0x28 + 2 * i, if i < rank then b.box.getD i 0 != 0 else b.box.getD i 0 == 1)

/-- Whether the 4-bit type of a side has an even coordinate and box in dimension 0.
Left open by the spec: log entry 28 (DESIGN CHOICE). -/
def evenSide (type : Nat) (coord : List Int) (b : Block) : Bool :=
  !(type == 11 || type == 12) || (coord.getD 0 0 % 2 == 0 && b.box.getD 0 0 % 2 == 0)

/-- Pass 3 of R410: the limits of R229 that join several fields, in its order. -/
def blockLimitError? (b : Block) (src dst : Layout) (tiles bars : Nat) : Option Nat :=
  let fill := b.op == 2
  firstFailing <|
    [(0x04, fill || b.srcType == src.type), (0x05, b.dstType == dst.type)] ++
    (if fill then [] else boxChecks b src.rank) ++
    [(0x03, dst.space != 2), (0x02, !b.transpose || fill || decide (2 ≤ src.rank)),
     (0x03, !b.transpose || decide (2 ≤ dst.rank))] ++
    (if fill then
      [(0x02, b.srcLay == 0), (0x05, b.srcType == b.dstType), (0x01, !b.transpose && !b.edgeZero)] ++ boxChecks b dst.rank
     else []) ++
    (if b.op = 3 then
      [(0x02, src.space == 0 && src.rank == 1), (0x03, dst.space == 0 && dst.rank == 1)]
     else []) ++
    [(0x28, fill || evenSide b.srcType b.srcCoord b), (0x28, evenSide b.dstType b.dstCoord b),
     (0x35, match b.doneKind with
       | 1 => decide (b.doneSel < tiles)
       | 2 => decide (b.doneSel < bars)
       | _ => b.doneSel == 0),
     (0x36, if b.doneKind = 2 then decide (b.donePhase ≤ 3) else b.donePhase == 0),
     (0x38, if b.doneKind = 3 then b.doneAddr.toNat % 8 == 0 else b.doneAddr == 0),
     (0x30, !fill || b.scale == 0)]

/-! ### LAYSET and LAYGET (R228) -/

def entryRegs : EntryRef → List XReg
  | .imm _ => []
  | .reg c => [c]

/-- The checks of a 64-byte block in the crew's tiles: POISON, MISALIGN, SPACE. -/
def State.localBlock (s : State) (a : XReg) (e : Eff) : Eff :=
  if s.xPois a then .trap Cause.poison 0 0
  else if (s.xr a).toNat % 64 ≠ 0 then .trap Cause.misalign (s.xr a) 0
  else if !s.inTiles (s.xr a) 64 then .trap Cause.space (s.xr a) 0
  else e

/-- An entry number below 4 × CREW_SIZE (R225); Insole has no entries (R409). -/
def State.entryRef (s : State) (r : EntryRef) (then_ : Nat → Eff) : Eff :=
  let count := if s.me.isInsole then 0 else 4 * s.me.ids.crewSize.toNat
  let go (n : Word) : Eff := if count ≤ n.toNat then .trap Cause.space n 0 else then_ n.toNat
  match r with
  | .imm n => go (n.setWidth 64)
  | .reg c => if s.xPois c then .trap Cause.poison 0 0 else go (s.xr c)

/-- A layout entry of a crew: zero until it is set (R225). -/
def State.layoutBytes (s : State) (crew n : Nat) : List Byte :=
  match s.crew? crew with
  | some c => c.layouts.getD n (List.replicate 64 0)
  | none => List.replicate 64 0

/-- The absolute address of a local one. -/
def State.localAddr (s : State) (a : Word) : Nat := (s.localPlace a.toNat).addr

/-- The strand's earlier scratchpad stores to 64 bytes, to be waited for (R197, R228, R230). -/
def State.storesTo (s : State) (a : Word) : List Ref := s.ownScratch true (s.localAddr a) 64

/-- Left open by the spec: log entry 28 (DESIGN CHOICE). -/
def execLayset (g : Guard) (o : LayOp) (s : State) : Res :=
  frame g (o.a :: entryRegs o.e) [] (fun s =>
    s.localBlock o.a <| s.entryRef o.e fun n =>
      afterItems (s.storesTo (s.xr o.a)) <|
        let bs := (s.readTile (s.localAddr (s.xr o.a)) 64).1
        match layoutError? bs with
        | some off => .trapAny Cause.engineFault (num off)
        | none => .ok (s.onCrew s.me.key.crew fun c => { c with layouts := setNth c.layouts n bs })) s

def execLayget (g : Guard) (o : LayOp) (s : State) : Res :=
  frame g (o.a :: entryRegs o.e) [] (fun s =>
    s.localBlock o.a <| s.entryRef o.e fun n =>
      .ok (s.writeTile (s.localAddr (s.xr o.a)) (s.layoutBytes s.me.key.crew n) false)) s

/-! ### Jobs and tickets (R233, R273) -/

/-- A ticket. -/
def ticket (engine slot : Nat) (seq : BitVec 32) : Word :=
  num (slot + 2 ^ 8 * (engine % 12) + 2 ^ 12 * (engine / 12) + 2 ^ 32 * seq.toNat)

/-- The job in a slot whose SEQ is that of a ticket, where the slot holds no other; keep-copies have no ticket. -/
def State.jobOf (s : State) (t : Word) : Option Job :=
  s.jobs.find? fun j =>
    j.keep.isNone && j.engine == 12 * fieldOf t 14 12 + fieldOf t 11 8 && j.slot == fieldOf t 5 0 && j.seq.toNat == fieldOf t 63 32

/-- The job in a slot of an engine. -/
def State.jobAt? (s : State) (engine slot : Nat) : Option Job :=
  s.jobs.find? fun j => j.engine == engine && j.slot == slot

/-- A copy's slot stands for the job its voted crew shares (R42). -/
def State.leaderOf (s : State) (j : Job) : Job :=
  match j.leader with
  | some (e, n) => (s.jobAt? e n).getD j
  | none => j

/-- The free slots of an engine: those with no job, or with one whose completion action has been performed. -/
def State.freeSlots (s : State) (engine : Nat) : List Nat :=
  (List.range 64).filter fun i => !(s.jobs.any fun j => j.engine == engine && j.slot == i && j.state.alive)

/-- A job in its slot, in place of an ended one; its engine's SEQ moves on. -/
def State.addJob (s : State) (j : Job) : State :=
  { s with
    jobs := (s.jobs.filter fun k => !(k.engine == j.engine && k.slot == j.slot)) ++ [j]
    seqs := mapSet 0 j.engine (j.seq + 1) s.seqs }

/-- An update of the job in a slot. -/
def State.onJob (s : State) (engine slot : Nat) (f : Job → Job) : State :=
  { s with jobs := s.jobs.map fun j => if j.engine = engine ∧ j.slot = slot then f j else j }

/-- A job created (R64): it joins the others in the order of their creation. -/
def State.createJob (s : State) (engine slot : Nat) (f : Job → Job) : State :=
  match s.jobAt? engine slot with
  | some j => { s with jobs := (s.jobs.filter fun k => !(k.engine == engine && k.slot == slot)) ++ [f j] }
  | none => s

/-- The checks of CPYSTAT and CPYABORT on a ticket. Left open by the spec: log entry 10 (DEDUCED). -/
def State.checkTicket (s : State) (a : XReg) (e : Eff) : Eff :=
  let t := s.xr a
  if s.xPois a then .trap Cause.poison 0 0
  else if fieldOf t 31 15 ≠ 0 ∨ fieldOf t 7 6 ≠ 0 ∨ 11 < fieldOf t 11 8 ∨ s.me.isInsole ∨
      s.clusterPart (12 * fieldOf t 14 12 + fieldOf t 11 8) ≠ some s.me.part then
    .trapAny Cause.access (num (6 * 2 ^ 12))
  else e

/-- The code of a job's state (R233). -/
def JobState.code : JobState → Nat
  | .awaited | .queued => 0
  | .running => 1
  | .done => 2
  | .faulted => 3
  | .aborted => 4

def execCpystat (g : Guard) (o : X2) (s : State) : Res :=
  frame g [o.d, o.a] [] (fun s =>
    s.checkTicket o.a <| .ok (s.setX o.d (num (match s.jobOf (s.xr o.a) with
      | some j => (s.leaderOf j).state.code
      | none => 5)) false)) s

def execCpyabort (g : Guard) (o : SrcX) (s : State) : Res :=
  frame g [o.a] [] (fun s =>
    s.checkTicket o.a <| .ok (match s.jobOf (s.xr o.a) with
      | some j =>
        let l := s.leaderOf j
        if l.state.alive then s.onJob l.engine l.slot fun j => { j with abort := true } else s
      | none => s)) s

/-! ### CPYGO (R230, R410, R411) -/

/-- The report of the first failing check of a block, by the three passes of R410. -/
def State.blockError? (s : State) (bs : List Byte) : Option Nat :=
  let b := Block.ofBytes bs
  let lay (n : Nat) : List Byte := s.layoutBytes s.me.key.crew n
  match blockFieldError? bs (4 * s.me.ids.crewSize.toNat) with
  | some off => some off
  | none =>
    let entry (n boff : Nat) : Option Nat := (layoutError? (lay n)).map fun off => boff + 2 ^ 8 + 2 ^ 16 * off
    match (if b.op = 2 then none else entry b.srcLay 2) <|> entry b.dstLay 3 with
    | some r => some r
    | none => blockLimitError? b (.ofBytes (lay b.srcLay)) (.ofBytes (lay b.dstLay)) s.me.ids.tileCount.toNat
      s.me.ids.barCount.toNat

/-- The checks of DONE_ADDR (R411). -/
def State.checkDone (s : State) (b : Block) (then_ : Option Access → Eff) : Eff :=
  if b.doneKind ≠ 3 then then_ none
  else
    match s.checkPlace (.atomic .add .system) b.doneAddr 0 .copyGo with
    | .pass a => then_ (some a)
    | .stop (.trap _ _ _) => .trap Cause.engineFault b.doneAddr 0x38
    | .stop e => e

/-- The job of a CPYGO, which exists once its command is performed. A FILL has its destination's layout only (R229). -/
def State.newJob (s : State) (bs : List Byte) (a : Word) (slot : Nat) (done : Option Access) (h : HReg) : Job :=
  let b := Block.ofBytes bs
  let e := s.me.cluster
  { engine := e
    slot := slot
    seq := mapGet 0 e s.seqs
    owner := s.me.key
    h := h
    crews := [s.me.key.crew]
    part := s.me.part
    asid := s.me.asid.toNat
    level := s.me.level
    block := b
    src := .ofBytes (s.layoutBytes s.me.key.crew (if b.op = 2 then b.dstLay else b.srcLay))
    dst := .ofBytes (s.layoutBytes s.me.key.crew b.dstLay)
    blockAddr := a.toNat
    state := .awaited
    performed := []
    sat := 0
    edge := 0
    wrote := []
    fault := none
    abort := false
    doneAt := done
    bank := false
    keep := none
    leader := none }

/-- CPYGO; which free slot it takes is a free choice. Left open by the spec: log entry 28 (DESIGN CHOICE). -/
def execCpygo (g : Guard) (o : CpygoOp) (s : State) : Res :=
  frame g [o.d, o.a] [] (fun s =>
    s.localBlock o.a <| afterItems (s.storesTo (s.xr o.a)) <|
      let bs := (s.readTile (s.localAddr (s.xr o.a)) 64).1
      match s.blockError? bs with
      | some r => .trapAny Cause.engineFault (num r)
      | none => s.checkDone (Block.ofBytes bs) fun done =>
        if queueCap ≤ (s.me.queue o.md.h).length then .wait (.queue o.md.h 1)
        else
          match s.pick (s.freeSlots s.me.cluster) with
          | (none, _) => .wait .engineSlots
          | (some slot, t) =>
            let j := t.newJob bs (s.xr o.a) slot done o.md.h
            let t := (t.addJob j).setX o.d (ticket j.engine j.slot j.seq) false
            t.enqueue o.md.h (.copy ⟨j.engine, j.slot, .release, o.md.scope⟩)) s

end Sys2Proof.Machine
end

