-- ==== Sys2Proof/Machine/RingInstr.lean ====
section
/-!
DEFINITION. RingInstr.lean: RING (R235 to R241), candidate queues (R257, R269) and reads of samples (R238, R247).
-/

namespace Sys2Proof.Machine

/-! ### The ring operand (R235) -/

/-- A ring of the package, or one on another node by the way to it. -/
inductive RingAt where
  | own (n : Nat)
  | far (v : Via)

/-- The ring of an item. -/
def RingItem.at (i : RingItem) : RingAt :=
  match i.via with
  | none => .own (fieldOf i.ring 5 0)
  | some v => .far v

/-- Where a ring operand leads for the executing strand, or the ACCESS reason with which it is refused at issue (R235,
R356, R365). -/
def State.ringAt (s : State) (w : Word) : Except Nat RingAt :=
  if s.isOwnNode (fieldOf w 63 52) then
    if !s.me.isInsole && !s.ownsRing s.me.part (fieldOf w 5 0) then .error 6
    else if (s.bar (rngown (fieldOf w 5 0))).getLsbD 62 && !s.me.secure then .error 2
    else .ok (.own (fieldOf w 5 0))
  else
    match if s.me.isInsole then none else s.viaNode? s.me.part (fieldOf w 63 52) with
    | none => .error 6
    | some v => if (s.bar (windowReg v.part v.win 0)).getLsbD 61 && !s.me.secure then .error 2 else .ok (.far v)

/-- The checks of the ring operand; `fn` is the function of the instruction (R339). The ACCESS of an operand names
the operand in TRAP_ADDR. -/
def State.ringOperand (s : State) (b : XReg) (fn : Nat) (then_ : RingAt → Eff) : Eff :=
  let w := s.xr b
  if s.xPois b then .trap Cause.poison 0 0
  else if fieldOf w 51 8 ≠ 0 then .trap Cause.ring w (num fn)
  else
    match s.ringAt w with
    | .error r => .trap Cause.access w (num (r * 2 ^ 12))
    | .ok r => then_ r

/-- The way of an item to its ring. -/
def RingAt.via : RingAt → Option Via
  | .own _ => none
  | .far v => some v

/-- An instruction that waits for another package's ring (R29, R235): its request leaves, where a route lets it (R362,
R367). -/
def State.awaitRing (s : State) (v : Via) (fn len : Nat) (first : Word) (ring : Word) (d : XReg) (d2 : Option XReg)
    (dst : Option (Nat × Nat × Nat)) (scope : Scope) : Eff :=
  let t := if s.routed v.node then
      s.dispatch v { s.header v ring.toNat s.me.secure with
        kind := Packet.control, vc := 3, op := fn, scope := scope.code, acquire := fn != 2, len := len, opLo := first }
    else s
  .hold t (.ringUnit v fn ring d d2 dst scope)

/-- The stored sample size of a ring; that of a ring of another package is a free choice among the six. -/
def State.sampleSize (s : State) : RingAt → Nat × State
  | .own n => (s.rgSize n, s)
  | .far _ => (sampleBytes (s.freshWord.1.toNat % 6), s.freshWord.2)

/-- The checks of a local range of samples (R238): POISON of X[A] and X[C], MISALIGN, SPACE. -/
def State.sampleRange (s : State) (a c : XReg) (count size : Nat) (e : Eff) : Eff :=
  if s.xPois a || s.xPois c then .trap Cause.poison 0 0
  else if (s.xr a).toNat % min size 4 ≠ 0 then .trap Cause.misalign (s.xr a) 0
  else if !s.inTiles (s.xr a) (count * size) then .trap Cause.space (s.xr a) 0
  else e

/-! ### RGPUT, RGREAD, RGPOS (R238) -/

def execRgput (g : Guard) (o : AbcOp) (s : State) : Res :=
  frame g [o.a, o.b, o.c] [] (fun s => crewOnly s <|
    s.ringOperand o.b 0 fun r =>
      let z := s.sampleSize r
      z.2.sampleRange o.a o.c (s.xr o.c).toNat z.1
        (z.2.enqueue o.md.h (.ring ⟨.put, s.xr o.b, r.via, num z.1, 0, s.localAddr (s.xr o.a), (s.xr o.c).toNat, none, o.md.order,
          o.md.scope⟩))) s

/-- Whether RGREAD finds a sample: at or above HEAD − N and below HEAD; START bounds it where the unit is running,
and 0 does on a PROGRAM-mode ring (R247). -/
def State.readable (s : State) (n x : Nat) : Bool :=
  let floor := idx ((s.rgHead n : Int) - s.rgN n)
  let old := match s.unit? n with
    | some u => s.rgOld n u
    | none => if s.rgProgram n then idxMax 0 floor else floor
  idxLe old x && !idxLe (s.rgHead n) x

/-- A sample as RGREAD sees it; lost ones are zero with poison. -/
def State.readSample (s : State) (n x : Nat) : Except RingErr (State × (List Byte × Bool)) :=
  if s.readable n x then s.ringSample n x else .ok (s, List.replicate (s.rgSize n) 0, true)

/-- Samples of a ring, from index `x`. -/
def State.readSamples (s : State) (n x : Nat) : Nat → Except RingErr (State × List (List Byte × Bool))
  | 0 => .ok (s, [])
  | k + 1 => do
    let r ← s.readSample n x
    let rs ← r.1.readSamples n (idx ((x : Int) + 1)) k
    .ok (rs.1, r.2 :: rs.2)

/-- Bytes written at a tile in pieces of at most a word. -/
def State.writePieces (s : State) (a : Nat) (bs : List Byte) (p : Bool) : Nat → State
  | 0 => s
  | k + 1 => ((s.writeTile a (bs.take 4) p).writePieces (a + 4) (bs.drop 4) p) k

/-- Samples written into scratchpad from an absolute address. -/
def State.writeSamples (s : State) (a : Nat) : List (List Byte × Bool) → State
  | [] => s
  | (bs, p) :: rs => (s.writePieces a bs p ((bs.length + 3) / 4)).writeSamples (a + bs.length) rs

/-- Samples of another package's ring: what its unit returns is free. -/
def State.freeSamples (s : State) (size : Nat) : Nat → List (List Byte × Bool) × State
  | 0 => ([], s)
  | k + 1 =>
    let r := s.freeSamples size k
    let b := r.2.freeBytes size
    (b.1 :: r.1, b.2)

/-- RGREAD at the unit of a ring of the package, or the page its unit waits for; one that a fault stops brings no
sample. -/
def State.rgread (s : State) (n : Nat) (dst : Nat) (first count size : Nat) (d : XReg) (scope : Scope) :
    Except (PageKey × Bool) State :=
  let lost := (List.range count).countP fun (i : Nat) => !s.readable n (idx ((first : Int) + (i : Int)))
  let finish (t : State) (rs : List (List Byte × Bool)) : State :=
    ((t.writeSamples dst rs).setX d (num lost) false).acquireMe scope
  match s.readSamples n (first % 2 ^ 48) count with
  | .ok r => .ok (finish r.1 r.2)
  | .error (.fault a) =>
    .ok (finish (if s.rgEnabled n then s.ringFault n a else s) (List.replicate count (List.replicate size 0, true)))
  | .error (.wait k ats) => .error (k, ats)

/-- RGREAD. A ring of another package is waited for (R235, R367). -/
def execRgread (g : Guard) (o : RgreadOp) (s : State) : Res :=
  frame g [o.d, o.a, o.b, o.c] [] (fun s =>
    s.ringOperand o.b 1 fun r =>
      let z := s.sampleSize r
      z.2.sampleRange o.a o.c o.n.toNat z.1 <|
        match r with
        | .far v =>
          z.2.awaitRing v 1 (o.n.toNat * z.1) (s.xr o.c) (s.xr o.b) o.d none
            (some (s.localAddr (s.xr o.a), o.n.toNat, z.1)) o.scope
        | .own n =>
          match z.2.rgread n (s.localAddr (s.xr o.a)) (s.xr o.c).toNat o.n.toNat z.1 o.d o.scope with
          | .ok t => .ok t
          | .error x => .wait (.ringPage n x.1 x.2)) s

def execRgpos (g : Guard) (o : RgposOp) (s : State) : Res :=
  frame g [o.d, o.b] [] (fun s =>
    s.ringOperand o.b 2 fun r =>
      match r with
      | .own n => .ok (s.setX o.d (num (s.rgHead n)) false)
      | .far v => s.awaitRing v 2 0 0 (s.xr o.b) o.d none none o.scope) s

/-! ### Candidate queues (R239, R257, R269, R272) -/

/-- The head candidate of a level, once the end of its window has been written (R257). -/
def State.takeable? (s : State) (n l : Nat) : Option Cand :=
  match s.liveUnit? n with
  | none => none
  | some u =>
    match u.queue l with
    | [] => none
    | c :: _ =>
      if idxLe (idx ((c.sample : Int) + fieldOf (s.ring n 3) 47 24 + 1)) (s.rgHead n) then some c else none

/-- All ones in DEADFROM: the level is not dead. -/
def notDead : Nat := 2 ^ 64 - 1

/-- A slot of a level's queue falls free by TRGNEXT: the dead time ends (R269). -/
def State.endDead (s : State) (n l : Nat) : Except RingErr State := do
  let (s, d) ← s.ringCounter n (levelCounter l RingBlock.deadFrom)
  if d = notDead then .ok s
  else
    let s ← s.ringCount n (levelCounter l RingBlock.deadSamples) (idxDiff (s.rgHead n) d).toNat
    s.ringSetCounter n (levelCounter l RingBlock.deadFrom) notDead

/-- The head candidate taken for a partition's crew, with TAKEN, the dead time and the replay list.
Left open by the spec: log entry 38 (DEDUCED). -/
def State.takeCand (s : State) (n l part crew : Nat) (c : Cand) : Except RingErr State := do
  let s ← s.ringCount n (levelCounter l RingBlock.taken) 1
  let s ← s.endDead n l
  match s.unit? n with
  | none => .ok s
  | some u =>
    let u := u.setQueue l ((u.queue l).drop 1)
    let u := { u with holds := u.holds ++ [⟨c, part, crew, l⟩] }
    let list := u.replayOf l ++ [c]
    .ok (s.setUnit n (if l = 0 then u else u.setReplay l (list.drop (list.length - 64))))

/-- The pair of an even register. -/
def pairOf (d : XReg) : XReg := d ||| 1

/-- TRGNEXT takes a candidate. -/
def State.trgnext (s : State) (n l : Nat) (c : Cand) (d : XReg) (scope : Scope) : Except RingErr State :=
  (s.takeCand n l s.me.part s.me.key.crew c).map fun t =>
    ((t.setX d c.lo false).setX (pairOf d) c.hi false).acquireMe scope

def execTrgnext (g : Guard) (o : RgposOp) (s : State) : Res :=
  frame g [o.d, pairOf o.d, o.b] [] (fun s => crewOnly s <|
    s.ringOperand o.b 3 fun r =>
      let l := fieldOf (s.xr o.b) 7 6
      match r with
      | .far v => s.awaitRing v 3 0 0 (s.xr o.b) o.d (some (pairOf o.d)) none o.scope
      | .own n =>
        if s.rgDepth n l = 0 then .trap Cause.ring (s.xr o.b) 3
        else
          match s.takeable? n l with
          | none => .wait (.candidate o.d (s.xr o.b) o.scope)
          | some c =>
            match s.trgnext n l c o.d o.scope with
            | .ok t => .ok t
            | .error (.wait k ats) => .wait (.ringPage n k ats)
            | .error (.fault a) => .hold (s.ringFault n a) (.candidate o.d (s.xr o.b) o.scope)) s

/-! ### Verdicts (R240) -/

/-- The item of TRGFWD, TRGACC or TRGREJ: the record is read at issue.
Left open by the spec: log entry 38 (DEDUCED). -/
def verdictOp (fn : RingFn) (code : Nat) (g : Guard) (d : Option XReg) (a b : XReg) (md : Md) (s : State) : Res :=
  frame g (a :: pairOf a :: b :: d.toList) [] (fun s => crewOnly s <|
    s.ringOperand b code fun r =>
      s.enqueue md.h (.ring ⟨fn, s.xr b, r.via, s.xr a, s.xr (pairOf a), 0, 0, d.bind destOf, md.order, md.scope⟩)) s

/-- Left open by the spec: log entry 38 (DEDUCED). -/
def execTrgfwd (g : Guard) (o : TrgOp) (s : State) : Res := verdictOp .fwd 4 g (some o.d) o.a o.b o.md s
/-- Left open by the spec: log entry 38 (DEDUCED). -/
def execTrgacc (g : Guard) (o : TrgOp) (s : State) : Res := verdictOp .acc 5 g (some o.d) o.a o.b o.md s
/-- Left open by the spec: log entry 38 (DEDUCED). -/
def execTrgrej (g : Guard) (o : TrgrejOp) (s : State) : Res := verdictOp .rej 6 g none o.a o.b o.md s

/-- Left open by the spec: log entry 38 (DEDUCED). -/
def execTrgmark (g : Guard) (o : BmdOp) (s : State) : Res :=
  frame g [o.b] [] (fun s => crewOnly s <|
    s.ringOperand o.b 7 fun r =>
      s.enqueue o.md.h (.ring ⟨.mark, s.xr o.b, r.via, 0, 0, 0, 0, none, o.md.order, o.md.scope⟩)) s

end Sys2Proof.Machine
end

