-- ==== Sys2Proof/Machine/RingUnit.lean ====
section
/-!
DEFINITION. RingUnit.lean: what a ring unit does: its writer (R247, R253, R254, R259), offers and dead time (R257,
R269), verdicts and claims (R256, R262 to R265), and the ring items it receives (R238, R240, R241).
-/

namespace Sys2Proof.Machine

/-! ### Elements -/

/-- The element types by their codes 0x0 to 0xD (R79). -/
def elemOf (code : Nat) : ElemType :=
  [ElemType.i8, .n8, .i16, .n16, .i32, .n32, .f16, .bf16, .f32, .e4m3, .e5m2, .e2m1, .i4, .e8m0].getD code .i8

/-- Element k of width w among bytes (R80). -/
def packedElem (bs : List Byte) (w k : Nat) : Nat := natOfBytes bs / 2 ^ (w * k) % 2 ^ w

/-- The magnitude of a value. -/
def absVal : Val → Val
  | .nan s => .nan s
  | .inf _ => .inf false
  | .fin _ m e s => .fin false m e s

/-! ### The writer -/

def State.rgType (s : State) (n : Nat) : Nat := fieldOf (s.ring n 0) 51 48

/-- Whether the sample whose place index `x` would take is one that a claim has yet to copy (R254). -/
def State.stalls (s : State) (n : Nat) (u : RingUnit) (x : Nat) : Bool :=
  let old := idx ((x : Int) - s.rgN n)
  s.rgPausable n && u.claims.any fun c =>
    idxLe c.next old && idxLe old c.last && !(c.skip.any fun r => idxLe r.1 old && idxLe old r.2)

/-- An offer to the queue of level `l` (R257): accepted, or refused with the loss and the dead state of R269. -/
def State.offer (s : State) (n l : Nat) (c : Cand) : Except RingErr (State × Bool) :=
  match s.unit? n with
  | none => .ok (s, false)
  | some u =>
    if s.rgDepth n l ≤ (u.queue l).length then do
      let s ← s.logLost n l c 0
      let (s, d) ← s.ringCounter n (levelCounter l RingBlock.deadFrom)
      if d = notDead then
        let s ← s.ringSetCounter n (levelCounter l RingBlock.deadFrom) c.sample
        .ok (s, false)
      else .ok (s, false)
    else .ok (s.setUnit n (u.setQueue l (u.queue l ++ [c])), true)

/-- A seed (R259) from the sample at index `x`, stored as `bs`. -/
def State.seed (s : State) (n x : Nat) (bs : List Byte) (poison : Bool) : Except RingErr State :=
  match s.unit? n with
  | none => .ok s
  | some u =>
    let thr := s.ring n 8
    let held := match u.seedUntil with
      | some y => idxLe x y
      | none => false
    if !thr.getLsbD 63 || poison || held then .ok s
    else
      let t := elemOf (s.rgType n)
      let v := elemVal t (packedElem bs (typeWidth (s.rgType n)) 0)
      let limit := absVal (Fmt.f32.decode (fieldOf thr 31 0))
      if v.isNan || limit.isNan || ltVal (absVal v) limit then .ok s
      else
        let score := (convertTo .f32 .rne false (isIntType t) v).code
        let s := s.setUnit n { u with seedUntil := some (idx ((x : Int) + fieldOf thr 55 32)) }
        (s.offer n 0 ⟨num (x + 2 ^ 48 * n), num score⟩).map (·.1)

/-- Whether the tile of block `k` is there and vacant. -/
def RingUnit.blockVacant (u : RingUnit) (a b : Word) (k : Nat) : Bool :=
  if k % 2 = 0 then a != 0 && u.vacA else b != 0 && u.vacB

/-- The tile of block `k` occupied. -/
def RingUnit.occupy (u : RingUnit) (k : Nat) : RingUnit :=
  if k % 2 = 0 then { u with vacA := false } else { u with vacB := false }

/-- HEAD has passed block `k`: it is to be sent if its tile is vacant now (R260). -/
def RingUnit.pass (u : RingUnit) (a b : Word) (k : Nat) : RingUnit :=
  if u.blockVacant a b k then { u.occupy k with due := u.due ++ [⟨k, 1, true⟩], block := k + 1 }
  else { u with due := u.due ++ [⟨k, 1, false⟩], block := k + 1 }

/-- The unit with the blocks that HEAD has passed: one by one, the third and later of a jump at once.
Left open by the spec: log entry 30 (DESIGN CHOICE). -/
def State.passBlocks (s : State) (n : Nat) (u : RingUnit) : State :=
  let size := s.rgBlock n
  let passed := (idxDiff (s.rgHead n) (idx (u.block * size : Nat))).toNat / size
  let first := (List.range (min 2 passed)).foldl (fun (v : RingUnit) (_ : Nat) =>
    v.pass (s.ring n 6) (s.ring n 7) v.block) u
  s.setUnit n (if passed ≤ 2 then first
    else { first with
      due := first.due ++ [⟨first.block, passed - 2, false⟩]
      block := u.block + passed })

/-- One sample at HEAD with its bit of the bitmap; HEAD passes it; then its seed (R253, R259). -/
def State.writeSample (s : State) (n : Nat) (bs : List Byte) (poison : Bool) : Except RingErr State := do
  let x := s.rgHead n
  let pos := x % s.rgN n
  let bit := s.ring n 2 + num (pos / 8)
  let (s, old) ← s.ringLoad n bit 1
  let b := old.1.headD 0
  let m : Byte := 1#8 <<< (pos % 8)
  let _ ← s.ringPlace n .store bit
  let s ← s.ringStore n (s.ring n 1 + num (pos * s.rgSize n)) bs false
  let s ← s.ringStore n bit [if poison then b ||| m else b &&& ~~~m] old.2
  let s := s.setRing n 4 (num (idx ((x : Int) + 1)))
  let s := match s.unit? n with
    | some u =>
      if s.rgBlock n = 0 then s
      else s.passBlocks n { u with recent := u.recent ++ [(x, (bs, poison))] }
    | none => s
  s.seed n x bs poison

/-! ### Claims (R262 to R265) -/

/-- Whether two ranges of indices meet. -/
def rangesMeet (a b c d : Nat) : Bool := idxLe a d && idxLe c b

/-- Whether the range [a, b] holds all of [c, d]. -/
def rangeHolds (a b c d : Nat) : Bool := idxLe a c && idxLe d b

/-- The next sample to copy from `x` on: past the ranges the keep area holds already. -/
def skipOver (x : Nat) : List (Nat × Nat) → Nat
  | [] => x
  | r :: rs => skipOver (if idxLe r.1 x && idxLe x r.2 then idx ((r.2 : Int) + 1) else x) rs

/-- Ranges in rising order. -/
def insertRange (r : Nat × Nat) : List (Nat × Nat) → List (Nat × Nat)
  | [] => [r]
  | q :: qs => if idxLe r.1 q.1 then r :: q :: qs else q :: insertRange r qs

/-- Acceptances in their order. -/
def insertAcc (a : Nat × Nat) : List (Nat × Nat) → List (Nat × Nat)
  | [] => [a]
  | b :: bs => if a.1 ≤ b.1 then a :: b :: bs else b :: insertAcc a bs

/-- A new claim over a window. -/
def Claim.fresh (id a b sample lost offset : Nat) (late group : Bool) : Claim :=
  ⟨id, a, b, a, [], [(id, sample)], false, late, lost, 0, 0, none, group, offset, false, false⟩

/-- What a claim has copied: the samples before its next one, and those it skips. -/
def Claim.copied (c : Claim) : List (Nat × Nat) :=
  if idxLe c.next c.first then c.skip else (c.first, idx ((c.next : Int) - 1)) :: c.skip

/-- A claim with the samples from `f` to before `e` copied. -/
def Claim.advance (c : Claim) (f e : Nat) : Claim :=
  if idxLe e f then c
  else
    let skip := insertRange (f, idx ((e : Int) - 1)) c.skip
    { c with skip := skip, next := skipOver c.next skip }

/-- The samples of a claim that are yet to be copied. -/
def Claim.uncopied (c : Claim) : Nat :=
  let r := c.skip.foldl (fun (a : Nat × Nat) (r : Nat × Nat) =>
    if idxLe r.2 (idx ((a.1 : Int) - 1)) then a
    else (idx ((r.2 : Int) + 1), a.2 + idxCount a.1 (idxMin c.last (idx ((r.1 : Int) - 1))))) (c.next, 0)
  r.2 + idxCount r.1 c.last

/-- A claim joined with an open one (R264). -/
def Claim.join (c d : Claim) : Claim :=
  let skip := (c.copied ++ d.copied).foldl (fun rs r => insertRange r rs) []
  let first := idxMin c.first d.first
  { c with
    first := first
    last := idxMax c.last d.last
    next := skipOver first skip
    skip := skip
    accs := d.accs.foldl (fun as a => insertAcc a as) c.accs
    joined := true
    late := c.late || d.late
    lost := c.lost + d.lost
    truncated := c.truncated + d.truncated
    poisoned := c.poisoned + d.poisoned
    super := c.super.or d.super
    group := c.group || d.group
    dead := c.dead || d.dead }

/-- A claim joined with a closed one: SUPER names it. -/
def Claim.joinClosed (c : Claim) (d : Closed) : Claim :=
  let skip := insertRange (d.first, d.last) c.copied
  let first := idxMin c.first d.first
  { c with
    first := first
    last := idxMax c.last d.last
    next := skipOver first skip
    skip := skip
    joined := true
    truncated := c.truncated + d.truncated
    poisoned := c.poisoned + d.poisoned
    super := some (max d.seq (c.super.getD 0)) }

/-- The closed claims that a window [a, b] takes in beside open ones (R264, R268): those it meets that no open one and
no later closed one holds, for that one has taken them in already. -/
def RingUnit.closedFor (u : RingUnit) (open_ : List Claim) (a b : Nat) : List Closed :=
  let near := u.closed.filter fun d => rangesMeet a b d.first d.last
  near.filter fun d =>
    !(open_.any fun c => rangeHolds c.first c.last d.first d.last) &&
      !(near.any fun e => decide (d.seq < e.seq) && rangeHolds e.first e.last d.first d.last)

/-- The claim of a surviving window [a, b]: none where a seventeenth would be needed. -/
def State.claim (s : State) (n a b sample lost : Nat) (late group : Bool) : Option State :=
  match s.unit? n with
  | none => none
  | some u =>
    let id := s.nextId
    let s := { s with nextId := id + 1 }
    if s.rgSplit n then
      if 16 ≤ u.claims.length then none
      else
        let c := Claim.fresh id a b sample lost u.split late group
        some (s.setUnit n { u with claims := u.claims ++ [c], split := u.split + idxCount a b * s.rgSize n })
    else
      let meets (c : Claim) : Bool := rangesMeet a b c.first c.last
      let open_ := u.claims.filter meets
      if open_.isEmpty && decide (16 ≤ u.claims.length) then none
      else
        let c := open_.foldl Claim.join (Claim.fresh id a b sample lost 0 late group)
        let c := (u.closedFor open_ a b).foldl Claim.joinClosed c
        let c := { c with busy := open_.any (·.busy) }
        -- a keep-copy under way goes on for the claim that took its claim in
        let owner (j : Job) : Job := match j.keep with
          | some (r, i) => if r = n && open_.any fun d => d.id == i then { j with keep := some (n, id) } else j
          | none => j
        some ({ s with jobs := s.jobs.map owner }.setUnit n
          { u with claims := (u.claims.filter fun d => !meets d) ++ [c] })

/-- A verdict of R262: its code, and the lost count. -/
structure Verdict where
  code : Nat
  lost : Nat

/-- The window [a, b] of an accept decided on ring n at level `l`, with every count and log entry; for another
member of a group the record keeps its flag. -/
def State.accept (s : State) (n l a b : Nat) (c : Cand) (group : Bool) : Except RingErr (State × Verdict) :=
  match s.unit? n with
  | none => .ok (s, ⟨2, 0⟩)
  | some u =>
    let old := s.rgOld n u
    let drop (lost reason : Nat) : Except RingErr (State × Verdict) := do
      let s ← s.logLost n l c reason
      let s ← s.ringCount n (levelCounter l RingBlock.late) 1
      let s ← s.ringCount n (levelCounter l RingBlock.lostSamples) lost
      .ok (s, ⟨2, lost⟩)
    let whole := idxCount a b
    if !idxLe old b then drop whole 1
    else
      let late := !idxLe old a
      let lost := if late then (idxDiff old a).toNat else 0
      match s.claim n (idxMax old a) b c.sample lost late group with
      | none => drop whole 0
      | some s => do
        let s ← s.ringCount n (levelCounter l RingBlock.accepted) 1
        let s ← if late then do
            let s ← s.ringCount n (levelCounter l RingBlock.late) 1
            s.ringCount n (levelCounter l RingBlock.lostSamples) lost
          else .ok s
        .ok (s, ⟨if late then 1 else 0, lost⟩)

/-- The ceiling of a quotient. -/
def ceilDiv (x y : Int) : Int := -((-x) / y)

/-- A 64-bit difference, signed. -/
def timeDiff (x y : Word) : Int := (x - y).toInt

/-- Group time of a sample (R255). -/
def RingUnit.time (u : RingUnit) (x : Nat) : Word :=
  u.tref + BitVec.ofInt 64 (idxDiff x u.sref) * u.period

/-- The matching range of another member of the group (R256). -/
def RingUnit.matching (u : RingUnit) (t0 t1 : Word) : Nat × Nat :=
  let at_ (t : Word) : Int := (u.sref : Int) + ceilDiv (timeDiff t u.tref) (u.period.toNat : Int)
  (idx (at_ t0), idx (at_ t1 - 1))

/-- The other members of the group of ring n. -/
def State.members (s : State) (n : Nat) : List Nat :=
  (List.range 64).filter fun m =>
    m != n && (s.liveUnit? m).isSome && (s.ring m 15).getLsbD 43 && fieldOf (s.ring m 15) 47 44 == fieldOf (s.ring n 15) 47 44

/-- The translation (`ats`) or host page that the unit of a ring waits for. -/
structure RingWait where
  ring : Nat
  key : PageKey
  ats : Bool

/-- An effect at a ring with its fault settled, or what its unit waits for. -/
def State.faultless (s : State) (n : Nat) (r : Except RingErr State) : Except RingWait State :=
  match r with
  | .ok t => .ok t
  | .error (.fault a) => .ok (s.ringFault n a)
  | .error (.wait k ats) => .error ⟨n, k, ats⟩

/-- A ring's unit asks for what it waits for; none while it has asked. -/
def State.askRingUnit (s : State) (w : RingWait) : Option State := s.askUnit (s.ringWho w.ring) w.key w.ats

/-- A claim on another member: its own deadline, mode and counts; its own fault disables it alone.
Left open by the spec: log entry 30 (DESIGN CHOICE). -/
def State.claimMember (s : State) (m l : Nat) (t0 t1 : Word) (c : Cand) : Except RingWait State :=
  match s.liveUnit? m with
  | none => .ok s
  | some u =>
    if !u.timed then s.faultless m (s.logLost m l c 2)
    else
      let r := u.matching t0 t1
      s.faultless m ((s.accept m l r.1 r.2 c true).map (·.1))

/-- Claims on every other member (R256). Left open by the spec: log entry 30 (DESIGN CHOICE). -/
def State.claimAll (s : State) (n l a b : Nat) (c : Cand) : Except RingWait State :=
  match s.unit? n with
  | none => .ok s
  | some u =>
    (s.members n).foldlM (fun s m => s.claimMember m l (u.time a) (u.time b + u.period) c) s

/-! ### Elements of samples (R227, R279) -/

/-- Element `e` of a ring by the ring's own type, zero and poisoned when its sample is not retained. -/
def State.ringElem (s : State) (n e : Nat) : Except RingErr (State × (Nat × Bool)) :=
  let w := typeWidth (s.rgType n)
  let per := max 1 (8 * s.rgSize n / w)
  let x := e / per % 2 ^ 48
  if !s.readable n x then .ok (s, (0, true))
  else (s.ringSample n x).map fun r => (r.1, (packedElem r.2.1 w (e % per), r.2.2))

/-! ### Ring items (R238, R240, R241) -/

/-- Whether a hold is on a record: SAMPLE, RING, LEVEL and REPLAYED name it. -/
def Hold.names (h : Hold) (c : Cand) : Bool := fieldOf h.cand.lo 56 0 == fieldOf c.lo 56 0

/-- Whether the unit holds a record for a partition. -/
def RingUnit.heldFor (u : RingUnit) (c : Cand) (part : Nat) : Bool := u.holds.any fun h => h.names c && h.part == part

/-- The hold on a record falls. -/
def RingUnit.drop (u : RingUnit) (c : Cand) (part : Nat) : RingUnit :=
  { u with holds := u.holds.eraseP fun h => h.names c && h.part == part }

def State.dropHold (s : State) (n : Nat) (c : Cand) (part : Nat) : State :=
  match s.unit? n with
  | some u => s.setUnit n (u.drop c part)
  | none => s

/-- What a ring item comes to at its unit: its result and the state; RING to the strand; or it stays unperformed, until
samples are kept or until what a unit has to ask for is there. -/
inductive RingDone where
  | done (result : Word) (s : State)
  | refused
  | stay
  | wait (w : RingWait)

/-- The samples of an RGPUT, read in scratchpad as the item performs; a sample is poisoned with any word it
touches. -/
def State.putSamples (s : State) (a size count : Nat) : List (List Byte × Bool) :=
  (List.range count).map fun i => s.readTile (a + i * size) size

/-- Samples written one after another; a fault ends them where it meets one (R246). -/
def State.writeAll (s : State) (n : Nat) : List (List Byte × Bool) → Except RingWait State
  | [] => .ok s
  | r :: rs =>
    match s.writeSample n r.1 r.2 with
    | .ok t => t.writeAll n rs
    | .error (.fault a) => .ok (s.ringFault n a)
    | .error (.wait k ats) => .error ⟨n, k, ats⟩

/-- RGPUT at its unit: all its samples, once no place it needs belongs to an uncopied claim. -/
def State.ringPut (s : State) (n : Nat) (u : RingUnit) (i : RingItem) : RingDone :=
  let head := s.rgHead n
  if !s.rgProgram n then .refused
  else if (List.range i.count).any fun (j : Nat) => s.stalls n u (idx ((head : Int) + (j : Int))) then .stay
  else
    match s.writeAll n (s.putSamples i.src (s.rgSize n) i.count) with
    | .ok t => .done 0 t
    | .error w => .wait w

/-- Whether the unit refuses a record (R241). -/
def State.recordRefused (n : Nat) (u : RingUnit) (c : Cand) (part : Nat) : Bool :=
  fieldOf c.lo 59 57 != 0 || c.ring != n || (c.level != 0 && !u.heldFor c part)

/-- TRGFWD at its unit. Left open by the spec: log entry 30 (DESIGN CHOICE). -/
def State.ringFwd (s : State) (n : Nat) (c : Cand) (part : Nat) : RingDone :=
  let l := c.level
  if l = 3 ∨ s.rgDepth n (l + 1) = 0 then .refused
  else
    let up : Cand := ⟨withField c.lo 55 54 (l + 1), c.hi⟩
    let r : Except RingErr (State × Bool) := do
      let x ← (s.dropHold n c part).offer n (l + 1) up
      if x.2 then
        let t ← x.1.ringCount n (levelCounter l RingBlock.forwarded) 1
        .ok (t, true)
      else .ok x
    match r with
    | .ok (t, taken) => .done (if taken then 1 else 0) t
    | .error (.wait k ats) => .wait ⟨n, k, ats⟩
    | .error (.fault a) => .done (BitVec.allOnes 64) (s.ringFault n a)

/-- TRGACC at its unit. Left open by the spec: log entry 30 (DESIGN CHOICE). -/
def State.ringAcc (s : State) (n : Nat) (c : Cand) (part : Nat) : RingDone :=
  let w := s.rgWindow n c
  match (s.dropHold n c part).accept n c.level w.1 w.2 c false with
  | .error (.wait k ats) => .wait ⟨n, k, ats⟩
  | .error (.fault a) => .done (BitVec.allOnes 64) (s.ringFault n a)
  | .ok (t, v) =>
    let result := num (v.code + 2 ^ 32 * (v.lost % 2 ^ 32))
    if v.code = 2 ∨ !(s.ring n 15).getLsbD 42 then .done result t
    else
      match t.claimAll n c.level (if v.code = 1 then idx ((w.1 : Int) + v.lost) else w.1) w.2 c with
      | .ok t => .done result t
      | .error w => .wait w

/-- TRGMARK: the replay list of its level is emptied (R272). Left open by the spec: log entry 30 (DESIGN CHOICE). -/
def State.ringMark (s : State) (n : Nat) (u : RingUnit) (l : Nat) : RingDone :=
  if l ≠ 0 ∧ s.rgDepth n l = 0 then .refused
  else .done 0 (if l = 0 then s else s.setUnit n (u.setReplay l []))

/-- A ring item received by the unit of a ring of the package, for a strand's partition. -/
def State.ringReceive (s : State) (n part : Nat) (i : RingItem) : RingDone :=
  match s.liveUnit? n with
  | none => .refused
  | some u =>
    let c : Cand := ⟨i.lo, i.hi⟩
    match i.fn with
    | .put => s.ringPut n u i
    | .mark => s.ringMark n u (fieldOf i.ring 7 6)
    | .fwd => if State.recordRefused n u c part then .refused else s.ringFwd n c part
    | .acc => if State.recordRefused n u c part then .refused else s.ringAcc n c part
    | .rej => if State.recordRefused n u c part then .refused else .done 0 (s.dropHold n c part)

end Sys2Proof.Machine
end

