-- ==== Sys2Proof/Machine/PacketIn.lean ====
section
/-!
DEFINITION. PacketIn.lean: packets from other packages: acceptance (R366), and what an accepted request does (R67,
R362, R367).
-/

namespace Sys2Proof.Machine

/-- Whether the target partition has an enabled window toward the source node and partition (R366). -/
def State.windowFrom (s : State) (p : Packet) : Bool :=
  (List.range 64).any fun w =>
    let cfg := s.bar (windowReg p.dstPart w 0)
    cfg.getLsbD 63 && fieldOf cfg 43 32 == p.src && fieldOf cfg 59 56 == p.srcPart

/-- The checks of a memory access of the target partition, in the world of the packet (R354, R356). -/
def State.packetWho (s : State) (p : Packet) : Who := { s.dispatcherWho p.dstPart 0 with secure := p.secure }

/-- Whether a packet names memory. -/
def Packet.isMemory (p : Packet) : Bool := p.kind == Packet.read || p.kind == Packet.write || p.kind == Packet.atomic

/-- Whether a packet names a tile. -/
def Packet.isTile (p : Packet) : Bool := p.kind == Packet.transfer || p.kind == Packet.token

/-- R366 for a request. -/
def State.accepts (s : State) (p : Packet) : Bool :=
  s.windowFrom p &&
    (if p.isMemory then
      match s.physical (s.packetWho p) .load p.addr.toNat false with
      | .at (.dev _) _ => true
      | _ => false
     else if p.kind = Packet.token ∧ p.op = vacancyOp then true
     else if p.isTile then
      gtWellFormed p.addr && s.clusterPart (gtCluster p.addr) == some p.dstPart &&
        (p.secure || !s.clusterSecure (gtCluster p.addr))
     else if p.kind = Packet.control then
      s.ownsRing p.dstPart (fieldOf p.addr 5 0) && (p.secure || !(s.bar (rngown (fieldOf p.addr 5 0))).getLsbD 62)
     else true)

/-- The response to a request: its tag, and data in flits of 64 bytes, at most 4 a packet.
Left open by the spec: log entry 31 (DESIGN CHOICE). -/
def State.respond (s : State) (p : Packet) (data : List Byte) (poison : List Bool) : Nat → State
  | 0 => s
  | fuel + 1 =>
    let r : Packet := ⟨Packet.response, 1, s.barField 0x2000 11 0, p.src, p.dstPart, p.srcPart, p.secure, false, false,
      (poison.take 64).any id, p.addr, (data.take 256).length, p.op, p.scope, p.tag, 0, 0, 0, maskWord (poison.take 64), 0,
      data.take 256⟩
    let s := s.send (.packet p.src r.bytes)
    if data.length ≤ 256 then s else s.respond p (data.drop 256) (poison.drop 64) fuel

/-- The answer leaves where a route lets it (R361). -/
def State.answer (s : State) (p : Packet) (data : List Byte) (poison : List Bool) : State :=
  if s.routed p.src then s.respond p data poison (data.length / 256 + 1) else s

/-- The poison of the words of `n` bytes at a home. -/
def State.homeMask (s : State) (a : Place) (n : Nat) : List Bool :=
  (List.range ((n + 3) / 4)).map fun i => (s.readHome (a.plus (4 * i)) (min 4 (n - 4 * i)) .none).2

/-- The poison of the words that samples of `size` bytes fill. -/
def sampleMask (rs : List (List Byte × Bool)) (size : Nat) : List Bool :=
  (List.range ((rs.length * size + 3) / 4)).map fun w =>
    (List.range 4).any fun b => (rs.getD ((4 * w + b) / size) ([], false)).2

/-- Data written at a home word by word, with the poison mask of the header. -/
def State.writeMasked (s : State) (a : Place) (bs : List Byte) (mask : Word) : Nat → State
  | 0 => s
  | k + 1 => (s.writeHome a (bs.take 4) (mask.getLsbD 0)).writeMasked (a.plus 4) (bs.drop 4) (mask >>> 1) k

/-- What an accepted request comes to: the data of its response with the poison of its words, and the state; or what a
ring's unit has to ask for first, if that. -/
abbrev Answer := State × (List Byte × List Bool)

inductive Served where
  | answer (x : Answer)
  | ask (w : RingWait)
  | stay

/-- A delivery tile of a ring of the package, on the node and at the address that a notice names, is vacant (R260,
R293). -/
def State.vacatedAt (s : State) (node : Nat) (a : Word) : State :=
  let there (w : Word) : Bool := w != 0 && gtNode w == node && fieldOf w 51 12 == fieldOf a 51 12
  let tell : Nat × RingUnit → Nat × RingUnit := fun r =>
    (r.1, { r.2 with vacA := r.2.vacA || there (s.ring r.1 6), vacB := r.2.vacB || there (s.ring r.1 7) })
  { s with rings := s.rings.map tell }

/-- A ring function of another package at its unit: the instructions of R238 and R239, the items of R240, and an
engine's read of an element (R279). The candidate goes to the target partition. -/
def State.ringPacket (s : State) (p : Packet) : Served :=
  let n := fieldOf p.addr 5 0
  let l := fieldOf p.addr 7 6
  let item (fn : RingFn) : RingItem := ⟨fn, p.addr, none, p.opLo, p.opHi, 0, 0, none, .plain, .domain⟩
  let receive (fn : RingFn) : Served :=
    match s.ringReceive n p.dstPart (item fn) with
    | .done w t => .answer (t, (bytesOf 8 w.toNat, []))
    | .refused => .answer (s, (bytesOf 8 (2 ^ 64 - 1), []))
    | .stay => .stay
    | .wait w => .ask w
  let empty : Served := .answer (s, ([], []))
  match p.op with
  | 0 =>
    match s.liveUnit? n with
    | none => empty
    | some u =>
      let size := s.rgSize n
      let count := p.len / size
      if !s.rgProgram n then empty
      else if (List.range count).any fun (j : Nat) => s.stalls n u (idx ((s.rgHead n : Int) + (j : Int))) then .stay
      else
        let rs := (List.range count).map fun i =>
          ((p.data.drop (i * size)).take size, (List.range ((size + 3) / 4)).any fun w => p.mask.getLsbD (i * size / 4 + w))
        match s.writeAll n rs with
        | .ok t => .answer (t, ([], []))
        | .error w => .ask w
  | 1 =>
    match s.readSamples n (fieldOf p.opLo 47 0) (p.len / s.rgSize n) with
    | .ok r => .answer (r.1, (r.2.flatMap (·.1), sampleMask r.2 (s.rgSize n)))
    | .error (.wait k ats) => .ask ⟨n, k, ats⟩
    | .error (.fault a) => .answer (s.ringFault n a, ([], []))
  | 2 => .answer (s, (bytesOf 8 (s.rgHead n), []))
  | 3 =>
    if s.rgDepth n l = 0 then .answer (s, (List.replicate 16 0xFF, []))
    else
      match s.takeable? n l with
      | none => .stay
      | some c =>
        match s.faultless n (s.takeCand n l p.dstPart 0 c) with
        | .ok t => .answer (t, (bytesOf 8 c.lo.toNat ++ bytesOf 8 c.hi.toNat, []))
        | .error w => .ask w
  | 4 => receive .fwd
  | 5 => receive .acc
  | 6 => receive .rej
  | 7 => receive .mark
  | 0x42 =>
    match s.ringElem n (p.opLo.toNat + 2 ^ 64 * p.opHi.toNat) with
    | .ok r => .answer (r.1, (bytesOf ((typeWidth (s.rgType n) + 7) / 8) r.2.1, [r.2.2]))
    | .error (.wait k ats) => .ask ⟨n, k, ats⟩
    | .error (.fault a) => .answer (s.ringFault n a, ([], []))
  | _ => empty

/-- The address of the first byte of the transfer that a packet brings a piece of, and the transfer's length and number.
-/
def Packet.base (p : Packet) : Word := p.addr - p.opLo
def Packet.total (p : Packet) : Nat := p.opHi.toNat % 2 ^ 16
/-- Left open by the spec: log entry 31 (DESIGN CHOICE). -/
def Packet.number (p : Packet) : Nat := p.opHi.toNat / 2 ^ 16

/-- What has come of the transfer that a packet brings a piece of, with that piece. -/
def State.withPiece (s : State) (p : Packet) : Arriving :=
  let old := s.arriving.find? fun x => x.node == p.src && x.number == p.number && x.base == p.base
  ⟨p.src, p.number, p.base, (p.opLo.toNat, p.data.take p.len, (List.range ((p.len + 3) / 4)).map p.mask.getLsbD) ::
    (old.map (·.pieces)).getD []⟩

/-- The pieces of a transfer of `total` bytes in order. -/
def Arriving.inOrder (x : Arriving) (total : Nat) : List (Nat × List Byte × List Bool) :=
  (List.range ((total + 255) / 256)).filterMap fun i => x.pieces.find? fun y => y.1 == 256 * i

/-- A transfer of another package: its pieces are kept until all of its bytes are there, and it is then settled at its
tile in one step (R65); a head delivery of a ring there makes its tile one that sends vacancy notices (R260, R293).
Left open by the spec: log entry 31 (DESIGN CHOICE). -/
def State.landPacket (s : State) (p : Packet) : State :=
  let x := s.withPiece p
  let s := { s with arriving := s.arriving.filter fun y => !(y.node == x.node && y.number == x.number && y.base == x.base) }
  if (x.pieces.map fun y => y.2.1.length).sum < p.total then { s with arriving := x :: s.arriving }
  else
    let delivery := p.op == deliveryOp
    let tile := 256 * gtCore p.base + gtTile p.base
    let s := if delivery then { s with remoteRings := mapSet 0xFFF tile p.src s.remoteRings } else s
    (s.land p.base ((x.inOrder p.total).flatMap (·.2.1)) ((x.inOrder p.total).flatMap (·.2.2)) delivery).1

/-- One write more of those that a node counts (R67). -/
def State.countWrite (s : State) (node : Nat) : State :=
  { s with writesFrom := mapSet 0 node (mapGet 0 node s.writesFrom + 1) s.writesFrom }

/-- An accepted request for memory on a CXL port that is down: a read gives zero with poison, a write changes nothing
and counts as performed, and the target partition takes ACCESS with reason 8 (R67, R369).
Left open by the spec: log entry 31 (DESIGN CHOICE). -/
def State.packetLost (s : State) (p : Packet) : Answer :=
  let s := s.faultRecord p.dstPart Cause.access (num (8 * 2 ^ 12)) p.addr
  if p.kind = Packet.write then (s.countWrite p.src, ([], []))
  else (s, (List.replicate p.len 0, List.replicate ((p.len + 3) / 4) true))

/-- An accepted request performed once. -/
def State.performPacket (s : State) (p : Packet) : Served :=
  let home : Place := .dev p.addr.toNat
  if p.isMemory && s.cxlLost p.addr.toNat then .answer (s.packetLost p)
  else if p.kind = Packet.read then
    .answer (s.noteCxl home 0 false, ((s.readHome home p.len .none).1, s.homeMask home p.len))
  else if p.kind = Packet.write then
    let s := (s.noteCxl home 0 false).writeMasked home (p.data.take p.len) p.mask ((p.len + 3) / 4)
    .answer (s.countWrite p.src, ([], []))
  else if p.kind = Packet.atomic then
    match AtomKind.ofCode (p.op % 32) with
    | none => .answer (s, ([], []))
    | some k =>
      let w64 := decide (32 ≤ p.op)
      let n := if w64 then 8 else 4
      let old := s.readHome home n .none
      let new := atomNew k w64 (wordOfBytes old.1) p.opLo p.opHi
      .answer ((s.noteCxl home 0 false).writeHome home (bytesOf n new.toNat) (old.2 || p.poisoned),
        (old.1, s.homeMask home n))
  else if p.kind = Packet.token ∧ p.op = vacancyOp then .answer (s.vacatedAt p.src p.addr, ([], []))
  else if p.isTile then .answer (s.landPacket p, ([], []))
  else if p.kind = Packet.control then s.ringPacket p
  else .answer (s, ([], []))

end Sys2Proof.Machine
end

