-- ==== Sys2Proof/Machine/Vote.lean ====
section
/-!
DEFINITION. Vote.lean: the voter (R40, R42, R43, R394, R395): arrivals, what the majority performs once, and what the
copies learn; and SPAWN, which a voted crew takes to it (R223).
-/

namespace Sys2Proof.Machine

/-! ### The copies of an item -/

/-- The crews whose copies carry a tag; a crew of another package has none here.
Left open by the spec: log entry 22 (DESIGN CHOICE). -/
def State.copyCrews (s : State) (tag : VoteTag) : List Crew :=
  if tag.strand < 16 then s.crews.filter fun c => c.voted && c.launch == tag.launch && c.index == tag.crew else []

/-- The numbers of an item's copies, with their cores; those of a crew of another package are not known here. -/
def State.copyNumbers (s : State) (tag : VoteTag) : List (Nat × Nat) :=
  if tag.strand < 16 then (s.copyCrews tag).map fun c => (c.copy, c.core) else [(0, 0), (1, 0), (2, 0)]

/-- The partition that an item's vote belongs to. -/
def State.votePart (s : State) (tag : VoteTag) : Nat := ((s.copyCrews tag).head?.map (·.part)).getD (tag.crew % 16)

def State.copyKeys (s : State) (tag : VoteTag) : List StrandKey := (s.copyCrews tag).map fun c => ⟨c.uid, tag.strand⟩

/-- An event to every copy. -/
def State.raiseCopies (s : State) (tag : VoteTag) (cause : Nat) (addr info : Word) : State :=
  (s.copyKeys tag).foldl (fun (s : State) (k : StrandKey) => s.raiseTo k cause addr info) s

/-- The tag and ballot of an item of a strand, if its crew is voted. -/
def State.arrivalOf (s : State) (t : Strand) (n part : Nat) (b : Ballot) : Option (VoteTag × Arrival) :=
  match s.crew? t.key.crew, s.voteTag? t n part with
  | some c, some tag => some (tag, ⟨c.copy, c.core, t.key, b⟩)
  | _, _ => none

/-- The handle whose queue holds item `n` of a strand. -/
def Strand.handleOf (t : Strand) (n : Nat) : Option HReg :=
  ((List.range 8).map (BitVec.ofNat 3)).find? fun h => (t.queue h).any fun e => e.n == n

/-! ### Comparing (R42) -/

/-- Whether two copy commands are one: their jobs have the same block, layouts and counter. -/
def State.sameJob (s : State) (i j : CopyItem) : Bool :=
  match s.jobAt? i.engine i.slot, s.jobAt? j.engine j.slot with
  | some a, some b =>
    a.block == b.block && a.src == b.src && a.dst == b.dst && a.doneAt.map (·.place) == b.doneAt.map (·.place)
  | _, _ => false

/-- Address, size, data, poison, order and scope of a ballot agree with those of another. -/
def State.sameBallot (s : State) (a b : Ballot) : Bool :=
  let piece (p : Piece) : Place × List Byte × Bool := (p.access.place, p.bytes, p.poison)
  match a, b with
  | .entry e, .entry f => e.pieces.map piece == f.pieces.map piece && e.order == f.order && e.scope == f.scope
  | .spawn xs v _ _ sc, .spawn ys w _ _ sd => xs == ys && v == w && sc == sd
  | .packet xs, .packet ys =>
    let p := { Packet.ofBytes xs with tag := 0, vote := 0, count := 0 }
    let q := { Packet.ofBytes ys with tag := 0, vote := 0, count := 0 }
    p == q
  | .item (.atomic i), .item (.atomic j) =>
    i.kind == j.kind && i.access.place == j.access.place && i.w64 == j.w64 && i.b == j.b && i.c == j.c &&
      i.poison == j.poison && i.order == j.order && i.scope == j.scope
  | .item (.transfer i), .item (.transfer j) =>
    i.src == j.src && i.dst == j.dst && i.order == j.order && i.scope == j.scope
  | .item (.copy i), .item (.copy j) => s.sameJob i j && i.order == j.order && i.scope == j.scope
  | .item (.ring i), .item (.ring j) =>
    i.fn == j.fn && i.ring == j.ring && i.lo == j.lo && i.hi == j.hi && i.order == j.order && i.scope == j.scope
  | _, _ => false

/-! ### Where a ballot goes, and failure reports (R395, R397) -/

/-- The code of a ballot's item in VOTE_FAIL (R339). -/
def Ballot.code : Ballot → Nat
  | .entry _ => 1
  | .spawn _ _ _ _ _ => 5
  | .packet bs =>
    let k := (Packet.ofBytes bs).kind
    if k = Packet.write then 1 else if k = Packet.atomic then 2 else if k = Packet.control then 6 else 3
  | .item (.atomic _) => 2
  | .item (.transfer _) => 3
  | .item (.copy _) => 4
  | .item (.ring _) => 6
  | .item _ => 1

/-- The destination that VOTE_FAIL names. -/
def Ballot.dest : Ballot → Word
  | .entry e => match e.pieces with
    | p :: _ => p.access.va
    | [] => 0
  | .spawn _ a _ _ _ => a
  | .packet bs => (Packet.ofBytes bs).addr
  | .item (.atomic i) => i.access.va
  | .item (.transfer i) => i.dst
  | .item (.ring i) => i.ring
  | .item _ => 0

/-- The home of a ballot's bytes, where it has one. -/
def Ballot.home? : Ballot → Option Place
  | .entry e => e.pieces.head?.map (·.access.place)
  | .item (.atomic i) => some i.access.place
  | .packet bs => some (.dev (Packet.ofBytes bs).addr.toNat)
  | .spawn _ _ _ _ _ | .item _ => none

/-- The address that a record about a ballot names. -/
def Ballot.addr (b : Ballot) : Word :=
  match b.home? with
  | some (.dev a) => num a
  | some (.host _) | some (.tile _) | some (.remote _ _) | none => 0

/-- The record of kind 3 about a copy on another package: its core is not known here, and INFO is all ones (R397); the
counter is at that package, which learns of the disagreement by its answer.
Left open by the spec: log entry 22 (DESIGN CHOICE). -/
def State.recordFarDissent (s : State) (part a : Nat) : State :=
  s.recordFree 3 (s.homeUnit (.dev a)).1 part (num a) (some (BitVec.allOnes 64))

/-- A disagreement of a copy on a core (R395): its counter, and the record of kind 3.
Left open by the spec: log entry 22 (DESIGN CHOICE). -/
def State.dissent (s : State) (part : Nat) (b : Ballot) (core : Nat) : State :=
  match b with
  | .packet bs => s.recordFarDissent part (Packet.ofBytes bs).addr.toNat
  | .entry _ | .item _ | .spawn _ _ _ _ _ =>
    (s.countDissent core).errorRecord ⟨3, core / 192, (0xE00 + 8 * (core % 192)) / 8, part, b.addr, num core⟩

/-- The record of a three-way failure (R395, R397). -/
def State.recordVoteFail (s : State) (part : Nat) (b : Ballot) : State :=
  let u := s.homeUnit (b.home?.getD (.host 0))
  match u.2 with
  | some off => s.errorRecord ⟨4, u.1, off / 8, part, b.addr, BitVec.allOnes 64⟩
  | none => s.recordFree 4 u.1 part b.addr (some (BitVec.allOnes 64))

/-! ### Performing once -/

/-- Events that the performing copy has taken go to the others too. -/
def State.mirrorEvents (before after : State) (tag : VoteTag) (k : StrandKey) : State :=
  let seen := ((before.strand? k).map fun t => t.events.length).getD 0
  let new := ((after.strand? k).map fun t => t.events.drop seen).getD []
  ((after.copyKeys tag).filter fun o => o != k).foldl
    (fun (s : State) (o : StrandKey) =>
      new.foldl (fun (s : State) (e : PendEvent) => s.raiseTo o e.cause e.addr e.info) s) after

/-- What SPAWN's result stands for in a vote: 256 accepted, else the cause (0: queue full).
Left open by the spec: log entry 21 (DESIGN CHOICE). -/
def spawnResult (w : Word) (s : State) : Except Nat State := if w = 256 then .ok s else .error w.toNat

/-- What performing an item once comes to: the state, with the value it returns and the poison of its words; or what a
ring's unit has to ask for first. -/
abbrev Once := Except RingWait (State × (Word × Word))

/-- A verdict at its ring's unit; RING goes to every copy. -/
def State.ringOnce (s : State) (tag : VoteTag) (t : Strand) (i : RingItem) : Option Once :=
  match s.ringReceive (fieldOf i.ring 5 0) t.part i with
  | .done w u => some (.ok (u, (w, 0)))
  | .refused => some (.ok (s.raiseCopies tag Cause.ring i.ring (num i.fn.code), (BitVec.allOnes 64, 0)))
  | .stay => none
  | .wait w => some (.error w)

/-- An atomic once: the copies of its line in every copy's cluster are dropped in the step that performs it (R58). -/
def State.atomicOnce (s : State) (tag : VoteTag) (a : Arrival) (arrived : List Arrival) (i : AtomItem) (r : Reply) :
    Option (State × (Word × Word)) :=
  let p := i.access.place
  if arrived.all fun b => s.homeClear (b.core / 16) p (if i.w64 then 8 else 4) then
    let t := (s.copyCrews tag).foldl (fun (s : State) (c : Crew) =>
      (s.dropCopy (.cluster (c.core / 16)) p.line).dropCopy (.core c.core) p.line) s
    (s.strand? a.key).bind fun k => (t.atomicAt k i none r).map fun x =>
      (s.mirrorEvents x.1 tag a.key, (x.2.1, if x.2.2 then BitVec.allOnes 64 else 0))
  else none

/-- The item performed once, for the copies that have arrived; none where it has to wait. A SPAWN's gate waits for the
earlier items of those copies. Left open by the spec: log entry 22 (DESIGN CHOICE). -/
def State.performOnce (s : State) (tag : VoteTag) (a : Arrival) (arrived : List Arrival) (r : Reply) : Option Once :=
  match a.ballot with
  | .entry e => if r = .none then some (.ok (s.mirrorEvents (s.writeEntry e) tag a.key, (0, 0))) else none
  | .packet bs =>
    match s.performPacket (Packet.ofBytes bs) with
    | .answer x => some (.ok (x.1, (num (natOfBytes (x.2.1.take 8)), maskWord x.2.2)))
    | .ask w => some (.error w)
    | .stay => none
  | .spawn bs _ _ h scope =>
    let needs := arrived.flatMap fun b => match s.strand? b.key with
      | some t => s.earlier t h
      | none => []
    let part := ((s.strand? a.key).map (·.part)).getD 0
    match s.offerSpawn part bs ⟨needs, scope, none⟩ with
    | .ok t => some (.ok (t, (256, 0)))
    | .error c => some (.ok (s, (num c, 0)))
  | .item (.atomic i) => (s.atomicOnce tag a arrived i r).map .ok
  | .item (.transfer i) =>
    (s.strand? a.key).map fun t =>
      let refs := arrived.filterMap fun b => ((s.strand? b.key).bind fun u => u.handleOf tag.n).map fun h => ⟨b.key, h, tag.n⟩
      .ok (s.sendTransfer t refs (s.sendLanes i.src) i (some tag), (0, 0))
  | .item (.copy i) =>
    some (.ok (s.createJob i.engine i.slot fun (j : Job) =>
      { j with state := .queued, crews := (s.copyCrews tag).map (·.uid) }, (0, 0)))
  | .item (.ring i) => if r = .none then (s.strand? a.key).bind fun t => s.ringOnce tag t i else none
  | .item _ => none

/-- The job that performed a voted copy command, for the other copies' slots. -/
def leaderOf? (winner : Arrival) : Option (Nat × Nat) :=
  match winner.ballot with
  | .item (.copy i) => some (i.engine, i.slot)
  | _ => none

/-- What the vote of a SPAWN that has failed returns: its C[D] is bit 0, which is free. -/
def spawnFailed (w : Word) : Word := num (512 + w.toNat % 2)

/-- C[D] and SPAWN_ERR from what the vote has returned. -/
def Strand.takeSpawn (t : Strand) (d : CReg) (w : Word) (s : State) : Strand :=
  if 512 ≤ w.toNat then t.setC d (w.getLsbD 0) else t.spawned d (spawnResult w s)

/-- The vote of SPAWN number `n` returns: PC moves past the SPAWN that waits for it; one that a trap has cut takes it
when it issues again (R185, R340). -/
def Strand.endSpawn (t : Strand) (n : Nat) (d : CReg) (w : Word) (s : State) : Strand :=
  if t.wait = some (.vote n) then { t.takeSpawn d w s with pc := t.pc + 8, wait := none, counted := false }
  else { t with parted := t.parted.map fun q => if q.n = n then { q with result := some w } else q }

/-- A copy gets the result of the item it brought, with the poison of its words. -/
def State.giveResult (s : State) (tag : VoteTag) (winner a : Arrival) (v : Word × Word) : State :=
  match a.ballot with
  | .entry e => s.settleSent e.ref
  | .packet bs =>
    let n := min 8 (Packet.ofBytes bs).len
    s.answer (Packet.ofBytes bs) (bytesOf n v.1.toNat) ((List.range ((n + 3) / 4)).map v.2.getLsbD)
  | .spawn _ _ d _ _ => s.onStrand a.key fun t => t.endSpawn tag.n d v.1 s
  | .item b =>
    match s.strand? a.key with
    | none => s
    | some t =>
      match t.handleOf tag.n with
      | none => s
      | some h =>
        match b with
        | .atomic i => s.atomicResult t h i (v.1, v.2 != 0)
        | .ring i =>
          let s := s.popHead a.key h
          match i.dest with
          | some d => s.onStrand a.key fun t => t.setX d v.1 (v.2 != 0)
          | none => s
        | .copy i =>
          let s := s.popHead a.key h
          if a.key = winner.key then s
          else s.onJob i.engine i.slot fun (j : Job) => { j with leader := leaderOf? winner }
        | .transfer i =>
          let join : BagEntry → BagEntry := fun e =>
            if e.vote = some tag ∧ !e.refs.contains ⟨a.key, h, tag.n⟩ then { e with refs := e.refs ++ [⟨a.key, h, tag.n⟩] }
            else e
          let s := { s with bag := s.bag.map join }
          match s.headOf a.key h with
          | some (_, e) => s.leaveHead a.key h e i.scope
          | none => s
        | .load _ | .store _ | .tag _ | .bar _ | .gate _ => s

/-! ### Failure (R42) -/

/-- The destination of a ballot poisoned: its bytes, its tile. A copy command or a SPAWN has none. -/
def State.poisonDest (s : State) (b : Ballot) : State :=
  match b with
  | .entry e => e.pieces.foldl (fun (s : State) (p : Piece) => s.poisonHome p.access.place p.bytes.length) s
  | .item (.atomic i) => s.poisonHome i.access.place (if i.w64 then 8 else 4)
  | .item (.transfer i) =>
    if !s.isOwnNode (gtNode i.dst) then s
    else
      match s.tileOwner? (gtCore i.dst) (gtTile i.dst) with
      | none => s
      | some c => (s.landTargets (gtCore i.dst) (gtTile i.dst) c).foldl
        (fun (s : State) (t : Nat × Nat) => s.setTag t.1 t.2 { s.tag t.1 t.2 with state := Tag.poison }) s
  | .packet bs =>
    let p := Packet.ofBytes bs
    if p.isMemory then s.poisonHome (.dev p.addr.toNat) p.len else s
  | .spawn _ _ _ _ _ | .item _ => s

/-- A copy learns that its item failed: a free value with poison; C[D] of SPAWN is free; the job of a copy command ends
aborted, so that its slot is free again and its crew can retire.
Left open by the spec: log entry 22 (DESIGN CHOICE). -/
def State.giveFailure (s : State) (tag : VoteTag) (a : Arrival) : State :=
  let w := s.freshWord
  match a.ballot with
  | .spawn _ _ _ _ _ => w.2.giveResult tag a a (spawnFailed w.1, 0)
  | .item (.copy i) =>
    (w.2.giveResult tag a a (0, 0)).onJob i.engine i.slot fun (j : Job) => { j with state := .aborted }
  | .entry _ | .packet _ | .item _ => w.2.giveResult tag a a (w.1, BitVec.allOnes 64)

/-- No two copies agree: nothing is performed, the destination is poisoned, every copy takes VOTE_FAIL; a write of
another package counts among those that its node waits for (R67).
Left open by the spec: log entry 22 (DESIGN CHOICE). -/
def State.failVote (s : State) (part : Nat) (v : Vote) : State :=
  match v.arrivals with
  | [] => s
  | a :: _ =>
    let s := v.arrivals.foldl (fun (s : State) (b : Arrival) => s.poisonDest b.ballot) s
    let s := match a.ballot with
      | .packet bs => if (Packet.ofBytes bs).kind = Packet.write then s.countWrite (Packet.ofBytes bs).src else s
      | .entry _ | .item _ | .spawn _ _ _ _ _ => s
    (s.recordVoteFail part a.ballot).raiseCopies v.tag Cause.voteFail a.ballot.dest (num a.ballot.code)

/-! ### Arrivals -/

def State.dropVote (s : State) (tag : VoteTag) : State := { s with votes := s.votes.filter fun v => v.tag != tag }
def State.putVote (s : State) (v : Vote) : State :=
  { s with votes := s.votes.map fun w => if w.tag = v.tag then v else w }

/-- A copy arrives after its window has closed (R395): a disagreement; what the vote returned, if it did, is given.
Left open by the spec: log entry 22 (DESIGN CHOICE). -/
def State.lateArrival (s : State) (part : Nat) (v : Vote) (late : List Nat) (a : Arrival) : State :=
  let rest := late.filter fun c => c != a.copy
  let s := if rest.isEmpty then s.dropVote v.tag else s.putVote { v with closed := some rest }
  let s := s.dissent part a.ballot a.core
  match v.arrivals with
  | w :: _ => if v.performed then s.giveResult v.tag w a (v.result, v.mask) else s.giveFailure v.tag a
  | [] => s.giveFailure v.tag a

/-- The third copy after the majority has performed. -/
def State.thirdArrival (s : State) (part : Nat) (v : Vote) (a : Arrival) : State :=
  let s := s.dropVote v.tag
  match v.arrivals with
  | w :: _ =>
    let s := if s.sameBallot w.ballot a.ballot then s else s.dissent part a.ballot a.core
    s.giveResult v.tag w a (v.result, v.mask)
  | [] => s

/-- An arrival while its vote is open and nothing has been performed.
Left open by the spec: log entry 22 (DESIGN CHOICE). -/
def State.openArrival (s : State) (part : Nat) (v : Vote) (a : Arrival) (r : Reply) : Option (Except RingWait State) :=
  match v.arrivals.find? fun b => s.sameBallot b.ballot a.ballot with
  | some w =>
    (s.performOnce v.tag w [w, a] r).map fun o => o.map fun x =>
      let odd := v.arrivals.filter fun b => b.key != w.key
      let s := odd.foldl (fun (s : State) (b : Arrival) => s.dissent part b.ballot b.core) x.1
      let s := if odd.isEmpty then
          s.putVote { v with arrivals := [w, a], performed := true, result := x.2.1, mask := x.2.2 }
        else s.dropVote v.tag
      ([w, a] ++ odd).foldl (fun (s : State) (b : Arrival) => s.giveResult v.tag w b x.2) s
  | none =>
    if v.arrivals.length = 2 then
      let all := v.arrivals ++ [a]
      let s := (s.failVote part { v with arrivals := all }).dropVote v.tag
      some (.ok (all.foldl (fun (s : State) (b : Arrival) => s.giveFailure v.tag b) s))
    else some (.ok (s.putVote { v with arrivals := v.arrivals ++ [a] }))

/-- A copy's ballot at the voter: none where the majority it forms has to wait.
Left open by the spec: log entry 22 (DESIGN CHOICE). -/
def State.arrive (s : State) (part : Nat) (tag : VoteTag) (a : Arrival) (r : Reply) : Option (Except RingWait State) :=
  match s.votes.find? fun v => v.tag == tag with
  | none => if r = .none then some (.ok { s with votes := s.votes ++ [⟨tag, [a], false, 0, 0, none⟩] }) else none
  | some v =>
    match v.closed with
    | some late => if r = .none then some (.ok (s.lateArrival part v late a)) else none
    | none =>
      if v.performed then if r = .none then some (.ok (s.thirdArrival part v a)) else none
      else s.openArrival part v a r

/-- A step from `s` that a ring's unit may have to ask for something first. -/
def State.orAsk (s : State) (r : Option (Except RingWait State)) : Option State :=
  match r with
  | none => none
  | some (.ok t) => some t
  | some (.error w) => s.askRingUnit w

/-- A voted load of another package at its home (R43, R394): the first copy's reads it, the others take the value it
left; one whose entry has been discarded counts as a disagreement and gets a free value.
Left open by the spec: log entry 22 (DESIGN CHOICE). -/
def State.readPacket (s : State) (p : Packet) (tag : VoteTag) (copy : Nat) : Option State :=
  let give (s : State) (w mask : Word) : State :=
    s.answer p (bytesOf p.len w.toNat) ((List.range ((p.len + 3) / 4)).map mask.getLsbD)
  match s.voteBufs.find? fun b => b.tag == tag with
  | some b =>
    let rest := b.waiting.filter fun n => n != copy
    let bufs := s.voteBufs.filter fun x => x.tag != tag
    some (give { s with voteBufs := if rest.isEmpty then bufs else { b with waiting := rest } :: bufs } b.value b.mask)
  | none =>
    match s.votes.find? fun v => v.tag == tag with
    | some v =>
      let rest := (v.closed.getD []).filter fun n => n != copy
      let s := if rest.isEmpty then s.dropVote tag else s.putVote { v with closed := some rest }
      let s := s.recordFarDissent p.dstPart p.addr.toNat
      some (give s.freshWord.2 s.freshWord.1 0)
    | none =>
      if s.voteBufferFull p.addr.toNat then none
      else
        match s.performPacket p with
        | .answer x =>
          let buf : VoteBuf := ⟨tag, .dev p.addr.toNat, num (natOfBytes (x.2.1.take 8)), maskWord x.2.2,
            [0, 1, 2].filter fun n => n != copy⟩
          some ({ x.1 with voteBufs := buf :: x.1.voteBufs }.answer p x.2.1 x.2.2)
        | .ask _ | .stay => none

/-! ### SPAWN (R223) -/

/-- SPAWN at the voter: the copy waits until the item has been performed, and its ballot takes an item number. -/
def State.spawnVote (s : State) (tag : VoteTag) (a : Arrival) : Eff :=
  let w := Wait.vote tag.n
  let s := s.onMe fun t => { t with appended := t.appended + 1, wait := some w }
  match s.arrive s.me.part tag a .none with
  | some (.ok t) => if t.me.wait = some w then .hold t w else .go t
  | some (.error _) | none => .hold s w

/-- SPAWN with its record read: its bytes, and whether any is poisoned.
Left open by the spec: log entry 20 (DEDUCED). -/
def State.spawnGot (s : State) (bs : List Byte) (p : Bool) (va : Word) (d : CReg) (h : HReg) (scope : Scope) : Eff :=
  if p then .go (s.takeTrap Cause.poison 0 0)
  else if va.toNat % 64 ≠ 0 then .ok (s.onMe fun t => t.spawned d (.error 6))
  else
    match s.arrivalOf s.me s.me.appended spawnPart (.spawn bs va d h scope) with
    | some x => s.spawnVote x.1 x.2
    | none => .ok (s.spawnWith bs d ⟨s.earlier s.me h, scope, none⟩)

/-- A SPAWN whose vote a trap has cut issues again: it takes what the vote has returned, or waits for it.
Left open by the spec: log entry 41 (DESIGN CHOICE). -/
def State.spawnAgain (s : State) (d : CReg) (q : Parted) : Eff :=
  let s := s.onMe fun t => { t with parted := none }
  match q.result with
  | some w => .ok (s.onMe fun t => t.takeSpawn d w s)
  | none => .hold s (.vote q.n)

/-- The SPAWN at PC that a trap has cut in its vote. -/
def Strand.parted? (t : Strand) : Option Parted := t.parted.filter fun q => q.pc == t.pc

/-- Left open by the spec: log entry 20 (DEDUCED). -/
def execSpawn (g : Guard) (o : SpawnOp) (s : State) : Res :=
  frame g [o.a] [] (fun s => crewOnly s <|
    let va := s.xr o.a
    let early := (s.overlapping va 64).filter fun r => !s.performedAt r o.scope
    match s.me.parted? with
    | some q => s.spawnAgain o.d q
    | none =>
      if s.xPois o.a then .trap Cause.poison 0 0
      else if !early.isEmpty then .wait (.items early o.scope)
      else
        match s.spawnRead va o.d 64 with
        | .refused => .ok (s.onMe fun t => t.spawned o.d (.error 6))
        | .wait w => .wait w
        | .bytes bs p home =>
          match home with
          | some (.remote v a, _) => .hold (s.askRecord v a o.scope) (.record v a va o.d o.h o.scope)
          | _ => (s.meetRecord va home).spawnGot bs p va o.d o.h o.scope) s

end Sys2Proof.Machine
end

