-- ==== Sys2Proof/Machine/Engine.lean ====
section
/-!
DEFINITION. Engine.lean: the copy engines (R64, R221, R231, R232, R273, R277 to R284): jobs start, perform element
operations in any order, take their completion action, and reserve DRAM banks for row streams.
-/

namespace Sys2Proof.Machine

/-! ### The walk of a box (R227, R231, R278) -/

/-- Whether the elements of a job's destination have 4 bits. -/
def Job.nibbles (j : Job) : Bool := typeWidth j.block.dstType == 4

/-- The box of element operations: with a 4-bit destination, one for the two elements of a byte. -/
def Job.opBox (j : Job) : List Nat :=
  let pair := if j.block.transpose then 1 else 0
  j.block.box.zipIdx.map fun b => if j.nibbles && b.2 == pair then (b.1 + 1) / 2 else b.1

/-- How many element operations a job has. -/
def Job.opCount (j : Job) : Nat := j.opBox.foldl (· * ·) 1

/-- The digits of an index over the extents of a box, dimension 0 first. -/
def digits (n : Nat) : List Nat → List Nat
  | [] => []
  | b :: bs => n % b :: digits (n / b) bs

/-- The box indices of element operation `n`: one, or the two that share a destination byte. -/
def Job.opElems (j : Job) (n : Nat) : List (List Nat) :=
  let ds := digits n j.opBox
  if j.nibbles then
    let pair := if j.block.transpose then 1 else 0
    let at_ (k : Nat) : List Nat := ds.zipIdx.map fun d => if d.2 == pair then 2 * d.1 + k else d.1
    [at_ 0, at_ 1].filter fun x => decide (x.getD pair 0 < j.block.box.getD pair 0)
  else [ds]

def addCoord (c : List Int) (j : List Nat) : List Int := (List.range 4).map fun i => c.getD i 0 + (j.getD i 0 : Int)

/-- j0 and j1 exchanged. -/
def exchanged : List Nat → List Nat
  | a :: b :: js => b :: a :: js
  | js => js

def Job.srcOf (j : Job) (x : List Nat) : List Int := addCoord j.block.srcCoord x
def Job.dstOf (j : Job) (x : List Nat) : List Int :=
  addCoord j.block.dstCoord (if j.block.transpose then exchanged x else x)

/-- Whether coordinates lie inside a layout's extents, dimension by dimension below its RANK.
Left open by the spec: log entry 28 (DESIGN CHOICE). -/
def Layout.inside (l : Layout) (c : List Int) : Bool :=
  (List.range l.rank).all fun i => decide (0 ≤ c.getD i 0 ∧ c.getD i 0 < (l.extent.getD i 0 : Int))

/-- The address of an element (R227). -/
def Layout.addr (l : Layout) (c : List Int) : Int :=
  l.base.toNat + (c.getD 0 0) * typeWidth l.type / 8 +
    (List.range 3).foldl (fun a i => a + c.getD (i + 1) 0 * l.stride.getD (i + 1) 0) 0

/-- A local address after BANKXOR (R227). Left open by the spec: log entry 28 (DESIGN CHOICE). -/
def Layout.banked (l : Layout) (a : Nat) : Nat :=
  if l.bankXor = 0 then a else a ^^^ (a / 128 % 2 ^ l.bankXor * 16)

/-! ### Accesses of an engine (R64, R182, R284) -/

/-- Why an element operation is not performed: a fault, with what its accesses have counted; a translation (`ats`) or
host page that one of its accesses waits for; or its answers do not fit. -/
inductive EngErr where
  | fault (s : State) (cause : Nat) (a : Word)
  | wait (w : Who) (k : PageKey) (ats : Bool)
  | stay

/-- The place of an engine's access (R182, R329). -/
def State.enginePlace (s : State) (j : Job) (a : Acc) (va : Word) : Except EngErr (Place × Bool) :=
  match s.xlateUnit (s.engineWho j) a va with
  | .fail c _ => .error (.fault (s.forgetPage (s.engineWho j) va) c va)
  | .miss _ => .error .stay
  | .ats k => .error (.wait (s.engineWho j) k true)
  | .page k => .error (.wait (s.engineWho j) k false)
  | .at p pin => .ok (p, pin)

/-- The strands of a job: its own, in every copy of a voted crew. -/
def Job.strands (j : Job) : List StrandKey := j.crews.map fun c => ⟨c, j.owner.idx⟩

/-- A home that an element meets and that is lost: an event to the job's strand; of a keep-copy, which is no strand's,
to its partition. Left open by the spec: log entry 29 (DESIGN CHOICE). -/
def State.engineBlame (s : State) (j : Job) (cause reason : Nat) (va : Word) : State :=
  if j.crews.isEmpty then s.faultRecord j.part cause (num (reason * 2 ^ 12)) va
  else j.strands.foldl (fun (s : State) (k : StrandKey) => s.raiseTo k cause va (num (reason * 2 ^ 12))) s

/-- REMOTE for an access of an engine that is lost, likewise. Left open by the spec: log entry 29 (DESIGN CHOICE). -/
def State.engineRemote (s : State) (j : Job) (p : Place) : State :=
  if j.crews.isEmpty then (s.remoteAddr p).2.faultRecord j.part Cause.remote 0 (s.remoteAddr p).1
  else s.raiseRemote j.strands p

/-- The partition learns of an arrival at a tile of a cluster that is given back (R351). -/
def State.partRemote (s : State) (j : Job) (a : Nat) : State :=
  s.faultRecord j.part Cause.remote 0 (s.remoteAddr (.tile a)).1

/-- Runs of at most `n` ≤ 4 bytes inside 4 KiB pages. -/
def pageRuns (va : Word) (n : Nat) : List (Word × Nat) :=
  let first := 4096 - va.toNat % 4096
  if n ≤ first then [(va, n)] else [(va, first), (va + num first, n - first)]

/-- A request of an engine toward another package, with the answer that comes back; none comes without a route (R361,
R366, R367). -/
def State.engineFar (s : State) (j : Job) (v : Via) (p : Packet) (place : Place) (va : Word) (n : Nat) (r : Reply) :
    Except EngErr (State × (List Byte × Bool)) :=
  let ask := if s.routed v.node then s.dispatch v p else s
  match r with
  | .value w q => if s.routed v.node then .ok (ask, (bytesOf n w.toNat, q)) else .error .stay
  | .refused => if s.routed v.node then .error (.fault (ask.countWindow v true) Cause.access va) else .error .stay
  | .none => .ok ((ask.countWindow v false).engineRemote j place, (List.replicate n 0, true))
  | .corrected | .uncorrectable | .ring | .bytes _ _ | .voteFail | .dissent _ _ => .error .stay

/-- A read at a home, with the answer that comes back. -/
def State.engineLoadAt (s : State) (j : Job) (p : Place) (pin : Bool) (va : Word) (n : Nat) (r : Reply) :
    Except EngErr (State × (List Byte × Bool)) :=
  let local_ (s : State) : Except EngErr (State × (List Byte × Bool)) :=
    match s.homeError p n j.part r with
    | none => .error .stay
    | some s => .ok (s.noteCxl p j.asid pin, s.readHome p n .none)
  match p with
  | .dev x =>
    if s.cxlLost x then .ok (s.engineBlame j Cause.access 8 va, s.readHome p n .none) else local_ s
  | .host _ => .ok (s, s.readHome p n .none)
  | .tile x =>
    if s.scratchUp (x / 2 ^ 24) then local_ s else .ok (s.engineRemote j p, s.readHome p n .none)
  | .remote v x =>
    s.engineFar j v { s.header v x (s.clusterSecure j.engine) with
      kind := Packet.read, len := n, scope := Scope.code .system } p va n r

/-- A read of `n` bytes through the checks of R182, by runs; `rs` holds the answers in order. -/
def State.engineLoad (s : State) (j : Job) (rs : List Reply) :
    List (Word × Nat) → Except EngErr (State × (List Byte × Bool) × List Reply)
  | [] => .ok (s, ([], false), rs)
  | (va, n) :: runs =>
    (s.enginePlace j .load va).bind fun at_ =>
      (s.engineLoadAt j at_.1 at_.2 va n (rs.headD .none)).bind fun x =>
        (x.1.engineLoad j rs.tail runs).map fun y => (y.1, (x.2.1 ++ y.2.1.1, x.2.2 || y.2.1.2), y.2.2)

/-- A write at a home: the bytes that `upd` makes of those there; the tile written, if it is one. The answer of another
package's home carries what it held. Left open by the spec: log entry 31 (DESIGN CHOICE). -/
def State.engineStoreAt (s : State) (j : Job) (p : Place) (pin : Bool) (va : Word) (n : Nat)
    (upd : List Byte → List Byte) (q : Bool) (r : Reply) : Except EngErr (State × Option Nat) :=
  match p with
  | .dev x =>
    if s.cxlLost x then .ok (s.engineBlame j Cause.access 8 va, none)
    else .ok ((s.noteCxl p j.asid pin).writeHome p (upd (s.readHome p n .none).1) q, none)
  | .host _ => .ok (s.writeHome p (upd (s.readHome p n .none).1) q, none)
  | .tile x =>
    if !s.scratchUp (x / 2 ^ 24) then .ok (s.engineRemote j p, none)
    else if !s.coreOpen (x / 2 ^ 20) then .ok (s.partRemote j x, none)
    else .ok (s.writeTile x (upd (s.readTile x n).1) q, some (x / 4096))
  | .remote v x =>
    let old := match r with
      | .value w _ => bytesOf n w.toNat
      | .none | .corrected | .uncorrectable | .refused | .ring | .bytes _ _ | .voteFail | .dissent _ _ => List.replicate n 0
    (s.engineFar j v { s.header v x (s.clusterSecure j.engine) with
      kind := Packet.write, len := n, scope := Scope.code .system, poisoned := q, mask := wordsMask n q,
      data := upd old } p va n r).map fun x => (x.1, none)

/-- A write through the checks of R182, by runs; the tiles written, each with the bytes. -/
def State.engineStore (s : State) (j : Job) (upd : List Byte → List Byte) (q : Bool) (rs : List Reply) :
    List (Word × Nat) → Except EngErr (State × List (Nat × Nat))
  | [] => .ok (s, [])
  | (va, n) :: runs =>
    (s.enginePlace j .store va).bind fun at_ =>
      (s.engineStoreAt j at_.1 at_.2 va n (fun old => (upd old).take n) q (rs.headD .none)).bind fun x =>
        (x.1.engineStore j (fun old => (upd (List.replicate n 0 ++ old)).drop n) q rs.tail runs).map fun y =>
          (y.1, (x.2.toList.map fun t => (t, n)) ++ y.2)

/-! ### Scratchpad of the job's crew (R231, R281) -/

/-- The crews whose scratchpad a job acts on. -/
def State.jobCrews (s : State) (j : Job) : List Crew := j.crews.filterMap s.crew?

/-- Whether `n` bytes at a local address lie in the crew's tiles. -/
def State.jobHas (s : State) (j : Job) (a : Int) (n : Nat) : Bool :=
  match s.jobCrews j with
  | c :: _ => decide (0 ≤ a ∧ a + n ≤ (c.tileCount * 4096 : Nat))
  | [] => false

/-- Bytes of a crew's scratchpad, on its core or in its image. -/
def State.readCrew (s : State) (c : Crew) (off n : Nat) : List Byte × Bool :=
  match c.place.slot? with
  | some slot => s.readImage (s.saveSlot c.part slot) (off / 4096) (off % 4096) n
  | none => s.readTile (tileAddr c.core c.tileBase off) n

/-- A read of a job's own scratchpad: that of its first crew. Left open by the spec: log entry 28 (DESIGN CHOICE). -/
def State.jobRead (s : State) (j : Job) (off n : Nat) (r : Reply) : Except EngErr (State × (List Byte × Bool)) :=
  match s.jobCrews j with
  | [] => .error .stay
  | c :: _ =>
    if c.place.slot?.isSome then .ok (s, s.readCrew c off n)
    else s.engineLoadAt j (.tile (tileAddr c.core c.tileBase off)) false (num off) n r

/-- A write of a job's own scratchpad, in every copy of a voted crew; where the cluster is being released it is
refused, and the partition learns of it (R351). Left open by the spec: log entry 28 (DESIGN CHOICE). -/
def State.jobWrite (s : State) (j : Job) (off n : Nat) (upd : List Byte → List Byte) (q : Bool) :
    State × List (Nat × Nat) :=
  (s.jobCrews j).foldl (fun x c =>
    let a := tileAddr c.core c.tileBase off
    if x.1.coreOpen c.core then
      (x.1.writeTile a (upd (x.1.readTile a n).1) q, x.2 ++ [(a / 4096, n)])
    else (x.1.partRemote j a, x.2)) (s, [])

/-- The barriers, by core and number, that a job's payments reach. -/
def State.jobBars (s : State) (j : Job) : List (Nat × Nat) :=
  (s.jobCrews j).map fun c => (c.core, c.barBase + j.block.doneSel)

/-- A payment of `n` bytes at a job's barrier (R221), whose test is still to be made; `true` says that it was not
applied. Left open by the spec: log entry 28 (DESIGN CHOICE). -/
def State.jobPay (s : State) (j : Job) (n : Nat) : State × Bool :=
  (s.jobCrews j).foldl (fun x c =>
    if x.1.coreOpen c.core then
      let b := c.barBase + j.block.doneSel
      let r := (x.1.barrier c.core b).pay j.block.donePhase (n : Int)
      (x.1.setBarrier c.core b r.1, x.2 || r.2)
    else (x.1.freshWord.2.faultRecord j.part Cause.remote 0 x.1.freshWord.1, x.2)) (s, false)

/-! ### Elements -/

/-- An element at its source: its code and poison; or one outside the extents that EDGE_ZERO fills. -/
inductive SourceElem where
  | elem (code : Nat) (p : Bool)
  | edge
  | skip

/-- The ring that a SPACE 2 source names, in the partition and the world of its job (R226, R356, R365). -/
def State.jobRing? (s : State) (j : Job) : Option RingAt :=
  let w := j.src.base
  let secure := s.clusterSecure j.engine
  if s.isOwnNode (fieldOf w 63 52) then
    let n := fieldOf w 5 0
    if s.ownsRing j.part n && (secure || !(s.bar (rngown n)).getLsbD 62) then some (.own n) else none
  else
    (s.viaNode? j.part (fieldOf w 63 52)).bind fun v =>
      if secure || !(s.bar (windowReg v.part v.win 0)).getLsbD 61 then some (.far v) else none

/-- A ring's storage read for an engine: the value, or what stops it. A fault disables the ring.
Left open by the spec: log entry 29 (DESIGN CHOICE). -/
def State.forEngine {α : Type} (s : State) (n : Nat) (lost : α) (r : Except RingErr (State × α)) :
    Except EngErr (State × α) :=
  match r with
  | .ok x => .ok x
  | .error (.wait k ats) => .error (.wait (s.ringWho n) k ats)
  | .error (.fault a) => .ok (s.ringFault n a, lost)

/-- Element `e` of the ring that a job reads (R227, R279): the one of the package by the type of its configuration,
another package's by a request. Left open by the spec: log entry 29 (DESIGN CHOICE). -/
def State.ringElement (s : State) (j : Job) (e : Nat) (r : Reply) : Except EngErr (State × (Nat × Bool)) :=
  let w := typeWidth j.src.type
  let n := (w + 7) / 8
  match s.jobRing? j with
  | none => .error (.fault s Cause.access j.src.base)
  | some (.own n) => (s.forEngine n (0, true) (s.ringElem n e)).map fun x => (x.1, (x.2.1 % 2 ^ w, x.2.2))
  | some (.far v) =>
    (s.engineFar j v { s.header v (fieldOf j.src.base 5 0) (s.clusterSecure j.engine) with
      kind := Packet.control, vc := 3, op := elementOp, scope := Scope.code .system, len := n,
      opLo := num e, opHi := num (e / 2 ^ 64) } (.remote v (fieldOf j.src.base 5 0)) j.src.base n r).map fun x =>
        (x.1, (natOfBytes x.2.1 % 2 ^ w, x.2.2))

/-- The source element of box index `x` (R231). -/
def State.elemSource (s : State) (j : Job) (x : List Nat) (rs : List Reply) :
    Except EngErr (State × SourceElem × List Reply) :=
  let c := j.srcOf x
  let w := typeWidth j.src.type
  let n := (w + 7) / 8
  let code (bs : List Byte) : Nat := if w = 4 then packedElem bs 4 (c.getD 0 0 % 2).toNat else natOfBytes bs
  if j.src.space = 2 then
    let part (i b : Nat) : Nat := (j.block.srcCoord.getD i 0 % 2 ^ b).toNat
    let e := part 2 16 * 2 ^ 48 + part 1 16 * 2 ^ 32 + part 0 32 + x.getD 0 0
    (s.ringElement j e (rs.headD .none)).map fun r => (r.1, .elem r.2.1 r.2.2, rs.tail)
  else if !j.src.inside c then .ok (s, if j.block.edgeZero then .edge else .skip, rs)
  else
    let a := j.src.addr c
    if j.src.space = 1 then
      let a := j.src.banked a.toNat
      if j.src.addr c < 0 ∨ !s.jobHas j a n then .error (.fault s Cause.space (BitVec.ofInt 64 (j.src.addr c)))
      else (s.jobRead j a n (rs.headD .none)).map fun r => (r.1, .elem (code r.2.1) r.2.2, rs.tail)
    else
      (s.engineLoad j rs (pageRuns (BitVec.ofInt 64 a) n)).map fun r => (r.1, .elem (code r.2.1.1) r.2.1.2, r.2.2)

/-- What an element operation has gathered: the elements to write, by their place in a 4-bit byte; the elements
saturated and edge-filled. -/
structure Gathered where
  codes : List (Nat × Nat)
  poison : Bool
  sat : Nat
  edge : Nat
  first : Option (List Int)

/-- A code converted for the destination (R231). Left open by the spec: log entry 18 (DEDUCED). -/
def Job.convert (j : Job) (code : Nat) : Rounded :=
  let mode := modeOfRm (BitVec.ofNat 3 j.block.round)
  let dt := elemOf j.block.dstType
  let st := elemOf j.block.srcType
  if j.block.scale = 0 then convertElem dt st mode false code else quantise dt st mode false j.block.scale code

/-- The elements of an operation whose destination lies inside its extents, fetched and converted. -/
def State.gather (s : State) (j : Job) (g : Gathered) (rs : List Reply) :
    List (List Nat) → Except EngErr (State × Gathered × List Reply)
  | [] => .ok (s, g, rs)
  | x :: xs =>
    let d := j.dstOf x
    let nib := (d.getD 0 0 % 2).toNat
    let put (code : Nat) (p : Bool) (sat edge : Nat) : Gathered :=
      ⟨g.codes ++ [(nib, code)], g.poison || p, g.sat + sat, g.edge + edge, g.first.or (some d)⟩
    if !j.dst.inside d then s.gather j g rs xs
    else if j.block.op = 2 then s.gather j (put (j.block.fill % 2 ^ typeWidth j.block.dstType) false 0 0) rs xs
    else
      (s.elemSource j x rs).bind fun r =>
        match r.2.1 with
        | .skip => r.1.gather j g r.2.2 xs
        | .edge => r.1.gather j (put 0 false 0 1) r.2.2 xs
        | .elem code p =>
          let z := j.convert code
          r.1.gather j (put z.code p (if z.sat then 1 else 0) 0) r.2.2 xs

/-- The destination bytes: a whole element, or a byte with its nibbles set. -/
def Job.update (j : Job) (codes : List (Nat × Nat)) (old : List Byte) : List Byte :=
  if j.nibbles then
    let b := codes.foldl (fun b c =>
      if c.1 = 0 then b / 16 * 16 + c.2 % 16 else b % 16 + 16 * (c.2 % 16)) (natOfBytes (old.take 1))
    [BitVec.ofNat 8 b]
  else bytesOf (typeWidth j.block.dstType / 8) ((codes.headD (0, 0)).2)

/-- The write of an operation's elements: the tiles written, with the bytes. -/
def State.elemStore (s : State) (j : Job) (g : Gathered) (rs : List Reply) :
    Except EngErr (State × List (Nat × Nat)) :=
  match g.first with
  | none => .ok (s, [])
  | some d =>
    let n := (typeWidth j.block.dstType + 7) / 8
    let a := j.dst.addr d
    if j.dst.space = 1 then
      let b := j.dst.banked a.toNat
      if a < 0 ∨ !s.jobHas j b n then .error (.fault s Cause.space (BitVec.ofInt 64 a))
      else .ok (s.jobWrite j b n (j.update g.codes) g.poison)
    else s.engineStore j (j.update g.codes) g.poison rs (pageRuns (BitVec.ofInt 64 a) n)

/-- The bytes an operation pays: those of one copy's tiles. -/
def Job.paid (j : Job) (tiles : List (Nat × Nat)) : Nat :=
  let total := (tiles.map (·.2)).foldl (· + ·) 0
  if j.dst.space = 1 then total / max 1 j.crews.length else total

/-- Whether an element operation pays at its job's barrier. -/
def Job.pays (j : Job) (tiles : List (Nat × Nat)) : Bool := j.block.doneKind == 2 && j.paid tiles != 0

/-- An element operation done: its counts, its tiles, and its payment under DONE_KIND 2 in the same step. -/
def State.elemDone (s : State) (j : Job) (n : Nat) (g : Gathered) (tiles : List (Nat × Nat)) : State :=
  let r := if j.pays tiles then s.jobPay j (j.paid tiles) else (s, false)
  let at_ : Word := match g.first with
    | some d => BitVec.ofInt 64 (j.dst.addr d)
    | none => 0
  r.1.onJob j.engine j.slot fun k => { k with
    performed := n :: k.performed
    sat := k.sat + g.sat
    edge := k.edge + g.edge
    wrote := (k.wrote ++ tiles.map (·.1)).eraseDups
    fault := if r.2 then k.fault.or (some (Cause.barrierOverrun, at_)) else k.fault }

/-! ### Keep-copies (R267, R283) -/

/-- Where a claim's sample lies in the keep area: its position and the consumer's limit (R267). -/
def State.keepPlace (s : State) (n : Nat) (c : Claim) (x : Nat) : Nat × Nat × Nat :=
  let kn := 2 ^ fieldOf (s.ring n 9) 5 0
  let size := s.rgSize n
  if s.rgSplit n then
    let at_ := c.offset + (idxDiff x c.first).toNat * size
    (at_ % (kn * size), at_, kn * size)
  else (x % kn * size, x, kn)

/-- Whether the consumer leaves room for a sample. -/
def State.keepRoom (s : State) (n : Nat) (c : Claim) (x : Nat) : Bool :=
  let p := s.keepPlace n c x
  let cons := (s.ring n 12).toNat
  if s.rgSplit n then decide (p.2.1 < cons + p.2.2) else !idxLe (idx ((cons : Int) + p.2.2)) x

/-- The claim that a keep-copy works for. -/
def State.claim? (s : State) (n id : Nat) : Option (RingUnit × Claim) :=
  (s.unit? n).bind fun u => (u.claims.find? fun c => c.id == id).map fun c => (u, c)

def State.onClaim (s : State) (n id : Nat) (f : Claim → Claim) : State :=
  match s.unit? n with
  | some u => s.setUnit n { u with claims := u.claims.map fun c => if c.id = id then f c else c }
  | none => s

/-- Whether a sample of a claim can be copied now: written, inside the claim, with room for it. -/
def State.keepable (s : State) (n : Nat) (c : Claim) (x : Nat) : Bool :=
  idxLe x c.last && !idxLe (s.rgHead n) x && s.keepRoom n c x

/-- The keep-area address of a claim's sample. -/
def State.keepAddr (s : State) (n : Nat) (c : Claim) (x : Nat) : Word :=
  (s.ring n 9 &&& bitsMask 63 16) + num (s.keepPlace n c x).1

/-- The first sample of a keep-copy, and the one it copies next. -/
def Job.keepFirst (j : Job) : Nat := (j.block.srcCoord.headD 0).toNat
def Job.keepAt (j : Job) : Nat := idx ((j.keepFirst : Int) + j.performed.length)

/-- One sample copied in the world and from the die of the engine (R329, R356): as stored, or zero and poisoned where
the ring has overwritten it; none where it has to wait for the consumer.
Left open by the spec: log entry 29 (DESIGN CHOICE). -/
def State.keepOne (s : State) (j : Job) (n id : Nat) (rs : List Reply) : Except EngErr State :=
  match s.claim? n id with
  | none => .error .stay
  | some (u, c) =>
    let x := j.keepAt
    if !s.keepable n c x then .error .stay
    else
      let kept := s.rgRetained n u x
      let size := s.rgSize n
      let settled {α : Type} (t : State) (r : Except RingErr α) (next : α → Except EngErr State) : Except EngErr State :=
        match r with
        | .error (.wait k ats) => .error (.wait (s.ringWho n) k ats)
        | .error (.fault a) => .ok (t.ringFault n a)
        | .ok v => next v
      settled s (if kept then s.ringSample n x else .ok (s, List.replicate size 0, true)) fun v =>
        (v.1.engineStore j (fun _ => v.2.1) v.2.2 rs (pageRuns (s.keepAddr n c x) size)).bind fun w =>
          settled w.1 (if kept then .ok w.1 else w.1.ringCount n RingBlock.trunc 1) fun t =>
            .ok (t.onJob j.engine j.slot fun k => { k with
              performed := k.performed.length :: k.performed
              sat := k.sat + if v.2.2 then 1 else 0
              edge := k.edge + if kept then 0 else 1 })

/-- Whether a keep-copy has no more to copy. -/
def State.keepOver (s : State) (j : Job) (n id : Nat) : Bool :=
  decide (j.block.box.headD 0 ≤ j.performed.length) || (s.claim? n id).isNone

/-- A keep-copy ended: what it has copied is its claim's, with the poisoned and truncated samples (R283).
Left open by the spec: log entry 29 (DESIGN CHOICE). -/
def State.endKeep (s : State) (j : Job) (n id : Nat) : State :=
  let more := s.jobs.any fun k =>
    k.keep == some (n, id) && k.state.alive && !(k.engine == j.engine && k.slot == j.slot)
  s.onClaim n id fun c => { c.advance j.keepFirst j.keepAt with
    poisoned := c.poisoned + j.sat
    truncated := c.truncated + j.edge
    busy := more }

/-- What is left of a claim counts as truncated; its keep-copies end, and RING goes to the ring's partition.
Left open by the spec: log entry 29 (DESIGN CHOICE). -/
def State.truncateClaim (s : State) (n id : Nat) (a : Word) : Except RingWait State :=
  match s.claim? n id with
  | none => .ok s
  | some (_, c) =>
    let left := c.uncopied
    let s := s.onClaim n id fun c => { c with
      next := idx ((c.last : Int) + 1)
      poisoned := c.poisoned + left
      truncated := c.truncated + left
      busy := false
      dead := true }
    (s.faultless n (s.ringCount n RingBlock.trunc left)).map fun s =>
      s.faultRecord (s.barField (rngown n) 59 56) Cause.ring 0 a

/-! ### The steps -/

/-- Whether a keep-copy waits for the consumer of its keep area (R267).
Left open by the spec: log entry 29 (DESIGN CHOICE). -/
def State.keepStalled (s : State) (j : Job) : Bool :=
  match j.keep with
  | none => false
  | some (n, id) => match s.claim? n id with
    | some (_, c) => !s.keepOver j n id && !s.keepRoom n c j.keepAt
    | none => false

/-- The jobs that an engine has started and not ended, those left out that wait for a keep area's consumer (R273, R274).
-/
def State.startedJobs (s : State) (engine : Nat) : List Job :=
  s.jobs.filter fun j => j.engine == engine && j.state == .running && j.leader.isNone && !s.keepStalled j

/-- How many of an engine's eight places for jobs are taken. Left open by the spec: log entry 29 (DESIGN CHOICE). -/
def State.runningJobs (s : State) (engine : Nat) : Nat := (s.startedJobs engine).length

/-- Whether a job is among the eight that its engine runs at once: where keep-copies go on that have waited, the first
ones created. Left open by the spec: log entry 29 (DESIGN CHOICE). -/
def State.runsNow (s : State) (j : Job) : Bool := ((s.startedJobs j.engine).take 8).any fun k => k.slot == j.slot

/-- JOB_START (R273): the first created of an engine's queued jobs, while fewer than 8 run. -/
def State.stepJobStart (s : State) (engine slot : Nat) : Option State :=
  match s.jobs.find? fun j => j.engine == engine && j.state == .queued && j.leader.isNone with
  | none => none
  | some j =>
    if j.slot = slot ∧ s.runningJobs engine < 8 then
      some (s.onJob engine slot fun k => { k with state := .running })
    else none

def execJobStart (engine slot : Nat) (s : State) : Res := taken (s.stepJobStart engine slot)

/-- A running job that goes on. -/
def Job.goesOn (j : Job) : Bool := j.state == .running && j.leader.isNone && !j.abort && j.fault.isNone

/-- The state after an event, with the barriers (core and number) that it has reached and whose tests are still to be
made. -/
abbrev AtBars := State × List (Nat × Nat)

/-- What an access of an engine that waits asks for, while nothing stands for it (R284, R334). -/
def State.engineAsks (s : State) : EngErr → Option State
  | .wait w k ats => s.askUnit w k ats
  | .stay | .fault _ _ _ => none

/-- An element operation of a strand's job. Left open by the spec: log entry 28 (DESIGN CHOICE). -/
def State.elemStep (s : State) (j : Job) (n : Nat) (rs : List Reply) : Option AtBars :=
  if j.opCount ≤ n ∨ j.performed.contains n ∨ (j.block.op = 3 ∧ !j.bank) then none
  else
    match (s.gather j ⟨[], false, 0, 0, none⟩ rs (j.opElems n)).bind fun g =>
        (g.1.elemStore j g.2.1 g.2.2).map fun w =>
          (w.1.elemDone j n g.2.1 w.2, if j.pays w.2 then s.jobBars j else []) with
    | .ok t => some t
    | .error (.fault t c a) => some (t.onJob j.engine j.slot fun k => { k with fault := some (c, a) }, [])
    | .error e => (s.engineAsks e).map fun t => (t, [])

/-- The end of a job: its slot and those of the other copies are free; its record stays for CPYSTAT. -/
def State.endJob (s : State) (j : Job) (e : JobState) : State :=
  let f : Job → Job := fun k =>
    if (k.engine = j.engine ∧ k.slot = j.slot) ∨ k.leader = some (j.engine, j.slot) then
      { k with state := e, leader := none } else k
  { s with jobs := s.jobs.map f }

/-- A keep-copy that a translation or an access of its keep area ends (R283). -/
def State.keepFault (s : State) (j : Job) (n id : Nat) (a : Word) : Option State :=
  s.orAsk (some (((s.endJob j .faulted).endKeep j n id).truncateClaim n id a))

/-- Element operation `n` of the job in a slot (R231); a keep-copy takes its samples in order, and a fault ends it. -/
def State.elementEvent (s : State) (engine slot n : Nat) (rs : List Reply) : Option AtBars :=
  match s.jobAt? engine slot with
  | none => none
  | some j =>
    if !j.goesOn || !s.runsNow j then none
    else
      match j.keep with
      | none => s.elemStep j n rs
      | some (r, id) =>
        if s.keepOver j r id then none
        else
          match s.keepOne j r id rs with
          | .ok t => some (t, [])
          | .error (.fault t _ a) => (t.keepFault j r id a).map fun t => (t, [])
          | .error e => (s.engineAsks e).map fun t => (t, [])

/-- The barrier item at a head (R63), as a release. -/
def State.itemEvent (s : State) (k : StrandKey) (h : HReg) : Option AtBars :=
  match s.freshHead k h with
  | some (t, e) =>
    match e.body with
    | .bar i => if s.handleClear k h i.scope then some ((s.applyBar t i).popHead k h, [(t.core, i.bar)]) else none
    | _ => none
  | none => none

def State.barEvent (s : State) : BarMore → Option AtBars
  | .item k h => s.itemEvent k h
  | .element engine slot n rs => s.elementEvent engine slot n rs

/-- The events that reach a barrier in one cycle, applied together; then each barrier they reached tests once (R63).
Each of `more` shares a barrier with the first. -/
def State.stepBarriers (s : State) (first : BarMore) (more : List BarMore) : Option State :=
  (s.barEvent first).bind fun x =>
    (more.foldlM (fun (y : AtBars) (e : BarMore) => (y.1.barEvent e).bind fun z =>
      if z.2.any fun b => x.2.contains b then some (z.1, (y.2 ++ z.2).eraseDups) else none) x).map fun y =>
        y.2.foldl (fun (s : State) (b : Nat × Nat) => s.testBar b.1 b.2) y.1

/-- BARRIER_ITEM_PERFORM (R63). -/
def execBarrierItemPerform (k : StrandKey) (x : BarArgs) (s : State) : Res :=
  taken (s.stepBarriers (.item k x.h) x.more)

/-- ELEMENT_OPERATION (R63, R231). -/
def execElementOperation (engine slot n : Nat) (x : ElemArgs) (s : State) : Res :=
  taken (s.stepBarriers (.element engine slot n x.rs) x.more)

/-- The state a job ends in, where its completion action is due: an aborted or faulted job that has been created, or
one whose element operations are all performed. -/
def State.ending? (s : State) (j : Job) : Option JobState :=
  if j.leader.isSome || !(j.state == .queued || j.state == .running) then none
  else if j.abort then some .aborted
  else if j.fault.isSome then some .faulted
  else if j.state != .running then none
  else
    match j.keep with
    | some (r, id) => if s.keepOver j r id then some .done else none
    | none => if j.performed.length = j.opCount then some .done else none

/-- The 16 status bytes (R232). -/
def Job.status (j : Job) (e : JobState) : List Byte :=
  let code := match e with
    | .done => 1
    | .faulted => 2
    | .awaited | .queued | .running | .aborted => 3
  let fault := match e, j.fault with
    | .faulted, some (c, _) => c
    | _, _ => 0
  bytesOf 4 code ++ bytesOf 4 j.sat ++ bytesOf 4 j.edge ++ bytesOf 2 fault ++ [0, 0]

/-- A job's bank when it ends: kept for the next of its handle under BULK_ROW, or released (R282). -/
def State.endBank (s : State) (j : Job) (e : JobState) : State :=
  let mine (b : Bank) : Bool := b.engine == j.engine && b.job == some j.slot
  let keep := e == .done && j.block.bulkRow
  let f : Bank → Bank := fun b => if mine b then { b with job := none } else b
  if keep then { s with banks := s.banks.map f } else { s with banks := s.banks.filter fun b => !mine b }

/-- The arrival of DONE_KIND 1 at the tile of a crew (R64, R281).
Left open by the spec: log entry 28 (DESIGN CHOICE). -/
def State.jobArrive (s : State) (j : Job) (c : Crew) (poison : Bool) : State :=
  let tile := c.tileBase + j.block.doneSel
  let gta := gtOf c.core tile
  if s.coreOpen c.core then
    let r := s.landOne c.core tile 0 [] [poison] false
    if r.2 = .landed then r.1 else r.1.raiseTo ⟨c.uid, j.owner.idx⟩ Cause.tileOverrun gta 0
  else s.faultRecord j.part Cause.remote 0 gta

/-- The increment of DONE_KIND 3 at the checked place (R64, R411): the host may answer it with an error (R70), and a
home may be lost. -/
def State.jobIncrement (s : State) (j : Job) (a : Access) (r : Reply) : Option State :=
  let add (s : State) : State :=
    let v := s.readHome a.place 8 .none
    let new := bytesOf 8 ((natOfBytes v.1 + 1) % 2 ^ 64)
    match a.place with
    | .host x => { s with host := s.host.store x new v.2 }.send (.atomicOp x .add true 1 0)
    | .dev _ | .tile _ | .remote _ _ => s.writeHome a.place new v.2
  let lost (cause reason : Nat) : State := s.engineBlame j cause reason a.va
  match a.place with
  | .host _ => (match r with
    | .none => some (add s)
    | .refused => some (lost Cause.access 7)
    | .corrected | .uncorrectable | .value _ _ | .ring | .bytes _ _ | .voteFail | .dissent _ _ => none)
  | .dev x =>
    if s.cxlLost x then (if r = .none then some (lost Cause.access 8) else none)
    else (s.homeError a.place 8 j.part r).map fun s => add (s.noteCxl a.place j.asid a.pin)
  | .tile x =>
    if s.scratchUp (x / 2 ^ 24) then (s.homeError a.place 8 j.part r).map add
    else if r = .none then some (s.raiseRemote j.strands a.place) else none
  | .remote v x =>
    match s.engineFar j v { s.header v x (s.clusterSecure j.engine) with
        kind := Packet.atomic, len := 8, op := AtomKind.add.code + 32, scope := Scope.system.code,
        release := true, opLo := 1 } a.place a.va 8 r with
    | .ok t => some t.1
    | .error (.fault t _ _) => some (t.engineBlame j Cause.access 6 a.va)
    | .error _ => none

/-- The DONE_KIND action (R64). -/
def State.doneAction (s : State) (j : Job) (e : JobState) (r : Reply) : Option State :=
  let bad := e != .done
  match j.block.doneKind with
  | 1 => some ((s.jobCrews j).foldl (fun (s : State) (c : Crew) => s.jobArrive j c bad) s)
  | 2 =>
    if bad then
      some ((s.jobCrews j).foldl (fun (s : State) (c : Crew) =>
        let b := c.barBase + j.block.doneSel
        if s.coreOpen c.core then s.setBarrier c.core b { s.barrier c.core b with poison := true } else s) s)
    else some s
  | 3 =>
    if bad then some s
    else
      match j.doneAt with
      | some a => s.jobIncrement j a r
      | none => some s
  | _ => some s

/-- The completion action of a strand's job (R232): SCALE to the tags, the status, the DONE_KIND action; then the
ENGINE_FAULT of a faulted job. Left open by the spec: log entry 28 (DESIGN CHOICE). -/
def State.completeJob (s : State) (j : Job) (e : JobState) (r : Reply) : Option State :=
  let scale (s : State) (t : Nat) : State :=
    s.setTag (t / 256) (t % 256) { s.tag (t / 256) (t % 256) with scale := BitVec.ofNat 20 j.block.scale }
  let s := if j.block.scale = 0 then s else j.wrote.foldl scale s
  let s := if j.block.status then (s.jobWrite j j.blockAddr 16 (fun _ => j.status e) false).1 else s
  (s.doneAction j e r).map fun s =>
    let told := s.jobs.filter fun k => (k.engine == j.engine && k.slot == j.slot) || k.leader == some (j.engine, j.slot)
    let fin := (s.endBank j e).endJob j e
    match e, j.fault with
    | .faulted, some (_, a) =>
      told.foldl (fun (s : State) (k : Job) =>
        s.raiseTo k.owner Cause.engineFault a (ticket k.engine k.slot k.seq)) fin
    | _, _ => fin

/-- COMPLETION_ACTION (R64, R232, R283). -/
def State.stepCompletionAction (s : State) (engine slot : Nat) (r : Reply) : Option State :=
  (s.jobAt? engine slot).bind fun j => (s.ending? j).bind fun e =>
    match j.keep with
    | none => s.completeJob j e r
    | some (n, id) =>
      let t := (s.endJob j e).endKeep j n id
      if e = .done || (t.liveUnit? n).isNone then some t else s.orAsk (some (t.truncateClaim n id 0))

def execCompletionAction (engine slot : Nat) (r : Reply) (s : State) : Res := taken (s.stepCompletionAction engine slot r)

/-! ### Row streams (R282) -/

/-- The stack that is the home of a place. -/
def stackOf : Place → Option Nat
  | .dev a => if a < hbmEnd then some (a / 2 ^ 36) else none
  | .host _ | .tile _ | .remote _ _ => none

/-- The address of the first element that a row stream writes, if it writes any. -/
def Job.firstWritten? (j : Job) : Option Int :=
  ((List.range (j.block.box.headD 0)).find? fun i =>
    j.dst.inside (j.dstOf [i]) && (j.block.edgeZero || j.src.inside (j.srcOf [i]))).map fun i => j.dst.addr (j.dstOf [i])

/-- The stack that is the home of a row stream's destination. What faults there faults in its element operation. -/
def State.rowStack? (s : State) (j : Job) : Option Nat :=
  j.firstWritten?.bind fun a =>
    match s.xlateUnit (s.engineWho j) .store (BitVec.ofInt 64 a) with
    | .at p _ => stackOf p
    | .fail _ _ | .miss _ | .ats _ | .page _ => none

/-- ROWSTREAM_RESERVATION: a bank at the stack of the destination, the one its handle holds or one of four; a
destination that is no stack's needs none. Left open by the spec: log entry 29 (DESIGN CHOICE). -/
def State.stepRowstreamReservation (s : State) (engine slot : Nat) : Option State :=
  match s.jobAt? engine slot with
  | none => none
  | some j =>
    if !j.goesOn || j.block.op != 3 || j.bank then none
    else
      let got (s : State) : State := s.onJob engine slot fun k => { k with bank := true }
      match s.rowStack? j with
      | none => some (got s)
      | some d =>
        let held (b : Bank) : Bool := b.stack == d && b.engine == engine && b.owner == j.owner && b.h == j.h && b.job.isNone
        match s.banks.findIdx? held with
        | some i => some (got { s with banks := setNth s.banks i ⟨d, engine, j.owner, j.h, some slot⟩ })
        | none =>
          if (s.banks.countP fun b => b.stack == d) < 4 then
            some (got { s with banks := s.banks ++ [⟨d, engine, j.owner, j.h, some slot⟩] })
          else none

def execRowstreamReservation (engine slot : Nat) (s : State) : Res := taken (s.stepRowstreamReservation engine slot)

/-- ROWSTREAM_IDLE_RELEASE: a held bank that no job uses falls free, counted at its engine (R396).
Left open by the spec: log entry 29 (DESIGN CHOICE). -/
def State.stepRowstreamIdleRelease (s : State) (i : Nat) : Option State :=
  (s.banks[i]?).bind fun b =>
    if b.job.isSome then none
    else
      let off := errReg (b.engine / 12) (8 * (32 * (b.engine % 12) + 17))
      some ({ s with banks := s.banks.eraseIdx i }.setBarField off 31 0 (min (s.barField off 31 0 + 1) (2 ^ 32 - 1)))

def execRowstreamIdleRelease (i : Nat) (s : State) : Res := taken (s.stepRowstreamIdleRelease i)

/-! ### Keep-copies submitted and faulted (R267, R274, R283) -/

/-- The engine of a ring's keep-copies. Left open by the spec: log entry 29 (DESIGN CHOICE). -/
def State.keepEngine (s : State) (n : Nat) : Nat := 12 * fieldOf (s.ring n 0) 14 12 + fieldOf (s.ring n 0) 11 8

/-- The samples that a keep-copy submitted now may copy: from the claim's next one to its end, as far as they are
written and the keep area does not hold them. -/
def State.keepBudget (s : State) (n : Nat) (c : Claim) : Nat :=
  let written := idxMin c.last (idx ((s.rgHead n : Int) - 1))
  idxCount c.next (c.skip.foldl (fun (y : Nat) (r : Nat × Nat) =>
    if idxLe r.1 c.next then y else idxMin y (idx ((r.1 : Int) - 1))) written)

def emptyBlock (first count : Nat) : Block :=
  ⟨1, false, false, false, false, 0, 0, 0, 0, 0, [first], [], [count, 1, 1, 1], 0, 0, 0, 0, 0, 0⟩

/-- KEEP_COPY_SUBMIT: a job for an open claim on the ring's engine, while fewer than 32 of its slots hold keep-copies
and one is free. Where the engine is out of service, or its cluster is given back, the copy ends as on a fault (R351,
R382). Left open by the spec: log entry 29 (DESIGN CHOICE). -/
def State.stepKeepCopySubmit (s : State) (n id slot : Nat) : Option State :=
  match s.liveUnit? n, s.claim? n id with
  | some u, some (_, c) =>
    let e := s.keepEngine n
    let keeps := s.jobs.countP fun j => j.engine == e && j.keep.isSome && j.state.alive
    if c.busy || !s.keepable n c c.next then none
    else if s.cpState e ≠ 0 ∨ s.clusterState e ≠ 1 then s.orAsk (some (s.truncateClaim n id 0))
    else if !(s.freeSlots e).contains slot || decide (32 ≤ keeps) then none
    else
      let ring : Layout := ⟨num n, 2, s.rgType n, 1, 0, [], []⟩
      let w := s.ringWho n
      let j : Job := ⟨e, slot, mapGet 0 e s.seqs, u.owner, 0, [], w.part, w.asid, .supervisor,
        emptyBlock c.next (s.keepBudget n c), ring, ring, 0, .queued, [], 0, 0, [], none, false, none, false, some (n, id), none⟩
      some ((s.addJob j).onClaim n id fun c => { c with busy := true })
  | _, _ => none

def execKeepCopySubmit (ring claim slot : Nat) (s : State) : Res := taken (s.stepKeepCopySubmit ring claim slot)

/-- KEEP_COPY_FAULT: the keep area faults in the package under a keep-copy, which ends. -/
def State.stepKeepCopyFault (s : State) (engine slot : Nat) : Option State :=
  (s.jobAt? engine slot).bind fun j => j.keep.bind fun k =>
    if !j.goesOn || !s.runsNow j || s.keepOver j k.1 k.2 then none
    else
      match s.keepOne j k.1 k.2 [] with
      | .error (.fault t _ a) => t.keepFault j k.1 k.2 a
      | .error (.wait _ _ _) | .error .stay | .ok _ => none

def execKeepCopyFault (engine slot : Nat) (s : State) : Res := taken (s.stepKeepCopyFault engine slot)

end Sys2Proof.Machine
end

