-- ==== Sys2Proof/Machine/Issue.lean ====
section
/-!
DEFINITION. Issue.lean: when a strand may issue (R29, R35, R51), the fetch of its instruction (R113), and the inputs
that are no instruction and no step of the machine.
-/

namespace Sys2Proof.Machine

/-! ### Readiness -/

/-- Whether the strand's place lets it issue: its crew is on its core and its partition is not being torn down; or
it is Insole's. A cluster's crews are gone before its clock stops (R382).
Left open by the spec: log entry 41 (DESIGN CHOICE). -/
def State.onCore (s : State) (t : Strand) : Bool :=
  t.isInsole ||
    (match s.crew? t.key.crew with
     | some c => (match c.place with
       | .placed => true
       | .evicting | .freezing | .saved _ | .frozen _ | .gone | .retired => false) && !(s.dispatcher c.part).tearing
     | none => false)

/-- Whether a strand stands at an instruction boundary with an event to take (R340). -/
def Strand.hasEvent (t : Strand) : Bool := !t.events.isEmpty && !t.inHandler

/-- Whether a strand is ready: it is live, in no wait, and no trap is to be taken first.
Left open by the spec: log entry 2 (DESIGN CHOICE), log entry 41 (DESIGN CHOICE). -/
def State.mayIssue (s : State) (t : Strand) : Bool :=
  t.live && t.wait.isNone && t.deferred.isEmpty && !t.hasEvent && s.onCore t

/-- How many places a strand's slot comes after the one that issued last on its core. -/
def State.turnOf (s : State) (t : Strand) : Nat :=
  let slot := ((s.crew? t.key.crew).map fun c => c.slots.getD t.key.idx 0).getD 0
  (slot + 15 - mapGet 15 t.core s.turns) % 16

/-- Whether the executing strand may issue: it is ready, and round-robin among its core's ready strands it is the next
(R29). Left open by the spec: log entry 2 (DESIGN CHOICE), log entry 41 (DESIGN CHOICE). -/
def State.issuable (s : State) : Bool :=
  s.mayIssue s.me && s.others.all fun t => t.core != s.me.core || !s.mayIssue t || decide (s.turnOf s.me ≤ s.turnOf t)

/-! ### The fetch (R113) -/

/-- What a fetch comes to: its bytes and the state with the line filled, or a trap or wait. -/
inductive Fetched where
  | bytes (bs : List Byte) (s : State)
  | stop (s : State) (e : Eff)

/-- The fill of an absent line for a fetch (R52): none where its home is lost or refuses it, of which the strand learns
(R366, R367, R369). Whether another package answers, refuses or does not answer is free. -/
def State.fetchFill (s : State) (acc : Access) (o : CopySet) : State × Bool :=
  let lost (s : State) (reason : Nat) : State × Bool :=
    (s.raiseTo s.me.key Cause.access acc.va (num (reason * 2 ^ 12 + 2 ^ 10)), false)
  let gone (s : State) (v : Via) : State × Bool := ((s.countWindow v false).raiseRemote [s.me.key] acc.place, false)
  let l := acc.place.line
  match acc.place with
  | .dev a =>
    if s.cxlLost a then lost s 8
    else ((s.noteCxl acc.place (acc.asid.getD 0) acc.pin).fill o l ([], []), true)
  | .host _ | .tile _ => (s.fill o l ([], []), true)
  | .remote v _ =>
    if !s.routed v.node then gone s v
    else
      let t := s.dispatch v { s.header v l.addr s.me.secure with kind := Packet.read, len := 64 }
      match t.freshWord.1.toNat % 3 with
      | 0 => (t.freshWord.2.freeLine.2.fill o l t.freshWord.2.freeLine.1, true)
      | 1 => lost (t.freshWord.2.countWindow v true) 6
      | _ => gone t.freshWord.2 v

/-- Eight bytes through the core's read-only copy, filled where it is absent; scratchpad bytes at the tile. -/
def State.fetchAt (s : State) (acc : Access) : (List Byte × Bool) × State :=
  let p := acc.place
  let o := CopySet.core s.me.core
  match p with
  | .tile a =>
    (s.readHome p 8 .none, if s.scratchUp (a / 2 ^ 24) then s else s.raiseRemote [s.me.key] p)
  | .dev _ | .host _ | .remote _ _ =>
    let t := match s.copy? o p.line with
      | some _ => s
      | none => (s.fetchFill acc o).1
    match t.copy? o p.line with
    | some c => (c.read p 8, t)
    | none => ((List.replicate 8 0, true), t)

/-- The word at an address, or the fault of its fetch. -/
def State.fetchWord (s : State) (a : Word) : Fetched :=
  match s.checkPlace .fetch a 0 .fetch with
  | .stop e => .stop s e
  | .pass acc =>
    let r := s.fetchAt acc
    if r.1.2 then .stop r.2 (.trap Cause.poison a (num (2 ^ 10))) else .bytes r.1.1 r.2

/-- The instruction at PC: MOVL's literal is read in the same step. Left open by the spec: log entry 13 (DEDUCED). -/
def State.fetch (s : State) : Fetched :=
  match s.fetchWord s.me.pc with
  | .stop t e => .stop t e
  | .bytes bs t =>
    if isLong (wordOfBytes bs) then
      match t.fetchWord (t.me.pc + 8) with
      | .stop u e => .stop u e
      | .bytes bs' u => .bytes (bs ++ bs') u
    else .bytes bs t

/-- The strand has had its turn (R29). Left open by the spec: log entry 2 (DESIGN CHOICE). -/
def State.turned (s : State) : State :=
  { s with turns := mapSet 15 s.me.core ((s.turnOf s.me + mapGet 15 s.me.core s.turns + 1) % 16) s.turns }

/-- What a fetch that stops leaves: its fault is taken before decode and does not count in ISSUED; its wait
begins. -/
def State.fetchStop (s : State) (e : Eff) : State := s.turned.settle 0 e

/-- At least one cycle of the core passes at an issue, which is the strand's turn (R18, R29).
Left open by the spec: log entry 7 (DESIGN CHOICE), log entry 42 (DESIGN CHOICE). -/
def State.tick (s : State) : State :=
  { s.turned with cycles := mapSet 0 s.me.core (s.coreCycles s.me.core + 1) s.cycles }

/-- A word that is no instruction: it counts, and traps (R105, R131). -/
def State.illegal (s : State) (info : Word) : State := s.tick.countIssue.takeTrap Cause.illegal 0 info

/-! ### Inputs that are no instruction -/

/-- The host writes its own memory (R71); data that the far side marks poisoned stays so (R390). -/
def State.hostWrites (s : State) (a : Nat) (bs : List Byte) (poison : Bool) : State :=
  { s with host := s.host.store a bs poison }

/-- The driver enables PRI of a function again (R334). -/
def State.priEnabled (s : State) (fn : Nat) : State := { s with priStopped := s.priStopped.filter fun f => f != fn }

/-- Page request groups that the host grants a function (R334). -/
def State.priGranted (s : State) (fn n : Nat) : State := { s with priLimits := mapSet 0 fn n s.priLimits }

/-- The driver sets the own addresses of a Clicker port (R248); the registers that hold them are not stated, and no
rule drops a frame by them. Left open by the spec: log entry 26 (DESIGN CHOICE). -/
def State.setPortAddress (s : State) (k mac ip4 ip6 : Nat) : State :=
  if k < 8 then { s with ports := mapSet ⟨0, 0, 0⟩ k ⟨mac % 2 ^ 48, ip4 % 2 ^ 32, ip6 % 2 ^ 128⟩ s.ports } else s

/-- Insole sets the world of a host function (R356); the register that holds it is not stated.
Left open by the spec: log entry 26 (DESIGN CHOICE). -/
def State.fnWorlds (s : State) (fn : Nat) (secure : Bool) : State :=
  { s with fnSecure := if secure then natsInsert fn s.fnSecure else s.fnSecure.filter fun f => f != fn }

end Sys2Proof.Machine
end

