-- ==== Sys2Proof/Machine/Matrix.lean ====
section
/-!
DEFINITION. Matrix.lean: MMA, MMAS and the accumulator operations (R196 to R203).
-/

namespace Sys2Proof.Machine

/-! ### Accumulators and tiles -/

/-- A zero accumulator tile with poison clear (R14). -/
def ZTile.zero : ZTile := ⟨Vector.replicate 1024 0, 0⟩

/-- An accumulator tile of the executing strand's crew. -/
def State.zr (s : State) (z : Nat) : ZTile :=
  match s.crew? s.me.key.crew with
  | some c => c.z.toList.getD z .zero
  | none => .zero

def State.setZ (s : State) (z : Nat) (v : ZTile) : State :=
  s.onCrew s.me.key.crew fun c => { c with z := Vector.ofFn fun i : Fin 8 => if i.val = z then v else c.z[i] }

def ZTile.elem (t : ZTile) (m n : Nat) : Lane := t.e[(32 * m + n) % 1024]'(Nat.mod_lt _ (by decide))
def ZTile.pois (t : ZTile) (m n : Nat) : Bool := t.p.getLsbD (32 * m + n)

/-- An accumulator tile from its elements and their poison. -/
def ZTile.build (f : Nat → Nat → Lane) (p : Nat → Nat → Bool) : ZTile :=
  ⟨Vector.ofFn fun i : Fin 1024 => f (i.val / 32) (i.val % 32),
   (List.range 1024).foldr (fun i w => if p (i / 32) (i % 32) then w ||| (1#1024 <<< i) else w) 0⟩

/-- A row of a tile: 128 bytes as a number, and whether any of its words is poisoned. -/
structure TileRow where
  bits : Nat
  poison : List Bool
  deriving DecidableEq, Repr

/-- The 32 rows of an absolute tile of the strand's core. -/
def State.tileRows (s : State) (tile : Nat) : List TileRow :=
  (List.range 32).map fun m =>
    let a := tileAddr s.me.core tile (128 * m)
    ⟨natOfBytes (s.readTile a 128).1, (List.range 32).map fun w => (s.readTile (a + 4 * w) 4).2⟩

/-- Element k of a row, of width w (R80). -/
def TileRow.elem (r : TileRow) (w k : Nat) : Nat := r.bits / 2 ^ (w * k) % 2 ^ w

def rowAt (rs : List TileRow) (m : Nat) : TileRow := rs.getD m ⟨0, []⟩

/-! ### The checks and waits of R197 and R198 -/

/-- A tile named by a matrix instruction: an immediate, or a register. -/
inductive MatTile where
  | imm (n : BitVec 8)
  | reg (x : XReg)

def MatTile.regs : MatTile → List XReg
  | .imm _ => []
  | .reg x => [x]

def State.matNumber (s : State) : MatTile → Word
  | .imm n => n.setWidth 64
  | .reg x => s.xr x

/-- The checks of R198 in order: poison of the registers, tile numbers, accumulator numbers. -/
def State.matChecks (s : State) (pois : List XReg) (tiles : List Word) (acc : Nat) (then_ : Eff) : Eff :=
  if pois.any s.xPois then .trap Cause.poison 0 0
  else
    match tiles.find? fun n => decide (255 < n.toNat ∨ s.me.ids.tileCount.toNat ≤ n.toNat) with
    | some n => .trap Cause.space n 0
    | none => if s.me.ids.accCount.toNat ≤ acc then .trap Cause.space (num acc) 0 else then_

/-- Whether the matrix unit has room, and no accumulator of the list is pending (R197). -/
def State.matrixReady (s : State) (accs : List Nat) : Bool :=
  decide ((s.matrix.countP fun e => e.1 == s.me.core) < 8) &&
    !(s.matrix.any fun e => e.2.1 == s.me.key.crew && accs.contains e.2.2)

/-- A number that stands for no accumulator, for instructions that write none. -/
def noAcc : Nat := 8

/-- The waits of R197, and the issue: the instruction takes its place in the unit with the accumulator it writes. -/
def State.matIssue (s : State) (tiles : List Nat) (acc writes : Nat) (then_ : State → Eff) : Eff :=
  if !s.matrixReady [acc] then .wait (.matrix [acc])
  else
    afterItems (tiles.flatMap fun t =>
        s.ownScratch false (tileAddr s.me.core (s.me.ids.tileBase.toNat + t) 0) 4096)
      (then_ { s with matrix := s.matrix ++ [(s.me.core, s.me.key.crew, writes)] })

/-! ### MMA and MMAS (R199, R200) -/

/-- Format, width and signedness of a tile element type (R80, R128). -/
inductive MatKind where
  | float (f : Fmt) (group : Nat)
  | int (signed : Bool)

def matKind : MatType → MatKind
  | .bf16 => .float .bf16 4
  | .f16 => .float .f16 4
  | .e4m3 => .float .e4m3 8
  | .e5m2 => .float .e5m2 8
  | .e2m1 => .float .e2m1 16
  | .i8 => .int true
  | .n8 => .int false

def matWidth : MatType → Nat
  | .bf16 | .f16 => 16
  | .e4m3 | .e5m2 | .i8 | .n8 => 8
  | .e2m1 => 4

/-- The K elements of a row (R80). -/
def TileRow.elems (r : TileRow) (t : MatType) : List Nat := (List.range (1024 / matWidth t)).map (r.elem (matWidth t))

/-- Element (m, n) of MMA from its rows (R98, R99). -/
def mmaValue (ta tb : MatType) (old : Nat) (as bs : List Nat) : Nat :=
  match matKind ta, matKind tb with
  | .float fa g, .float fb _ => mmaElem fa fb g old as bs
  | .int sa, .int sb => mmaIntElem sa sb old as bs
  | .float _ _, .int _ | .int _, .float _ _ => old

/-- MMA: zD := zD + tA × tB transposed (R199). -/
def mmaOp (g : Guard) (d : ZReg) (ta tb : MatType) (a b : MatTile) (s : State) : Res :=
  frame g (a.regs ++ b.regs) [] (fun s =>
    s.matChecks (a.regs ++ b.regs) [s.matNumber a, s.matNumber b] d.toNat <|
      s.matIssue [(s.matNumber a).toNat, (s.matNumber b).toNat] d.toNat d.toNat fun s =>
        let ra := s.tileRows (s.me.ids.tileBase.toNat + (s.matNumber a).toNat)
        let rb := s.tileRows (s.me.ids.tileBase.toNat + (s.matNumber b).toNat)
        let ea := ra.map fun r => r.elems ta
        let eb := rb.map fun r => r.elems tb
        let z := s.zr d.toNat
        .ok (s.setZ d.toNat (.build
          (fun m n => BitVec.ofNat 32 (mmaValue ta tb (z.elem m n).toNat (ea.getD m []) (eb.getD n [])))
          (fun m n => z.pois m n || (rowAt ra m).poison.any id || (rowAt rb n).poison.any id)))) s

def execMma (g : Guard) (o : MmaOp) (s : State) : Res := mmaOp g o.d o.ta o.tb (.imm o.a) (.imm o.b) s
def execMmaReg (g : Guard) (o : MmaROp) (s : State) : Res := mmaOp g o.d o.ta o.tb (.reg o.a) (.reg o.b) s

/-- Format of a scaled type; the other types never reach MMAS (R128). -/
def scaledFmt : MatType → Fmt
  | .e5m2 => .e5m2
  | .e2m1 => .e2m1
  | .bf16 | .f16 | .e4m3 | .i8 | .n8 => .e4m3

/-- Byte i of the scale tile, and the poison of its word. -/
def scaleByte (rs : List TileRow) (i : Nat) : Nat := (rowAt rs (i / 128)).elem 8 (i % 128)
def scalePois (rs : List TileRow) (i : Nat) : Bool := (rowAt rs (i / 128)).poison.getD (i % 128 / 4) false

/-- MMAS: as MMA, with a scale on every 32-element block of K (R200, R102). -/
def mmasOp (g : Guard) (d : ZReg) (ta tb : MatType) (st : ScaleType) (a b : MatTile) (c : XReg) (s : State) : Res :=
  frame g (a.regs ++ b.regs ++ [c]) [] (fun s =>
    s.matChecks (a.regs ++ b.regs ++ [c]) [s.matNumber a, s.matNumber b, s.xr c] d.toNat <|
      s.matIssue [(s.matNumber a).toNat, (s.matNumber b).toNat, (s.xr c).toNat] d.toNat d.toNat fun s =>
        let base := s.me.ids.tileBase.toNat
        let ra := s.tileRows (base + (s.matNumber a).toNat)
        let rb := s.tileRows (base + (s.matNumber b).toNat)
        let rc := s.tileRows (base + (s.xr c).toNat)
        let nb := 1024 / matWidth ta / 32
        let ea := ra.map fun r => runsOf 32 nb (r.elems ta)
        let eb := rb.map fun r => runsOf 32 nb (r.elems tb)
        let z := s.zr d.toNat
        let blocks (m n : Nat) := (List.range nb).map fun i =>
          (scaleByte rc (8 * m + i), scaleByte rc (256 + 8 * n + i),
            (ea.getD m []).getD i [], (eb.getD n []).getD i [])
        .ok (s.setZ d.toNat (.build
          (fun m n => BitVec.ofNat 32 (mmasElem st (scaledFmt ta) (scaledFmt tb) (z.elem m n).toNat (blocks m n)))
          (fun m n => z.pois m n || (rowAt ra m).poison.any id || (rowAt rb n).poison.any id ||
            (List.range nb).any fun i => scalePois rc (8 * m + i) || scalePois rc (256 + 8 * n + i))))) s

def execMmas (g : Guard) (o : MmasOp) (s : State) : Res := mmasOp g o.d o.ta o.tb o.st (.imm o.a) (.imm o.b) o.c s
def execMmasReg (g : Guard) (o : MmasROp) (s : State) : Res := mmasOp g o.d o.ta o.tb o.st (.reg o.a) (.reg o.b) o.c s

/-! ### Accumulator operations (R201 to R203) -/

def execZzero (g : Guard) (o : Z1) (s : State) : Res :=
  frame g [] [] (fun s =>
    s.matChecks [] [] o.d.toNat <| s.matIssue [] o.d.toNat o.d.toNat fun s => .ok (s.setZ o.d.toNat .zero)) s

/-- ZLD: the tile's 1,024 words with their poison. -/
def execZld (g : Guard) (o : ZldOp) (s : State) : Res :=
  frame g [o.a] [] (fun s =>
    s.matChecks [o.a] [s.xr o.a] o.d.toNat <| s.matIssue [(s.xr o.a).toNat] o.d.toNat o.d.toNat fun s =>
      let rs := s.tileRows (s.me.ids.tileBase.toNat + (s.xr o.a).toNat)
      .ok (s.setZ o.d.toNat (.build (fun m n => BitVec.ofNat 32 ((rowAt rs m).elem 32 n))
        (fun m n => (rowAt rs m).poison.getD n false)))) s

/-- Results of 32 elements of row m packed into the bytes of one column slot (R80). -/
def packRow (w : Nat) (codes : List Nat) : List Byte :=
  bytesOf (4 * w) (codes.zipIdx.foldl (fun acc c => acc + c.1 % 2 ^ w * 2 ^ (w * c.2)) 0)

/-- Poison of the words of one column slot: each word takes that of its elements (R202). -/
def rowPoison (w : Nat) (ps : List Bool) : List Bool :=
  (List.range w).map fun i => ((ps.drop (i * (32 / w))).take (32 / w)).any id

/-- The rows of a column slot written, each word with its poison. -/
def State.writeSlot (s : State) (tile w col : Nat) (codes : Nat → List Nat) (pois : Nat → List Bool) : State :=
  (List.range 32).foldl (fun s m =>
    let bs := packRow w (codes m)
    let ps := rowPoison w (pois m)
    (List.range w).foldl (fun s i =>
      s.writeTile (tileAddr s.me.core tile (128 * m + col * 4 * w + 4 * i)) ((bs.drop (4 * i)).take 4) (ps.getD i false)) s) s

/-- ZST and ZSTS: 32 rows of converted elements into one column slot. -/
def State.storeAcc (s : State) (z : ZReg) (tile col : Nat) (dt : ElemType) (conv : Nat → Nat) (extra : Bool) : State :=
  let acc := s.zr z.toNat
  s.writeSlot (s.me.ids.tileBase.toNat + tile) dt.width col
    (fun m => (List.range 32).map fun n => conv (acc.elem m n).toNat)
    (fun m => (List.range 32).map fun n => acc.pois m n || extra)

def execZst (g : Guard) (o : ZstOp) (s : State) : Res :=
  frame g [o.a] [] (fun s =>
    s.matChecks [o.a] [s.xr o.a] o.z.toNat <| s.matIssue [(s.xr o.a).toNat] o.z.toNat noAcc fun s =>
      let mode := s.mode o.rnd
      .ok (s.storeAcc o.z (s.xr o.a).toNat o.col.toNat o.dt
        (fun c => (convertElem o.dt o.st mode o.sat c).code) false)) s

/-- ZSTS: the quantising store, the scale to the tile's tag, the count of saturations to xD (R203). -/
def execZsts (g : Guard) (o : ZstsOp) (s : State) : Res :=
  frame g [o.d, o.a, o.b] [] (fun s =>
    s.matChecks [o.a] [s.xr o.a] o.z.toNat <| s.matIssue [(s.xr o.a).toNat] o.z.toNat noAcc fun s =>
      let mode := s.mode o.rnd
      let scale := (s.xr o.b).toNat % 2 ^ 20
      let conv := fun c => quantise o.dt .f32 mode o.sat scale c
      let acc := s.zr o.z.toNat
      let count := (List.range 1024).countP fun i => (conv (acc.elem (i / 32) (i % 32)).toNat).sat
      let tile := s.me.ids.tileBase.toNat + (s.xr o.a).toNat
      let s := s.storeAcc o.z (s.xr o.a).toNat o.col.toNat o.dt (fun c => (conv c).code) (s.xPois o.b)
      let s := s.setTag s.me.core tile { s.tag s.me.core tile with scale := BitVec.ofNat 20 scale }
      .ok (s.setX o.d (num count) false)) s

/-- ZBIAS: lane n of vB added to every element of column n (R201). -/
def execZbias (g : Guard) (o : ZbiasOp) (s : State) : Res :=
  frame g [] [o.b] (fun s =>
    s.matChecks [] [] o.d.toNat <| s.matIssue [] o.d.toNat o.d.toNat fun s =>
      let z := s.zr o.d.toNat
      let v := s.vr o.b
      let p := s.vPois o.b
      let mode := s.mode o.rnd
      .ok (s.setZ o.d.toNat (.build
        (fun m n =>
          match o.t with
          | .f32 => BitVec.ofNat 32 (fAdd .f32 mode (z.elem m n).toNat (laneAt v n).toNat).code
          | .i32 | .n32 => z.elem m n + laneAt v n)
        (fun m n => z.pois m n || p.getLsbD n)))) s

end Sys2Proof.Machine
end

