-- ==== Sys2Proof/Machine/Queue.lean ====
section
/-!
DEFINITION. Queue.lean: the perform, gate, uplink, fabric, fill, drop and deliver steps (R52 to R73).
-/

namespace Sys2Proof.Machine

/-! ### Performing items -/

/-- The item at a head brought to the voter; the head stays until the vote is decided. -/
def State.castHead (s : State) (t : Strand) (h : HReg) (e : Entry) (b : Body) (r : Reply) : Option State :=
  (s.arrivalOf t e.n 0 (.item b)).bind fun x => s.orAsk ((s.markSent t.key h e).arrive t.part x.1 x.2 r)

/-- STORE_PERFORM (R56): one of several lanes at tiles, or the last of them with the rest of the store (R68). A VSCADD
with every lane masked is such an item too, and acquires as its order says (R59, R204). -/
def State.stepStorePerform (s : State) (k : StrandKey) (h : HReg) : Option State :=
  match s.freshHead k h with
  | some (t, e) =>
    match e.body with
    | .store i =>
      let left := tileLeft i (s.isVoted t)
      if !s.releaseOk k h i.order i.scope then none
      else if 2 ≤ left.length then some (s.storeLane t h e i left)
      else
        some (((s.storeNow t h e.n i fun line => s.voteTag? t e.n line).acquireIf t i.order i.scope).leaveHead k h e i.scope)
    | _ => none
  | none => none

def execStorePerform (k : StrandKey) (h : HReg) (s : State) : Res := taken (s.stepStorePerform k h)

/-- Whether a home has room for one more vote-buffer entry (R394). -/
def State.voteRoom (s : State) (p : Place) : Bool :=
  match p with
  | .dev a => !s.voteBufferFull a
  | .host _ | .tile _ | .remote _ _ => true

/-- A voted load's access (R43, R72): the first copy reads the home, the others take the value it left. A copy whose
entry has been discarded binds a free value. Left open by the spec: log entry 22 (DESIGN CHOICE). -/
def State.loadVoted (s : State) (t : Strand) (c : Crew) (tag : VoteTag) (l : LoadItem) (a : Access) (r : Reply) :
    Option (State × (List Byte × Bool)) :=
  match s.voteBufs.find? fun b => b.tag == tag with
  | some b =>
    if r = .none && b.waiting.contains c.copy then
      let rest := b.waiting.filter fun n => n != c.copy
      let bufs := s.voteBufs.filter fun x => x.tag != tag
      some ({ s with voteBufs := if rest.isEmpty then bufs else { b with waiting := rest } :: bufs },
        (bytesOf l.bytes b.value.toNat, b.mask != 0))
    else none
  | none =>
    match s.votes.find? fun v => v.tag == tag with
    | some v =>
      if r = .none then
        let rest := (v.closed.getD []).filter fun n => n != c.copy
        let s := if rest.isEmpty then s.dropVote tag else s.putVote { v with closed := some rest }
        let s := s.dissent t.part (.item (.load l)) c.core
        let w := s.freshWord
        let p := w.2.freshWord
        some (p.2, (bytesOf l.bytes w.1.toNat, p.1.getLsbD 0))
      else none
    | none =>
      if (a.place.isTile || s.homeClear t.cluster a.place l.bytes) && s.voteClear t.key a.place l.bytes &&
          s.voteRoom a.place then
        (s.readAt t a l.bytes l.order l.scope none r).map fun x =>
          let others := ((x.1.copyCrews tag).map (·.copy)).filter fun n => n != c.copy
          let buf : VoteBuf := ⟨tag, a.place, wordOfBytes x.2.1, if x.2.2 then BitVec.allOnes 64 else 0, others⟩
          (if others.isEmpty then x.1 else { x.1 with voteBufs := buf :: x.1.voteBufs }, x.2)
      else none

/-- LOAD_PERFORM (R57): access `i` of the item's remaining ones is read; a load with none binds. What lies in another
package is voted and buffered at its home there (R43, R72, R394). -/
def State.stepLoadPerform (s : State) (k : StrandKey) (h : HReg) (i : Nat) (r : Reply) : Option State :=
  match s.freshHead k h with
  | some (t, e) =>
    match e.body with
    | .load l =>
      match l.todo[i]? with
      | none => if l.todo.isEmpty && r = .none then some (s.finishLoad t h l 0) else none
      | some a =>
        let cast := if a.asid.isSome then s.castOf k e.n a.lane else none
        let got := match s.crew? k.crew, (if a.place.isRemote then none else cast) with
          | some c, some x => s.loadVoted t c x.1 l a r
          | _, _ => s.loadOne t l a cast r
        got.map fun x => x.1.gotOne t h e l i a x.2
    | _ => none
  | none => none

def execLoadPerform (k : StrandKey) (h : HReg) (i : Nat) (r : Reply) (s : State) : Res :=
  taken (s.stepLoadPerform k h i r)

/-- ATOMIC_PERFORM (R58, R188): performed, or brought to the voter of its home; that of another package votes by the
vote word (R394). -/
def State.stepAtomicPerform (s : State) (k : StrandKey) (h : HReg) (r : Reply) : Option State :=
  match s.freshHead k h with
  | some (t, e) =>
    match e.body with
    | .atomic i =>
      let n := if i.w64 then 8 else 4
      if s.releaseOk k h i.order i.scope && s.homeClear t.cluster i.access.place n then
        if s.isVoted t && !i.access.place.isRemote then s.castHead t h e (.atomic i) r
        else ((s.dropLine t i.access.place).atomicAt t i (s.castOf k e.n 0) r).map fun x => x.1.atomicResult t h i x.2
      else none
    | _ => none
  | none => none

def execAtomicPerform (k : StrandKey) (h : HReg) (r : Reply) (s : State) : Res := taken (s.stepAtomicPerform k h r)

/-- HOST_ATOMICOP_ERROR (R70): the atomic completes at the host with an error.
Left open by the spec: log entry 39 (DESIGN CHOICE). -/
def State.stepHostAtomicopError (s : State) (k : StrandKey) (h : HReg) : Option State :=
  match s.freshHead k h with
  | some (t, e) =>
    match e.body with
    | .atomic i =>
      match i.access.place with
      | .host _ =>
        if s.releaseOk k h i.order i.scope && s.homeClear t.cluster i.access.place (if i.w64 then 8 else 4) then
          some (((s.dropLine t i.access.place).blame k Cause.access i.access 7).atomicResult t h i (0, true))
        else none
      | .dev _ | .tile _ | .remote _ _ => none
    | _ => none
  | none => none

def execHostAtomicopError (k : StrandKey) (h : HReg) (s : State) : Res := taken (s.stepHostAtomicopError k h)

/-- TRANSFER_PERFORM (R65, R214): the source is read, and the transfer enters the bag or goes to the voter of its
tile; that of another package votes by the vote word (R394). -/
def State.stepTransferPerform (s : State) (k : StrandKey) (h : HReg) : Option State :=
  match s.freshHead k h with
  | some (t, e) =>
    match e.body with
    | .transfer i =>
      if s.releaseOk k h i.order i.scope then
        let lanes := s.sendLanes i.src
        if s.isVoted t && i.via.isNone then
          let src : SendSrc := if lanes.isEmpty then .none else .data lanes
          s.castHead t h e (.transfer { i with src := src }) .none
        else some ((s.sendTransfer t [⟨k, h, e.n⟩] lanes i none).leaveHead k h e i.scope)
      else none
    | _ => none
  | none => none

def execTransferPerform (k : StrandKey) (h : HReg) (s : State) : Res := taken (s.stepTransferPerform k h)

/-- TAG_ITEM_PERFORM (R62, R211). -/
def State.stepTagItemPerform (s : State) (k : StrandKey) (h : HReg) : Option State :=
  match s.freshHead k h with
  | some (t, e) =>
    match e.body with
    | .tag i => some ((s.performTag t i).popHead k h)
    | _ => none
  | none => none

def execTagItemPerform (k : StrandKey) (h : HReg) (s : State) : Res := taken (s.stepTagItemPerform k h)

/-- COPY_COMMAND_PERFORM (R64): the job exists from here on. -/
def State.stepCopyCommandPerform (s : State) (k : StrandKey) (h : HReg) : Option State :=
  match s.freshHead k h with
  | some (t, e) =>
    match e.body with
    | .copy i =>
      if s.handleClear k h i.scope then
        if s.isVoted t then s.castHead t h e (.copy i) .none
        else some ((s.createJob i.engine i.slot fun (j : Job) => { j with state := .queued }).popHead k h)
      else none
    | _ => none
  | none => none

def execCopyCommandPerform (k : StrandKey) (h : HReg) (s : State) : Res := taken (s.stepCopyCommandPerform k h)

/-- Whether a ring item is a verdict, which a voted crew votes (R42). -/
def RingFn.isVerdict : RingFn → Bool
  | .fwd | .acc | .rej => true
  | .put | .mark => false

/-- What a ring item's strand gets. -/
def State.ringResult (s : State) (k : StrandKey) (h : HReg) (d : Option XReg) (w : Word) (p : Bool) : State :=
  let s := s.popHead k h
  match d with
  | some d => s.onStrand k fun t => t.setX d w p
  | none => s

/-- The samples of an RGPUT on their way to another package, in packets of at most 256 bytes with the poison of their
words. Left open by the spec: log entry 31 (DESIGN CHOICE). -/
def State.sendPut (s : State) (t : Strand) (v : Via) (i : RingItem) (off : Nat) : Nat → State
  | 0 => s
  | fuel + 1 =>
    let size := i.count * i.lo.toNat
    let n := min 256 (size - off)
    let ps := (List.range ((n + 3) / 4)).map fun w => (s.readTile (i.src + off + 4 * w) (min 4 (n - 4 * w))).2
    let s := s.dispatch v { s.header v i.ring.toNat t.secure with
      kind := Packet.control, vc := 3, op := i.fn.code, scope := i.scope.code, release := i.order.releases, len := n,
      poisoned := ps.any id, mask := maskWord ps, data := (s.readTile (i.src + off) n).1 }
    if size ≤ off + 256 then s else s.sendPut t v i (off + 256) fuel

/-- The request of ring item `n` of a strand toward another package; a voted crew's verdict carries its vote. -/
def State.askRing (s : State) (t : Strand) (n : Nat) (v : Via) (i : RingItem) : State :=
  if i.fn = .put then s.sendPut t v i 0 16
  else s.dispatch v { s.header v i.ring.toNat t.secure with
    kind := Packet.control, vc := 3, op := i.fn.code, scope := i.scope.code, release := i.order.releases,
    opLo := i.lo, opHi := i.hi } (if i.fn.isVerdict then s.castOf t.key n 0 else none)

/-- A ring item at its unit, or at another package's (R73, R235, R241). -/
def State.ringItem (s : State) (t : Strand) (h : HReg) (n : Nat) (i : RingItem) (r : Reply) : Option State :=
  let refused (s : State) : State :=
    (s.raiseTo t.key Cause.ring i.ring (num i.fn.code)).ringResult t.key h i.dest (BitVec.allOnes 64) false
  match i.at with
  | .own g =>
    if r ≠ .none then none
    else
      match s.ringReceive g t.part i with
      | .done w u => some (u.ringResult t.key h i.dest w false)
      | .refused => some (refused s)
      | .stay => none
      | .wait w => s.askRingUnit w
  | .far v =>
    let ask := s.askRing t n v i
    let voted := s.isVoted t && i.fn.isVerdict
    if !s.routed v.node then none
    else
      match r with
      | .value w p => some (ask.ringResult t.key h i.dest w p)
      | .refused =>
        some (((ask.countWindow v true).raiseTo t.key Cause.access i.ring (num (6 * 2 ^ 12))).ringResult t.key h
          i.dest 0 true)
      | .ring => some (refused ask)
      | .dissent w p => if voted then some ((ask.farDissent t.key).ringResult t.key h i.dest w p) else none
      | .voteFail =>
        if voted then
          some ((ask.freshWord.2.raiseTo t.key Cause.voteFail i.ring 6).ringResult t.key h i.dest ask.freshWord.1 true)
        else none
      | .none | .corrected | .uncorrectable | .bytes _ _ => none

/-- RING_ITEM_PERFORM (R73). -/
def State.stepRingItemPerform (s : State) (k : StrandKey) (h : HReg) (r : Reply) : Option State :=
  match s.freshHead k h with
  | some (t, e) =>
    match e.body with
    | .ring i =>
      if s.releaseOk k h i.order i.scope then
        if s.isVoted t && i.fn.isVerdict && i.via.isNone then s.castHead t h e (.ring i) r
        else s.ringItem t h e.n i r
      else none
    | _ => none
  | none => none

def execRingItemPerform (k : StrandKey) (h : HReg) (r : Reply) (s : State) : Res := taken (s.stepRingItemPerform k h r)

/-- GATE (R66, R216): a gate whose items are performed, or whose tile is FULL or POISON. -/
def State.stepGate (s : State) (k : StrandKey) (h : HReg) : Option State :=
  match s.freshHead k h with
  | some (t, e) =>
    match e.body with
    | .gate g =>
      if !s.allPerformed g.needs g.scope then none
      else
        match g.recv with
        | none => some (s.popHead k h)
        | some (tile, rel) =>
          let st := (s.tag t.core tile).state
          if st = Tag.full then some (((s.takeTile t t.core tile).acquire t.core t.cluster g.scope).popHead k h)
          else if st = Tag.poison then some ((s.raiseTo k Cause.poison 0 (num rel)).popHead k h)
          else none
    | _ => none
  | none => none

def execGate (k : StrandKey) (h : HReg) (s : State) : Res := taken (s.stepGate k h)

/-! ### Stores on their way -/

/-- A store entry at its voter. -/
def State.entryVote (s : State) (e : UpEntry) (tag : VoteTag) : Option State :=
  (s.crew? e.ref.key.crew).bind fun c => s.orAsk (s.arrive c.part tag ⟨c.copy, c.core, e.ref.key, .entry e⟩ .none)

/-- UPLINK (R52): the head entry of a cluster's uplink. -/
def State.stepUplink (s : State) (cluster : Nat) : Option State :=
  match s.uplinks.find? fun e => e.cluster == cluster with
  | none => none
  | some e =>
    let s := { s with uplinks := s.uplinks.eraseP fun e => e.cluster == cluster }
    if e.pieces.any fun p => p.access.place.isRemote then some { s with fabric := s.fabric ++ [e] }
    else
      match e.vote with
      | some tag => s.entryVote e tag
      | none => some ((s.writeEntry e).settleSent e.ref)

def execUplink (cluster : Nat) (s : State) : Res := taken (s.stepUplink cluster)

/-- The packets of a store entry, with the votes of a voted crew's (R394). -/
def State.sendEntry (s : State) (secure : Bool) (e : UpEntry) : State :=
  let cast (j : Nat) : Cast := e.vote.bind fun g => s.castOf e.ref.key e.ref.n (64 * g.part + j)
  e.pieces.zipIdx.foldl (fun (s : State) (p : Piece × Nat) =>
    match p.1.access.place with
    | .remote v a =>
      s.dispatch v { s.header v a secure with
        kind := Packet.write, len := p.1.bytes.length, scope := e.scope.code, release := e.order.releases,
        poisoned := p.1.poison, mask := wordsMask p.1.bytes.length p.1.poison, data := p.1.bytes } (cast p.2)
    | .dev _ | .host _ | .tile _ => s) s

/-- Whether no fabric entry before the one of number `i` overlaps it (R52). -/
def State.fabricClear (s : State) (i : Nat) (e : UpEntry) : Bool :=
  !((s.fabric.take i).any fun f => f.pieces.any fun q => e.pieces.any fun p =>
    q.access.place.overlap q.bytes.length p.access.place p.bytes.length)

/-- FABRIC (R52): a fabric entry that no earlier one overlaps is written at its home, or refused or voted down there
(R366, R394). -/
def State.stepFabric (s : State) (i : Nat) (r : Reply) : Option State :=
  match s.fabric[i]?, s.fabric[i]?.bind fun e => e.pieces.head? with
  | some e, some p =>
    match p.access.place with
    | .remote v _ =>
      let k := e.ref.key
      let secure := match s.strand? k with
        | some t => t.secure
        | none => false
      if !s.fabricClear i e || !s.routed v.node then none
      else
        let s := { s with fabric := s.fabric.eraseIdx i }.sendEntry secure e
        match r with
        | .none => some (s.settleSent e.ref)
        | .refused => some (((s.countWindow v true).blame k Cause.access p.access 6).settleSent e.ref)
        | .dissent _ _ => if e.vote.isSome then some ((s.farDissent k).settleSent e.ref) else none
        | .voteFail =>
          if e.vote.isSome then some ((s.raiseTo k Cause.voteFail p.access.va 1).settleSent e.ref) else none
        | .corrected | .uncorrectable | .value _ _ | .ring | .bytes _ _ => none
    | .dev _ | .host _ | .tile _ => none
  | _, _ => none

def execFabric (i : Nat) (r : Reply) (s : State) : Res := taken (s.stepFabric i r)

/-! ### Copies -/

/-- Whether a line is global memory that has a home which answers (R367, R369). -/
def State.fillable (s : State) (p : Place) : Bool :=
  p == p.line &&
    match p with
    | .dev a => (decide (a < hbmEnd) || (decide (cxlBase ≤ a ∧ a < cxlEnd) && (s.decoder? a).isSome)) && !s.cxlLost a
    | .host _ => true
    | .remote v _ => s.routed v.node
    | .tile _ => false

/-- A queued load of a core or cluster whose access satisfies a test, if there is one. -/
def State.loadOf? (s : State) (o : CopySet) (f : Access → Bool) : Option Access :=
  s.strands.findSome? fun t =>
    let mine : Bool := match o with
      | .core n => t.core == n
      | .cluster n => t.cluster == n
    if mine then
      t.entries.findSome? fun e => match e.body with
        | .load l => l.todo.find? f
        | _ => none
    else none

/-- Whether a line of another package is one that the window of a way gives now (R365), or that a queued load has been
given when it issued. -/
def State.wayGiven (s : State) (o : CopySet) (v : Via) (a : Nat) : Bool :=
  let cfg := s.bar (windowReg v.part v.win 0)
  let base := (s.bar (windowReg v.part v.win 16)).toNat
  (decide (v.part < 16 ∧ v.win < 64) && cfg.getLsbD 63 && s.via v.part v.win == v && fieldOf cfg 5 0 != 0 &&
    decide (base ≤ a ∧ a + 64 ≤ base + 2 ^ fieldOf cfg 5 0)) ||
  (s.loadOf? o fun x => x.place.line == .remote v a).isSome

/-- FILL (R52): another package's line comes by a packet on a way that is given (R365); an access at a CXL home agent
counts, for the address space of the load it serves (R370, R371). -/
def State.stepFill (s : State) (o : CopySet) (p : Place) : Option State :=
  if !s.fillable p || (s.copy? o p).isSome then none
  else
    match p with
    | .remote v a =>
      if !s.wayGiven o v a then none
      else
        let s := s.dispatch v { s.header v a ((s.bar (windowReg v.part v.win 0)).getLsbD 61) with
          kind := Packet.read, len := 64 }
        some (s.freeLine.2.fill o p s.freeLine.1)
    | .dev _ | .host _ | .tile _ =>
      let by_ := s.loadOf? o fun x => x.place.line.bare == p.bare
      some ((s.noteCxl p ((by_.bind (·.asid)).getD 0) ((by_.map (·.pin)).getD false)).fill o p ([], []))

def execFill (o : CopySet) (p : Place) (s : State) : Res := taken (s.stepFill o p)

/-- DROP (R52). -/
def State.stepDrop (s : State) (o : CopySet) (p : Place) : Option State :=
  if (s.copy? o p).isSome then some (s.dropCopy o p) else none

def execDrop (o : CopySet) (p : Place) (s : State) : Res := taken (s.stepDrop o p)

/-! ### Transfers (R65) -/

/-- An event to the sender of a transfer, or to its partition. -/
def State.tellSender (s : State) (e : BagEntry) (cause : Nat) (info : Word) : State :=
  match e.sender with
  | some k => if (s.crew? k.crew).isSome || k.crew == 0 then s.raiseTo k cause e.dst info
    else s.faultRecord e.source cause info e.dst
  | none => if e.ring.isSome then s else s.faultRecord e.source cause info e.dst

/-- A head delivery that was refused counts as not sent, with what was skipped before it, and its tile is vacant again
(R260, R261). -/
def State.deliveryRefused (s : State) (ring : Option RingMark) : Except RingWait State :=
  match ring with
  | none => .ok s
  | some m =>
    match s.unit? m.ring with
    | none => .ok s
    | some u =>
      let u := { u with
        vacA := u.vacA || !m.isB
        vacB := u.vacB || m.isB
        skipped := u.skipped + m.skipped + s.rgBlock m.ring }
      let s := s.setUnit m.ring u
      s.faultless m.ring (s.ringCount m.ring (levelCounter 0 RingBlock.deadSamples) (s.rgBlock m.ring))

/-- How a settled transfer is reported. -/
def State.settled (s : State) (e : BagEntry) (l : Landing) : Except RingWait State :=
  let told (cause : Nat) (info : Word) : State := s.tellSender e cause info
  match l with
  | .here | .landed => .ok s
  | .overrun => (told Cause.tileOverrun 0).deliveryRefused e.ring
  | .denied => ((told Cause.access (num (6 * 2 ^ 12))).countVia e.via true).deliveryRefused e.ring
  | .gone => (told Cause.remote 0).deliveryRefused e.ring
  | .released =>
    (if e.ring.isSome then s else s.faultRecord e.source Cause.remote 0 e.dst).deliveryRefused e.ring
  | .voteFail => .ok (told Cause.voteFail 3)
  | .dissent => .ok (match e.sender with
    | some k => s.farDissent k
    | none => s)

/-- The vote of the packet of a transfer that starts at `off` in it, if its crew is voted. -/
def State.transferCast (s : State) (e : BagEntry) (off : Nat) : Cast := e.refs.head?.bind fun r => s.castOf r.key r.n off

/-- The number that tells the packets of a transfer from those of others, the same for the copies of a voted crew.
Left open by the spec: log entry 31 (DESIGN CHOICE). -/
def State.transferNumber (s : State) (v : Via) (e : BagEntry) : Nat :=
  match s.transferCast e 0 with
  | some c => 2 * (s.farVote v.node c.1).number + 1
  | none => 2 * e.id

/-- A transfer on its way to another package, in packets of at most 256 bytes that name its number, their place in it
and its length. Left open by the spec: log entry 31 (DESIGN CHOICE). -/
def State.sendFlits (s : State) (v : Via) (e : BagEntry) (number off : Nat) : Nat → State
  | 0 => s
  | fuel + 1 =>
    let data := (e.bytes.drop off).take 256
    let ps := (e.poison.drop (off / 4)).take 64
    let s := s.dispatch v { s.header v (e.dst.toNat + off) e.secure with
      kind := if e.bytes.isEmpty then Packet.token else Packet.transfer, vc := 2, len := data.length,
      op := if e.ring.isSome then deliveryOp else 0, scope := e.scope.code, release := e.order.releases,
      poisoned := ps.any id, mask := maskWord ps, opLo := num off, opHi := num (e.bytes.length + 2 ^ 16 * number),
      data := data } (s.transferCast e off)
    if e.bytes.length ≤ off + 256 then s else s.sendFlits v e number (off + 256) fuel

/-- All the packets of a transfer. -/
def State.sendFar (s : State) (v : Via) (e : BagEntry) : State := s.sendFlits v e (s.transferNumber v e) 0 16

/-- Whether a transfer toward another package can be settled so: one without a way is lost, and only a voted one is
voted. -/
def State.farLanding (s : State) (e : BagEntry) (l : Landing) : Bool :=
  match e.via with
  | none => l == .gone
  | some v => s.routed v.node && l != .here &&
      (!(l == .voteFail || l == .dissent) || ((e.sender.bind fun k => s.crew? k.crew).map (·.voted)).getD false)

/-- DELIVER (R65): none where its answer does not fit its tile. -/
def State.stepDeliver (s : State) (id : Nat) (l : Landing) : Option State :=
  match s.bag.find? fun e => e.id == id with
  | none => none
  | some e =>
    let out := { s with bag := s.bag.filter fun f => f.id != id }
    let finish (r : Except RingWait State) : Option State := s.orAsk (some (r.map fun t => e.refs.foldl State.settleSent t))
    if s.isOwnNode (gtNode e.dst) then
      if l = .here then
        let r := out.land e.dst e.bytes e.poison e.ring.isSome
        finish (r.1.settled e r.2)
      else none
    else if !s.farLanding e l then none
    else
      finish ((match e.via with
        | some v => out.sendFar v e
        | none => out).settled e l)

def execDeliver (id : Nat) (l : Landing) (s : State) : Res := taken (s.stepDeliver id l)

/-! ### The matrix unit (R197) -/

/-- MATRIX_INSTRUCTION_COMPLETE: the oldest instruction in the unit of a core. -/
def State.stepMatrixInstructionComplete (s : State) (core : Nat) : Option State :=
  if s.matrix.any fun e => e.1 == core then some { s with matrix := s.matrix.eraseP fun e => e.1 == core } else none

def execMatrixInstructionComplete (core : Nat) (s : State) : Res := taken (s.stepMatrixInstructionComplete core)

end Sys2Proof.Machine
end

