-- ==== Sys2Proof/Machine/Wait.lean ====
section
/-!
DEFINITION. Wait.lean: how waits end (R29, R30, R60, R224), events and deferred traps at a boundary (R185, R340),
fetch faults (R113), walks (R330), and the votes and vote buffers whose windows close (R43, R395).
-/

namespace Sys2Proof.Machine

/-! ### Choosing the strand -/

/-- The strand with a key made the executing one, if it is live and on its core. -/
def State.ready? (s : State) (k : StrandKey) : Option State :=
  let t := s.select k
  if t.me.key == k && t.me.live && t.onCore t.me then some t else none

/-- Whether the partition's supervisor has event records it has not consumed (R160, R316).
Left open by the spec: log entry 25 (DESIGN CHOICE). -/
def State.recordsWait (s : State) (p : Nat) : Bool :=
  fieldOf (s.part p 0x020) 31 0 != fieldOf (s.part p 0x020) 63 32

/-! ### The end of a wait for another package's ring (R235) -/

/-- Free words of the registers of a far ring instruction, or zero with poison where it is refused; RGREAD and TRGNEXT
acquire (R238, R239). -/
def State.farRing (s : State) (fn : Nat) (d : XReg) (d2 : Option XReg) (dst : Option (Nat × Nat × Nat)) (w : Word) (p : Bool)
    (scope : Scope) : State :=
  let s := match dst with
    | some (a, count, size) =>
      if p then s.writeSamples a (List.replicate count (List.replicate size 0, true))
      else
        let rs := s.freeSamples size count
        rs.2.writeSamples a rs.1
    | none => s
  let s := s.setX d w p
  let s := match d2 with
    | some e => s.freshWord.2.setX e (if p then 0 else s.freshWord.1) p
    | none => s
  if fn = 2 then s else s.acquireMe scope

/-! ### WAIT_END -/

/-- Whether an address space has a table to walk for an address (R325). -/
def State.walkable (s : State) (k : WalkKey) : Bool :=
  let ent := s.bar (asent k.asid)
  decide (k.asid < 1024) && ent.getLsbD 63 && !ent.getLsbD 62 && fieldOf k.va 63 55 == 0

/-- What ends the wait of the executing strand: none while its condition does not hold. The first group ends in a
new issue; the second completes the instruction. -/
def State.waitEnd (s : State) (w : Wait) (r : Reply) : Option State :=
  let again (b : Bool) : Option State := if b && r == .none then some (s.onMe fun t => { t with wait := none }) else none
  let complete (b : Bool) (t : State) : Option State := if b && r == .none then some (t.advance 8) else none
  match w with
  | .regs xs vs => again (!s.me.pending xs vs)
  | .queue h room => again (decide ((s.me.queue h).length + room ≤ queueCap))
  | .items refs scope => again (s.allPerformed refs scope)
  | .engineSlots => again (!(s.freeSlots s.me.cluster).isEmpty)
  | .walk k _ => again ((s.cached? k).isSome || !s.walkable k || !s.asidOwned k.asid s.me.part)
  | .hostPage k _ => again (!s.pageAsked k)
  | .ats k _ => again (!s.atsAsked k)
  | .voteBuffer a => again (!s.voteBufferFull a)
  | .vote _ => none
  | .record v _ va d h scope =>
    let got (s : State) (bs : List Byte) (p : Bool) : Option State :=
      if s.routed v.node then some (s.settle 8 (s.spawnGot bs p va d h scope)) else none
    match r with
    | .bytes bs p => got s bs p
    | .refused => got ((s.countWindow v true).raiseTo s.me.key Cause.access va (num (6 * 2 ^ 12))) [] true
    | .none | .corrected | .uncorrectable | .value _ _ | .ring | .voteFail | .dissent _ _ => none
  | .matrix accs => again (s.matrixReady accs)
  | .ringPage _ k ats => again (if ats then !s.atsAsked k else !s.pageAsked k)
  | .controller n => again (s.pulse? n).isNone
  | .tile c tile _ scope seen =>
    complete (seen.isSome || s.tileReady s.me.core tile) (s.twaitEnd c (seen.getD (s.tag s.me.core tile).state) scope)
  | .take tile rel scope h seen =>
    if r == .none && (seen.isSome || s.takeable s.me.core tile) then
      some (s.settle 8 (s.ttake (seen.getD (s.tag s.me.core tile).state) tile rel scope h))
    else none
  | .barrier bar rel phase scope seen =>
    let b := s.barrier s.me.core bar
    if seen.getD b.poison then
      if r == .none then some (s.takeTrap Cause.poison 0 (num rel)) else none
    else complete (seen.isSome || b.phase != phase) (s.acquireMe scope)
  | .handles refs _ scope acquire =>
    complete (s.allPerformed refs scope) (if acquire then s.acquireMe scope else s)
  | .removal id =>
    match s.removals.find? fun x => x.id == id with
    | some x => complete (s.removalDone x) { s with removals := s.removals.filter fun x => x.id != id }
    | none => complete true s
  | .candidate d ring scope =>
    let n := fieldOf ring 5 0
    match s.takeable? n (fieldOf ring 7 6) with
    | none => none
    | some c =>
      if r == .none then s.settleRing n ((s.trgnext n (fieldOf ring 7 6) c d scope).map fun t => t.advance 8) else none
  | .event park changed _ _ =>
    complete (!s.me.events.isEmpty || (if park then changed else !s.me.isInsole && s.recordsWait s.me.part)) s
  | .ringUnit v fn ring d d2 dst scope =>
    match r with
    | .value w p => some ((s.farRing fn d d2 dst w p scope).advance 8)
    | .refused =>
      some ((((s.countWindow v true).raiseTo s.me.key Cause.access ring (num (6 * 2 ^ 12))).farRing fn d d2 dst 0 true
        scope).advance 8)
    | .ring => if fn = 3 then some (s.takeTrap Cause.ring ring (num fn)) else none
    | .none | .corrected | .uncorrectable | .bytes _ _ | .voteFail | .dissent _ _ => none

/-- WAIT_END (R30, R60). An event or a trap that is due comes first (R185, R340).
Left open by the spec: log entry 41 (DESIGN CHOICE). -/
def State.stepWaitEnd (s : State) (k : StrandKey) (r : Reply) : Option State :=
  (s.ready? k).bind fun t =>
    match t.me.wait with
    | some w => if t.me.hasEvent || !t.me.deferred.isEmpty then none else t.waitEnd w r
    | none => none

def execWaitEnd (k : StrandKey) (r : Reply) (s : State) : Res := taken (s.stepWaitEnd k r)

/-- TIMED_WAIT_EXPIRY (R160, R224): the limit's cycles have passed, and the wait completes with no trap. -/
def State.stepTimedWaitExpiry (s : State) (k : StrandKey) : Option State :=
  (s.ready? k).bind fun t =>
    match t.me.wait with
    | some (.event _ _ start (some limit)) =>
      if !t.me.deferred.isEmpty then none else
      let now := t.coreCycles t.me.core
      let t := if limit ≤ (now - start).toNat then t
        else { t with cycles := mapSet 0 t.me.core (start + num limit) t.cycles }
      some (t.advance 8)
    | _ => none

def execTimedWaitExpiry (k : StrandKey) (s : State) : Res := taken (s.stepTimedWaitExpiry k)

/-! ### Traps at a boundary -/

/-- The wait of the executing strand as a trap leaves it: any instruction issues again after ERET, and a SPAWN in its
vote then takes what the vote has returned. Left open by the spec: log entry 41 (DESIGN CHOICE). -/
def State.cutWait (s : State) : State :=
  s.onMe fun t => { t with
    wait := none
    parted := match t.wait with
      | some (.vote n) => some ⟨t.pc, n, none⟩
      | _ => t.parted }

/-- The wait of the executing strand as an event leaves it: PARK and WAITI complete (R340).
Left open by the spec: log entry 41 (DESIGN CHOICE). -/
def State.leaveWait (s : State) : State :=
  match s.me.wait with
  | some (.event _ _ _ _) => s.advance 8
  | some _ | none => s.cutWait

/-- EVENT_TAKEN (R340). Left open by the spec: log entry 41 (DESIGN CHOICE). -/
def State.stepEventTaken (s : State) (k : StrandKey) : Option State :=
  (s.ready? k).bind fun t =>
    match t.me.events with
    | [] => none
    | e :: es =>
      if t.me.inHandler || !t.me.deferred.isEmpty then none
      else some ((t.leaveWait.onMe fun m => { m with events := es }).enterHandler e.cause e.addr e.info true)

def execEventTaken (k : StrandKey) (s : State) : Res := taken (s.stepEventTaken k)

/-- DEFERRED_POISON (R185): PC stays where it is, at a waiting instruction too; the candidates that the crew holds are
replayed (R272). Left open by the spec: log entry 15 (DEDUCED), log entry 17 (DEDUCED). -/
def State.stepDeferredPoison (s : State) (k : StrandKey) : Option State :=
  (s.ready? k).bind fun t =>
    match t.me.deferred with
    | [] => none
    | d :: ds =>
      match t.replayCrew t.me.key.crew with
      | .error r => r
      | .ok u => some ((u.cutWait.onMe fun m => { m with deferred := ds }).takeTrap Cause.poison d.addr d.pc)

def execDeferredPoison (k : StrandKey) (s : State) : Res := taken (s.stepDeferredPoison k)

/-- INSTRUCTION_FETCH_FAULT (R113): the fetch of the next instruction faults before decode. -/
def State.stepInstructionFetchFault (s : State) (k : StrandKey) : Option State :=
  (s.ready? k).bind fun t =>
    if !t.issuable then none
    else
      match t.fetch with
      | .stop u (.trap c a i) => some (u.fetchStop (.trap c a i))
      | .stop _ _ | .bytes _ _ => none

def execInstructionFetchFault (k : StrandKey) (s : State) : Res := taken (s.stepInstructionFetchFault k)

/-! ### Accesses held at issue -/

/-- An access held at issue fails with a cause: what its instruction makes of it (R186, R223, R330, R334, R411). That of
a crew that is leaving its core issues again after the restore (R35), where poison is due that comes first (R185), and
one whose address space is no longer its partition's fails the check of R325 when it issues again.
Left open by the spec: log entry 27 (DESIGN CHOICE). -/
def State.failHeld (s : State) (k : StrandKey) (a : Held) (cause : Nat) (info : Word) : State :=
  let s := s.select k
  if !s.onCore s.me then s
  else if !s.me.deferred.isEmpty || !s.asidOwned s.me.asid.toNat s.me.part then s.onMe fun t => { t with wait := none }
  else match a.waiter with
  | .plain => s.takeTrap cause a.addr (info ||| num a.lane)
  | .fetch => s.takeTrap cause a.addr (if cause = Cause.hostPageFail then info else info ||| num (2 ^ 10))
  | .spec d => (s.setX d 0 true).advance 8
  | .spawn d => (s.onMe fun t => t.spawned d (.error 6)).advance 8
  | .copyGo => s.takeTrap Cause.engineFault a.addr 0x38

/-- The strands whose wait satisfies a test, each with the access it holds. -/
def State.holders (s : State) (f : Wait → Option Held) : List (StrandKey × Held) :=
  s.strands.filterMap fun t => (t.wait.bind f).map fun a => (t.key, a)

def State.failAll (s : State) (hs : List (StrandKey × Held)) (cause : Nat) (info : Word) : State :=
  hs.foldl (fun (s : State) (x : StrandKey × Held) => s.failHeld x.1 x.2 cause info) s

/-! ### Walks (R327, R330) -/

/-- The die whose walker serves a unit. -/
def unitDie (unit : Nat) : Nat :=
  if unit < 2000 then unit / 192 else if unit < 3000 then (unit - 2000) / 12 else if unit < 4000 then 9 else 8

/-- Upper-level entries that a walk leaves in its die's walk cache. -/
def State.cacheTables (s : State) (k : WalkKey) (ts : List (Nat × Nat)) : State :=
  let die := unitDie k.unit
  let mk (t : Nat × Nat) : Upper := ⟨die, k.asid, t.1, k.va.toNat / tableSpan t.1 * tableSpan t.1, t.2⟩
  let new := ts.map mk
  { s with upper := new ++ s.upper.filter fun u =>
      !(new.any fun v => v.die == u.die && v.asid == u.asid && v.level == u.level && v.va == u.va) }

/-- The elements of a list without those that satisfy `p` beyond the first `n` of them. -/
def keepFirst {α : Type} (p : α → Bool) : Nat → List α → List α
  | _, [] => []
  | n, x :: xs =>
    if p x then
      match n with
      | 0 => keepFirst p 0 xs
      | k + 1 => x :: keepFirst p k xs
    else x :: keepFirst p n xs

/-- The leaves that a unit's caches hold at most (R330). Left open by the spec: log entry 27 (DESIGN CHOICE). -/
def leafCap (unit : Nat) : Nat := if unit < 2000 then 64 else 2048

/-- A leaf in a unit's caches, in place of those it overlaps and, where they are full, of the oldest.
Left open by the spec: log entry 27 (DESIGN CHOICE). -/
def State.cacheLeaf (s : State) (l : Leaf) : State :=
  { s with tlb := l :: keepFirst (fun m => m.unit == l.unit) (leafCap l.unit - 1) (s.tlb.filter fun m =>
      !(m.unit == l.unit && m.asid == l.asid && decide (m.va < l.va + l.size ∧ l.va < m.va + m.size))) }

/-- The walk's outcome, with the tables it passed: none where what it starts from is not cached. -/
def State.walkOutcome (s : State) (k : WalkKey) (f : WalkFrom) : Option (Except Nat Leaf × List (Nat × Nat)) :=
  match f with
  | .root => some (s.walk k, s.walkTables k.va (s.bar (asroot k.asid) &&& bitsMask 51 16).toNat 1 3)
  | .upper level =>
    (s.upper.find? fun u =>
      u.die == unitDie k.unit && u.asid == k.asid && u.level == level &&
        decide (u.va ≤ k.va.toNat ∧ k.va.toNat < u.va + tableSpan level)).map fun u =>
      ((s.walkFrom k.va u.table level (4 - level)).map fun x =>
        (⟨k.unit, k.asid, k.va.toNat / x.1 * x.1, x.1, x.2⟩ : Leaf), s.walkTables k.va u.table level (4 - level))
  | .cluster =>
    if 1536 ≤ k.unit then none
    else (s.cached? ⟨2000 + k.unit / 16, k.asid, k.va⟩).map fun l => (.ok { l with unit := k.unit }, [])

/-- Whether one of the 64 walks that a die's walker runs at once is, or can be, that of a translation (R330): those
asked for run in the order of asking. Left open by the spec: log entry 27 (DESIGN CHOICE). -/
def State.walkRuns (s : State) (k : WalkKey) : Bool :=
  let mine := s.walks.filter fun w => unitDie w.unit == unitDie k.unit
  (mine.take 64).contains k || decide (mine.length < 64)

/-- PAGE_WALK_END (R330): the device may walk at any moment; nothing of a faulting walk is cached, and the fault ends
the accesses that wait for it. A walk whose address space is no longer valid ends with nothing, and those accesses issue
again (R325). -/
def State.stepPageWalkEnd (s : State) (k : WalkKey) (f : WalkFrom) : Option State :=
  let ended (s : State) : State := { s with walks := s.walks.filter fun w => w != k }
  if !s.walkRuns k then none
  else if !s.walkable k then (if s.walks.contains k then some (ended s) else none)
  else
    (s.walkOutcome k f).map fun x =>
      match x.1 with
      | .ok l => ((ended s).cacheTables k x.2).cacheLeaf l
      | .error lv =>
        let s := ended s
        let held (w : Wait) : Option Held := match w with
          | .walk k' a => if k' = k then some a else none
          | _ => none
        s.failAll (s.holders held) Cause.xlateFault (num (lv * 2 ^ 8))

def execPageWalkEnd (k : WalkKey) (f : WalkFrom) (s : State) : Res := taken (s.stepPageWalkEnd k f)

/-! ### Vote windows -/

/-- VOTE_WINDOW_EXPIRY (R42, R395): of vote `i`, which is still open. Where a majority has not formed, whether one
copy has arrived or two that differ, nothing is performed. Left open by the spec: log entry 22 (DESIGN CHOICE). -/
def State.stepVoteWindowExpiry (s : State) (i : Nat) : Option State :=
  match s.votes[i]? with
  | none => none
  | some v =>
    if v.closed.isSome || v.arrivals.isEmpty then none
    else
      let missing := (s.copyNumbers v.tag).filter fun c => !(v.arrivals.any fun a => a.copy == c.1)
      let part := s.votePart v.tag
      let closed := { v with closed := some (missing.map (·.1)) }
      let keep (s : State) (v : Vote) : State := if missing.isEmpty then s.dropVote v.tag else s.putVote v
      match v.arrivals with
      | [] => none
      | a :: _ =>
        if v.performed then
          some (missing.foldl (fun (s : State) (c : Nat × Nat) => s.dissent part a.ballot c.2) (keep s closed))
        else
          let s := keep (s.failVote part v) closed
          some (v.arrivals.foldl (fun (s : State) (b : Arrival) => s.giveFailure v.tag b) s)

def execVoteWindowExpiry (i : Nat) (s : State) : Res := taken (s.stepVoteWindowExpiry i)

/-- VOTE_BUFFER_DISCARD (R43): entry `i` goes, and the copies that did not claim it are recorded. -/
def State.stepVoteBufferDiscard (s : State) (i : Nat) : Option State :=
  match s.voteBufs[i]? with
  | none => none
  | some b =>
    let late := (s.copyNumbers b.tag).filter fun c => b.waiting.contains c.1
    let part := s.votePart b.tag
    let note (s : State) (c : Nat × Nat) : State :=
      if b.tag.strand < 16 then s.dissent part (.item (.gate ⟨[], .strand, none⟩)) c.2
      else s.recordFarDissent part b.home.addr
    let s := { s with
      voteBufs := s.voteBufs.eraseIdx i
      votes := s.votes ++ [⟨b.tag, [], true, 0, 0, some b.waiting⟩] }
    some (late.foldl note s)

def execVoteBufferDiscard (i : Nat) (s : State) : Res := taken (s.stepVoteBufferDiscard i)

end Sys2Proof.Machine
end

