-- ==== Sys2Proof/Machine/Dispatcher.lean ====
section
/-!
DEFINITION. Dispatcher.lean: a partition's dispatcher: which launches take part (R309), which crew goes next and
where it fits (R10, R15, R25, R311), placement (R14 to R16, R27, R28), retirement (R32, R34, R315), wait counters
(R28, R314) and aging (R310).
-/

namespace Sys2Proof.Machine

/-! ### Launch events and queues -/

/-- An event record of a launch (R316). -/
def State.launchEvent (s : State) (l : Launch) (kind cause : Nat) (info addr : Word) : State :=
  s.report l.part ⟨kind, l.queue, cause, launchId l.queue l.seq, info, addr⟩

/-- Whether all crews of a launch are placed, or it was failed or discarded. -/
def Launch.left (l : Launch) : Bool := l.finished || decide (l.record.crews ≤ l.placed)

/-- Whether all its crews have retired (R34). -/
def Launch.over (l : Launch) : Bool := l.finished || decide (l.record.crews ≤ l.retired)

/-- The sequence number that HEADSEQ shows (R303): the oldest record whose crews are not all placed, else NEXTSEQ. -/
def State.headSeq (s : State) (q : Nat) : Nat :=
  ((s.launches.find? fun l => l.queue == q && !l.left).map (·.seq)).getD (s.barField (queueReg q 0x10) 63 32)

/-- HEADSEQ of a work queue after one of its records may have left it (R306). -/
def State.moveHead (s : State) (q : Nat) : State :=
  if q < 8192 then s.setBarField (queueReg q 0x10) 31 0 (s.headSeq q) else s

/-- A launch that ends with a LAUNCH_FAIL event; its record leaves its queue (R28, R308).
Left open by the spec: log entry 23 (DESIGN CHOICE). -/
def State.failLaunch (s : State) (l : Launch) (cause : Nat) (addr : Word) : State :=
  ((s.onLaunch l.uid fun l => { l with finished := true }).launchEvent l EventRec.launchFail cause 0 addr).moveHead l.queue

/-! ### What a core has free (R10) -/

/-- The crews that hold what a core has, those of `without` aside: on the core; discarded there, until they retire;
out with their tiles kept (R36). -/
def State.holdersOf (s : State) (core : Nat) (without : List Nat) : List Crew :=
  s.crews.filter fun c =>
    c.core == core && !without.contains c.uid && (c.onCore || c.place == CrewWhere.gone || c.keep)

/-- Whether a crew holds strand slots and accumulator tiles of its core. -/
def Crew.holdsSlots (c : Crew) : Bool := c.onCore || c.place == CrewWhere.gone

/-- The strand slots in use: those of the strands that have not exited (R32). -/
def State.usedSlots (s : State) (core : Nat) (without : List Nat) : List Nat :=
  ((s.holdersOf core without).filter Crew.holdsSlots).flatMap fun c =>
    (c.slots.zipIdx.filter fun x => ((s.strand? ⟨c.uid, x.2⟩).map (·.live)).getD false).map (·.1)

def State.usedAccs (s : State) (core : Nat) (without : List Nat) : Nat :=
  (((s.holdersOf core without).filter Crew.holdsSlots).map (·.accCount)).sum

/-- Whether [b, b + n) meets no range of a list of (first, count). -/
def rangeFree (used : List (Nat × Nat)) (b n : Nat) : Bool :=
  used.all fun u => decide (n = 0 ∨ u.2 = 0 ∨ b + n ≤ u.1 ∨ u.1 + u.2 ≤ b)

def State.usedTiles (s : State) (core : Nat) (without : List Nat) : List (Nat × Nat) :=
  (s.holdersOf core without).map fun c => (c.tileBase, c.tileCount)

def State.usedBars (s : State) (core : Nat) (without : List Nat) : List (Nat × Nat) :=
  (s.holdersOf core without).map fun c => (c.barBase, c.barCount)

/-! ### Stacks (R15, R308) -/

/-- Bytes of a stack slot, and the slots of the stack area. -/
def State.stackSize (s : State) (p : Nat) : Nat := 2 ^ (16 + fieldOf (s.part p 0x010) 11 8)
def State.stackCount (s : State) (p : Nat) : Nat := 2 ^ fieldOf (s.part p 0x010) 5 0 / s.stackSize p

/-- The stack slots that crews hold; the copies of a voted crew share theirs, as their stores go to one place. -/
def State.usedStacks (s : State) (p : Nat) : List Nat :=
  (s.crews.filter fun c => c.part == p && c.place != CrewWhere.retired).flatMap (·.stackBlocks)

/-- Free stack slots suffice for a new crew of a launch. -/
def State.stackRoom (s : State) (l : Launch) : Bool :=
  l.record.stack == 0 || decide (l.record.strands + (s.usedStacks l.part).eraseDups.length ≤ s.stackCount l.part)

/-- x61 at task start. -/
def State.stackTop (s : State) (l : Launch) (slot : Nat) : Word :=
  (s.part l.part 0x010 &&& bitsMask 63 16) + num (slot * s.stackSize l.part + 2 ^ 16 + l.record.stack * 1024)

/-! ### Taking part (R309) -/

/-- Whether the dispatcher of a partition acts. -/
def State.dispatching (s : State) (p : Nat) : Bool := (s.part p 0).getLsbD 63 && !(s.dispatcher p).tearing

/-- The saved crews of a launch that go next: those of its lowest index, all copies of a voted one. -/
def State.savedNext (s : State) (l : Launch) : List Crew :=
  let out := s.crews.filter fun c => c.launch == l.uid && match c.place with
    | .saved _ => true
    | .placed | .evicting | .freezing | .frozen _ | .gone | .retired => false
  match (out.map (·.index)).min? with
  | none => []
  | some i => out.filter fun c => c.index == i

/-- Whether the records before a launch in its queue let it be dispatched: all placed, and no SERIAL one that has not
retired (R34, R309). -/
def State.reached (s : State) (l : Launch) : Bool :=
  (s.launches.takeWhile fun m => m.uid != l.uid).all fun m =>
    m.queue != l.queue || m.part != l.part || (m.left && (!m.record.serial || m.over))

/-- Left open by the spec: log entry 23 (DESIGN CHOICE). -/
def State.takesPart (s : State) (l : Launch) : Bool :=
  s.dispatching l.part && !l.finished && l.waited && (!(s.savedNext l).isEmpty || (!l.left && s.reached l))

/-- Whether the gate of a SPAWN lets its launch's crews be placed (R27). -/
def State.gateOpen (s : State) (l : Launch) : Bool :=
  match l.gate with
  | none => true
  | some g => s.allPerformed g.needs g.scope

/-! ### Where a crew fits -/

/-- The clusters that a launch may be placed on now (R25, R351, R387). -/
def State.openClusters (s : State) (l : Launch) : List Nat :=
  (s.allowedClusters l.part l.record).filter fun c => s.clusterReady c

/-- Whether a core is kept for another launch's reservation (R311). -/
def State.keptCore (s : State) (l : Launch) (core : Nat) : Bool :=
  s.launches.any fun r =>
    match r.reserve with
    | none => false
    | some o =>
      r.uid != l.uid && r.part == l.part && s.takesPart r && (s.allowedClusters r.part r.record).contains (core / 16) &&
        match l.reserve with
        | none => true
        | some mine => decide (o < mine)

/-- Whether a new crew of a launch fits a core, the crews of `without` gone from it (R10). -/
def State.fitsNew (s : State) (l : Launch) (core : Nat) (without : List Nat) : Bool :=
  let r := l.record
  decide ((s.usedSlots core without).length + r.strands ≤ 16 ∧ s.usedAccs core without + r.accums ≤ 8) &&
    ((List.range (257 - r.tiles)).any fun b => rangeFree (s.usedTiles core without) b r.tiles) &&
    (List.range (129 - r.barriers)).any fun b => rangeFree (s.usedBars core without) b r.barriers

/-- Whether a saved crew fits a core: its own where it must return there (R36). -/
def State.fitsSaved (s : State) (c : Crew) (core : Nat) (without : List Nat) : Bool :=
  decide ((s.usedSlots core without).length + c.size ≤ 16 ∧ s.usedAccs core without + c.accCount ≤ 8) &&
    if c.keep then core == c.core
    else
      ((List.range (257 - c.tileCount)).any fun b => rangeFree (s.usedTiles core without) b c.tileCount) &&
        (List.range (129 - c.barCount)).any fun b => rangeFree (s.usedBars core without) b c.barCount

/-- The cores of the open clusters of a launch that are not kept for another. -/
def State.openCores (s : State) (l : Launch) : List Nat :=
  ((s.openClusters l).flatMap fun c => (List.range 16).map fun i => 16 * c + i).filter fun core => !s.keptCore l core

/-- Whether a launch's next crew fits: its saved crew, or a new one; three copies of a voted one in three clusters.
Left open by the spec: log entry 23 (DESIGN CHOICE). -/
def State.fitsNext (s : State) (l : Launch) : Bool :=
  let cores := s.openCores l
  match s.savedNext l with
  | [] =>
    let fit := cores.filter fun core => s.fitsNew l core []
    s.gateOpen l && s.stackRoom l &&
      if l.record.voted then decide (3 ≤ (fit.map fun c => c / 16).eraseDups.length) else !fit.isEmpty
  | cs => cs.all fun c => cores.any fun core => s.fitsSaved c core []

/-! ### The choice of R311 -/

/-- The weight of a queue. Left open by the spec: log entry 23 (DESIGN CHOICE). -/
def State.weightOf (s : State) (p q : Nat) : Nat :=
  max 1 (if q < 8192 then s.barField (queueReg q 0) 15 8 else fieldOf (s.part p 0) 55 48)

/-- The launch whose crew the dispatcher of a partition places next, and the rotation after it.
Left open by the spec: log entry 23 (DESIGN CHOICE). -/
def State.chosen? (s : State) (p : Nat) : Option (Launch × Dispatcher) :=
  let fit := s.launches.filter fun l => l.part == p && s.takesPart l && s.fitsNext l
  match (fit.map (·.level)).max? with
  | none => none
  | some top =>
    let best := fit.filter fun l => l.level == top
    let d := s.dispatcher p
    let stay := best.any (fun l => l.queue == d.turn) && decide (d.visit < s.weightOf p d.turn)
    let later := (best.map (·.queue)).filter fun q => decide (d.turn < q)
    let q := if stay then d.turn else (later.min?).getD (((best.map (·.queue)).min?).getD 0)
    (best.find? fun l => l.queue == q).map fun l =>
      (l, { d with turn := q, visit := if stay then d.visit + 1 else 1 })

/-! ### Placement -/

/-- The identity registers of strand `i` of a crew (R16). -/
def State.idsOf (s : State) (l : Launch) (c : Crew) (i : Nat) : Ids where
  strandId := num i
  crewId := num c.index
  crewSize := num c.size
  launchId := Sys2Proof.Machine.launchId l.queue l.seq
  slotId := num (c.slots.getD i 0)
  coreId := num c.core
  clusterId := num (c.core / 16 % 12)
  dieId := num (c.core / 192)
  nodeId := num (s.barField 0x2000 11 0)
  partId := num l.part
  tileBase := num c.tileBase
  tileCount := num c.tileCount
  barBase := num c.barBase
  barCount := num c.barCount
  accCount := num c.accCount

/-- A strand at task start (R14, R15). -/
def State.newStrand (s : State) (l : Launch) (c : Crew) (i : Nat) : Strand :=
  let t := Strand.zero ⟨c.uid, i⟩ (s.idsOf l c i)
  let sp := match c.stackBlocks[i]? with
    | some slot => s.stackTop l slot
    | none => 0
  let t := (((t.setX 1 l.record.args false).setX 2 (num c.index) false).setX 3 (num i) false).setX 61 sp false
  { t with pc := l.record.entry, asid := BitVec.ofNat 16 l.record.asid, secure := s.clusterSecure (c.core / 16) }

/-- A crew's tiles zeroed with clear tags, and its barriers started (R14). -/
def State.clearCrew (s : State) (c : Crew) : State :=
  let t := 256 * c.core + c.tileBase
  let b := 128 * c.core + c.barBase
  let start : Barrier := { Barrier.clear with expect := BitVec.ofNat 7 c.size }
  { s with
    tiles := s.tiles.zero (tileAddr c.core c.tileBase 0) (4096 * c.tileCount)
    tags := s.tags.filter fun x => decide (x.1 < t ∨ t + c.tileCount ≤ x.1)
    bars := (List.range c.barCount).foldl (fun m i => mapSet .clear (b + i) start m)
      (s.bars.filter fun x => decide (x.1 < b ∨ b + c.barCount ≤ x.1)) }

/-- Whether a spot is free for a crew of these needs on one of a launch's open cores. -/
def State.spotOk (s : State) (l : Launch) (p : Spot) (strands tiles bars accs : Nat) : Bool :=
  (s.openCores l).contains p.core && p.slots.length == strands && p.slots.eraseDups.length == strands &&
    p.slots.all (fun i => decide (i < 16) && !(s.usedSlots p.core []).contains i) &&
    decide (s.usedAccs p.core [] + accs ≤ 8 ∧ p.tileBase + tiles ≤ 256 ∧ p.barBase + bars ≤ 128) &&
    rangeFree (s.usedTiles p.core []) p.tileBase tiles && rangeFree (s.usedBars p.core []) p.barBase bars

/-- Whether the stack blocks of a spot are free slots, one for each strand, or none for STACK 0. -/
def State.stacksOk (s : State) (l : Launch) (stackBlocks : List Nat) : Bool :=
  if l.record.stack = 0 then stackBlocks.isEmpty
  else
    stackBlocks.length == l.record.strands && stackBlocks.eraseDups.length == l.record.strands &&
      stackBlocks.all fun i => decide (i < s.stackCount l.part) && !(s.usedStacks l.part).contains i

/-- The acquire that a launch's crews start with (R27, R28). -/
def State.startAcquire (s : State) (l : Launch) (core : Nat) : State :=
  let s := match l.gate with
    | some g => s.acquire core (core / 16) g.scope
    | none => s
  if l.record.waitAddr = 0 then s else s.acquire core (core / 16) .system

/-- One crew, or one copy, placed new. -/
def State.placeOne (s : State) (l : Launch) (p : Spot) (copy : Nat) : State :=
  let n := s.newId
  let r := l.record
  let c : Crew :=
    ⟨n.1, l.uid, l.placed, copy, r.voted, l.part, p.core, p.slots, p.tileBase, r.tiles, p.barBase, r.barriers, r.accums,
      r.strands, p.stackBlocks, Vector.replicate 8 ZTile.zero, List.replicate (4 * r.strands) (List.replicate 64 0), .placed,
      false, false, l.level, n.1, s.coreCycles p.core, []⟩
  let s := n.2.clearCrew c
  { s with
    crews := s.crews ++ [c]
    others := s.others ++ (List.range r.strands).map fun i => s.newStrand l c i }.startAcquire l p.core

/-- What placing a crew does to its launch (R310, R311). -/
def Launch.served (l : Launch) (new : Bool) : Launch :=
  { l with
    placed := if new then l.placed + 1 else l.placed
    level := l.record.prio
    reserve := none
    quantum := false }

/-- A new crew of the chosen launch placed on spots of the dispatcher's choice.
Left open by the spec: log entry 22 (DESIGN CHOICE). -/
def State.placeNew (s : State) (l : Launch) (d : Dispatcher) (spots : List Spot) : Option State :=
  let r := l.record
  let clusters := spots.map fun p => p.core / 16
  if (s.savedNext l).isEmpty && spots.length == (if r.voted then 3 else 1) &&
      clusters.eraseDups.length == spots.length &&
      spots.all (fun p => s.spotOk l p r.strands r.tiles r.barriers r.accums) &&
      spots.all (fun p => s.stacksOk l p.stackBlocks && p.stackBlocks == (spots.headD p).stackBlocks) then
    let s := spots.zipIdx.foldl (fun (s : State) (p : Spot × Nat) => s.placeOne l p.1 p.2) s
    some (((s.onLaunch l.uid fun l => l.served true).setDispatcher l.part d).moveHead l.queue)
  else none

/-- Whether a launch asks for more stack than a slot has (R308). -/
def State.stackTooLarge (s : State) (l : Launch) : Bool :=
  decide (s.stackSize l.part < l.record.stack * 1024 + 2 ^ 16) && l.record.stack != 0

/-- CREW_PLACEMENT (R9, R311): the launch is the one that R311 picks; a launch whose stack blocks fit no slot fails,
with a free ADDR. -/
def State.stepCrewPlacement (s : State) (launch : Nat) (spots : List Spot) : Option State :=
  match s.launch? launch with
  | none => none
  | some l =>
    if s.takesPart l && !l.left && s.stackTooLarge l then
      some (s.freshWord.2.failLaunch l Cause.space s.freshWord.1)
    else
      match s.chosen? l.part with
      | none => none
      | some x => if x.1.uid = launch then s.placeNew x.1 x.2 spots else none

def execCrewPlacement (launch : Nat) (spots : List Spot) (s : State) : Res := taken (s.stepCrewPlacement launch spots)

/-! ### Retirement (R32, R34) -/

/-- Whether a job has not ended; a copy's slot stands for its leader's. -/
def State.jobAlive (s : State) (j : Job) : Bool := (s.leaderOf j).state.alive

/-- Whether a crew has nothing left: its strands have exited, its items are performed at their scopes, its jobs are
completed. -/
def State.crewDone (s : State) (c : Crew) : Bool :=
  (s.strands.all fun t => t.key.crew != c.uid || (!t.live && t.entries.isEmpty)) &&
    !(c.out.any (·.live) && c.place != CrewWhere.gone) &&
    !(s.jobs.any fun j => j.owner.crew == c.uid && j.keep.isNone && s.jobAlive j)

/-- A crew gone from its core with all it held. Left open by the spec: log entry 25 (DESIGN CHOICE). -/
def State.retireOne (s : State) (c : Crew) : State :=
  ({ s with others := s.others.filter fun t => t.key.crew != c.uid }).onCrew c.uid fun d =>
    { d with place := .retired, keep := false, stackBlocks := [] }

/-- CREW_RETIREMENT: all copies of a voted crew together. A launch of which a crew was discarded ends without its
increment (R320). The increment goes through the ATC of the retired crew's die (R376). -/
def State.stepCrewRetirement (s : State) (crew : Nat) : Option State :=
  let cs := s.copiesOf crew
  let here (c : Crew) : Bool := c.place == CrewWhere.gone || c.onCore
  match cs with
  | [] => none
  | c :: _ =>
    if cs.all (fun d => here d && s.crewDone d) then
      let s := cs.foldl State.retireOne s
      some (s.onLaunch c.launch fun l =>
        let l := { l with retired := l.retired + 1, die := c.core / 192 }
        { l with finished := l.finished || (l.dropped && decide (l.record.crews ≤ l.retired)) })
    else none

def execCrewRetirement (crew : Nat) (s : State) : Res := taken (s.stepCrewRetirement crew)

/-! ### Words that the dispatcher reads and adds to -/

/-- A dispatcher as the reader of a launch's wait word, and as the maker of its increment, which goes through the ATC
of the die of the crew that retired last (R376). -/
def State.waitWho (s : State) (l : Launch) : Who := s.dispatcherWho l.part l.record.asid (2 * l.uid + 1)
/-- Left open by the spec: log entry 27 (DESIGN CHOICE). -/
def State.doneWho (s : State) (l : Launch) : Who := { s.waitWho l with die := l.die }

/-- What an access of 8 bytes by a dispatcher comes to: the word with its poison, at its home; a fault with its cause;
or the Translation Request or page request that it has made and waits for. -/
inductive DispatcherGot where
  | word (s : State) (p : Place) (v : Word × Bool)
  | failed (s : State) (cause : Nat)
  | asked (s : State)

/-- The packet of a dispatcher's access to another package: a read, or the increment. -/
def State.dispatcherPacket (s : State) (w : Who) (v : Via) (x : Nat) (a : Acc) : Packet :=
  let p := s.header v x w.secure
  match a with
  | .atomic k scope =>
    { p with kind := Packet.atomic, len := 8, op := k.code + 32, scope := scope.code, release := true, opLo := 1 }
  | .load | .store | .fetch => { p with kind := Packet.read, len := 8, scope := Scope.code .system, acquire := true }

/-- An access of 8 bytes by a dispatcher at its home: what its check found there (R390), or what came back.
Left open by the spec: log entry 23 (DESIGN CHOICE). -/
def State.dispatcherRead (s : State) (l : Launch) (w : Who) (a : Acc) (va : Word) (r : Reply) : Option DispatcherGot :=
  let fail (s : State) (cause : Nat) : DispatcherGot := .failed (s.forgetPage w va) cause
  let ask (k : PageKey) (ats : Bool) : Option DispatcherGot := if r = .none then (s.askUnit w k ats).map .asked else none
  match s.xlateUnit w a va with
  | .fail cause _ => if r = .none then some (fail s cause) else none
  | .miss _ => none
  | .ats k => ask k true
  | .page k => ask k false
  | .at p pin =>
    match p with
    | .dev x =>
      if s.cxlLost x then if r = .none then some (fail s Cause.access) else none
      else
        (s.homeError p 8 l.part r).map fun s =>
          let v := s.readHome p 8 .none
          .word (s.noteCxl p l.record.asid pin) p (wordOfBytes v.1, v.2)
    | .host _ =>
      if r = .refused then some (fail s Cause.access)
      else if r = .none then
        let v := s.readHome p 8 .none
        some (.word s p (wordOfBytes v.1, v.2))
      else none
    | .remote v x =>
      let ask := if s.routed v.node then s.dispatch v (s.dispatcherPacket w v x a) else s
      match r with
      | .value n q => if s.routed v.node then some (.word ask p (n, q)) else none
      | .refused => if s.routed v.node then some (fail (ask.countWindow v true) Cause.access) else none
      | .none => some (fail (ask.countWindow v false) Cause.remote)
      | .corrected | .uncorrectable | .ring | .bytes _ _ | .voteFail | .dissent _ _ => none
    | .tile _ => none

/-- DONE_INCREMENT (R34, R315): the release is performed after every item of the launch; the DONE event follows, or
LAUNCH_FAIL where the increment cannot be made. Left open by the spec: log entry 23 (DESIGN CHOICE). -/
def State.stepDoneIncrement (s : State) (launch : Nat) (r : Reply) : Option State :=
  match s.launch? launch with
  | none => none
  | some l =>
    let mine (k : StrandKey) : Bool := ((s.crew? k.crew).map fun c => c.launch == launch).getD false
    if l.finished || decide (l.retired < l.record.crews) || s.outstanding.any (fun i => mine i.key) then none
    else
      let ended (s : State) : State := s.onLaunch launch fun l => { l with finished := true }
      let done (s : State) : State :=
        if l.record.notifyHost then (ended s).launchEvent l EventRec.done 0 0 l.record.doneAddr else ended s
      if l.record.doneAddr = 0 then if r = .none then some (done s) else none
      else
        (s.dispatcherRead l (s.doneWho l) (.atomic .add .system) l.record.doneAddr r).map fun x =>
          match x with
          | .failed t cause => t.failLaunch l cause l.record.doneAddr
          | .asked t => t
          | .word s p v =>
            let new := bytesOf 8 (v.1 + 1).toNat
            match p with
            | .host a => done ({ s with host := s.host.store a new v.2 }.send (.atomicOp a .add true 1 0))
            | .dev _ | .tile _ | .remote _ _ => done (s.writeHome p new v.2)

def execDoneIncrement (launch : Nat) (r : Reply) (s : State) : Res := taken (s.stepDoneIncrement launch r)

/-- Whether a wait word meets a launch's condition: at or above WAIT_VALUE, and not poisoned (R28).
Left open by the spec: log entry 23 (DESIGN CHOICE). -/
def Launch.meets (l : Launch) (v : Word × Bool) : Bool := decide (l.record.waitValue.toNat ≤ v.1.toNat) && !v.2

/-- WAIT_COUNTER_CHECK (R28, R314): the condition holds from the first read that meets it.
Left open by the spec: log entry 23 (DESIGN CHOICE). -/
def State.stepWaitCounterCheck (s : State) (launch : Nat) (r : Reply) : Option State :=
  match s.launch? launch with
  | none => none
  | some l =>
    if l.finished || l.waited || !s.dispatching l.part then none
    else
      (s.dispatcherRead l (s.waitWho l) .load l.record.waitAddr r).map fun x =>
        match x with
        | .failed t cause => t.failLaunch l cause l.record.waitAddr
        | .asked t => t
        | .word s _ v => if l.meets v then s.onLaunch launch fun l => { l with waited := true } else s

def execWaitCounterCheck (launch : Nat) (r : Reply) (s : State) : Res := taken (s.stepWaitCounterCheck launch r)

/-- The home in device HBM of the word that a launch still waits for. -/
def State.waitHome? (s : State) (l : Launch) : Option Nat :=
  if l.finished || l.waited || !s.dispatching l.part then none
  else
    match s.xlateUnit (s.waitWho l) .load l.record.waitAddr with
    | .at (.dev a) _ => if a < hbmEnd then some a else none
    | _ => none

/-- The wait words that a step from `old` has written at their homes, read again at once (R314).
Left open by the spec: log entry 23 (DESIGN CHOICE). -/
def State.rereadWaits (s old : State) : State :=
  s.launches.foldl (fun (s : State) (l : Launch) =>
    match s.waitHome? l with
    | none => s
    | some a =>
      let v := s.readHome (.dev a) 8 .none
      if v != old.readHome (.dev a) 8 .none && l.meets (wordOfBytes v.1, v.2) then
        s.onLaunch l.uid fun l => { l with waited := true }
      else s) s

/-! ### Aging (R310, R311) -/

/-- AGING_STEP: 2^AGE cycles without a placement: the level rises, and at level 7 the launch takes a reservation. -/
def State.stepAgingStep (s : State) (launch : Nat) : Option State :=
  match s.launch? launch with
  | none => none
  | some l =>
    if !s.takesPart l then none
    else if l.level < 7 then some (s.onLaunch launch fun l => { l with level := l.level + 1 })
    else if l.reserve.isSome then none
    else some (s.newId.2.onLaunch launch fun l => { l with reserve := some s.newId.1 })

def execAgingStep (launch : Nat) (s : State) : Res := taken (s.stepAgingStep launch)

end Sys2Proof.Machine
end

