-- ==== Sys2Proof/Machine/Save.lean ====
section
/-!
DEFINITION. Save.lean: crews leaving their cores and coming back: eviction (R35, R313), the save area (R341 to R346),
restore, the hang watchdog (R318 to R320), and tear-down (R321, R322).
-/

namespace Sys2Proof.Machine

/-! ### Save images (R342 to R344) -/

/-- A word, with the bytes that follow each other, at its place in a save slot. -/
abbrev Part := Nat × List Byte

def wordPart (off : Nat) (w : Word) : Part := (off, bytesOf 8 w.toNat)

/-- The record of a strand (R343), at offsets from the record. -/
def Strand.image (t : Strand) : List Part :=
  ((List.range 64).map fun i => wordPart (8 * i) (t.xr (BitVec.ofNat 6 i))) ++
    [wordPart 0x200 t.xp, wordPart 0x208 (t.c.setWidth 64 ||| 1)] ++
    ((List.range 7).map fun i => wordPart (0x218 + 8 * i) (t.kr (BitVec.ofNat 3 (i + 1)))) ++
    [wordPart 0x250 t.pc, wordPart 0x258 t.issued, wordPart 0x260 (t.fpflags.setWidth 64),
     wordPart 0x268 (t.fpmode.setWidth 64), wordPart 0x270 t.spawnErrWord, wordPart 0x278 t.mode,
     wordPart 0x280 t.trapCause, wordPart 0x288 t.trapPc, wordPart 0x290 t.trapAddr, wordPart 0x298 t.trapInfo,
     wordPart 0x2A0 t.trapStatus, wordPart 0x2A8 (t.asid.setWidth 64)] ++
    ((List.range 8).flatMap fun q => match t.events[q]? with
      | some e => [wordPart (0x2C0 + 32 * q) (num e.cause), wordPart (0x2C8 + 32 * q) e.addr,
          wordPart (0x2D0 + 32 * q) e.info, wordPart (0x2D8 + 32 * q) 0]
      | none => [(0x2C0 + 32 * q, List.replicate 32 0)]) ++
    ((List.range 32).map fun n => wordPart (0x400 + 8 * n) (t.vPois (BitVec.ofNat 5 n))) ++
    (List.range 32).map fun n =>
      (0x1000 + 256 * n, (List.range 64).flatMap fun i => bytesOf 4 (laneAt (t.vr (BitVec.ofNat 5 n)) i).toNat)

/-- The words of a poison bitmap of 1,024 bits. -/
def poisonPart (off : Nat) (p : Nat → Bool) : Part :=
  (off, (List.range 128).map fun b => BitVec.ofNat 8 (natOfBits ((List.range 8).map fun i => p (8 * b + i))))
where
  natOfBits : List Bool → Nat
    | [] => 0
    | b :: bs => (if b then 1 else 0) + 2 * natOfBits bs

/-- FLAGS of a slot (R342). -/
def Crew.flags (c : Crew) : Nat :=
  (if c.keep then 1 else 0) + (if c.keep then 2 else 0) + (if c.voted then 4 else 0) + 8 * c.copy

/-- Whether a job will change the scratchpad or barriers of its crew (R234). -/
def Job.binds (j : Job) : Bool :=
  j.dst.space == 1 || j.block.doneKind == 1 || j.block.doneKind == 2 || j.block.status

/-- Whether a crew must be restored to its core (R36, R234). -/
def State.bound (s : State) (c : Crew) : Bool :=
  c.voted || ((s.launch? c.launch).map (·.record.coreBound)).getD false || c.armed ||
    s.jobs.any fun j => (j.owner.crew == c.uid || j.crews.contains c.uid) && s.jobAlive j && j.keep.isNone && j.binds

/-- All parts of the image of a crew on its core. -/
def State.crewImage (s : State) (c : Crew) : List Part :=
  let l := s.launch? c.launch
  let lid := (l.map fun l => launchId l.queue l.seq).getD 0
  let raw := (l.map (·.record.raw)).getD []
  [wordPart 0x00 lid, wordPart 0x08 (num c.index), wordPart 0x10 (num c.core), wordPart 0x18 (num c.tileBase),
   wordPart 0x20 (num c.tileCount), wordPart 0x28 (num c.barBase), wordPart 0x30 (num c.barCount),
   wordPart 0x38 (num c.accCount), wordPart 0x40 (num c.size), wordPart 0x48 (num c.flags), (0x80, raw)] ++
    ((s.strands.filter fun t => t.key.crew == c.uid).flatMap fun t =>
      t.image.map fun p => (0x1000 + 0x4000 * t.key.idx + p.1, p.2)) ++
    ((List.range c.tileCount).flatMap fun i =>
      let tag := s.tag c.core (c.tileBase + i)
      [wordPart (0x41000 + 16 * i) tag.word, wordPart (0x41008 + 16 * i) tag.notify]) ++
    ((List.range c.barCount).flatMap fun j =>
      let b := (s.barrier c.core (c.barBase + j)).words
      [wordPart (0x42000 + 16 * j) b.1, wordPart (0x42008 + 16 * j) b.2]) ++
    (c.layouts.zipIdx.map fun e => (0x42800 + 64 * e.2, e.1)) ++
    ((List.range c.accCount).flatMap fun z =>
      let t := c.z.toList.getD z ZTile.zero
      [poisonPart (0x43800 + 128 * z) fun i => t.p.getLsbD i,
       (0x4C000 + 4096 * z, (List.range 1024).flatMap fun i => bytesOf 4 (t.elem (i / 32) (i % 32)).toNat)]) ++
    (List.range c.tileCount).flatMap fun i =>
      let a := tileAddr c.core (c.tileBase + i) 0
      [poisonPart (0x44000 + 128 * i) fun w => s.tiles.wordPoisoned (a / 4 + w),
       (0x100000 + 4096 * i, s.tiles.readBytes a 4096)]

/-- A crew taken off its core into a slot: the image is written, its strands leave, its waits end with PC at the
waiting instruction (R35). -/
def State.saveCrew (s : State) (c : Crew) (slot : Nat) (frozen : Bool) : State :=
  let c := { c with keep := s.bound c }
  let base := s.saveSlot c.part slot
  let image := s.crewImage c
  let outs := (s.strands.filter fun t => t.key.crew == c.uid).map fun t =>
    (⟨t.key.idx, t.appended, t.live, t.deferred, t.queues, t.parted⟩ : StrandOut)
  { s with
    dev := image.foldl (fun (m : Mem) (p : Part) => m.store (s.storeAddr (base + p.1)) p.2 false) s.dev }.withoutCrew c.uid |>.onCrew c.uid fun d =>
    { d with place := if frozen then .frozen slot else .saved slot, keep := c.keep, out := outs }

/-! ### Loading an image (R346) -/

/-- The strand of an image at address `a`, with fresh identity registers. -/
def State.loadStrand (s : State) (l : Launch) (c : Crew) (o : StrandOut) (a : Nat) : Strand :=
  let w (off : Nat) : Word := s.dev.readWord (a + off) 8
  let lane (n i : Nat) : Lane := (s.dev.readWord (a + 0x1000 + 256 * n + 4 * i) 4).setWidth 32
  let st := w 0x2A0
  let t := Strand.zero ⟨c.uid, o.idx⟩ (s.idsOf l c o.idx)
  { t with
    x := Vector.ofFn fun i : Fin 64 => w (8 * i)
    xp := w 0x200
    c := (w 0x208).setWidth 8
    k := Vector.ofFn fun i : Fin 8 => if i.val = 0 then 0 else w (0x210 + 8 * i)
    v := Vector.ofFn fun n : Fin 32 => Vector.ofFn fun i : Fin 64 => lane n i
    vp := Vector.ofFn fun n : Fin 32 => w (0x400 + 8 * n)
    pc := w 0x250
    level := .ofCode ((w 0x278).setWidth 2)
    secure := s.clusterSecure (c.core / 16)
    issued := w 0x258
    fpflags := (w 0x260).setWidth 5
    fpmode := (w 0x268).setWidth 3
    spawnCause := (w 0x270).extractLsb' 4 4
    spawnErr := (w 0x270).getLsbD 0
    trapCause := w 0x280
    trapPc := w 0x288
    trapAddr := w 0x290
    trapInfo := w 0x298
    prev := st.setWidth 2
    async := st.getLsbD 2
    inHandler := st.getLsbD 4
    ovf := st.getLsbD 5
    asid := (w 0x2A8).setWidth 16
    events := ((List.range 8).map fun q =>
      (⟨(w (0x2C0 + 32 * q)).toNat, w (0x2C8 + 32 * q), w (0x2D0 + 32 * q)⟩ : PendEvent)).filter fun e => e.cause != 0
    deferred := o.deferred
    queues := o.queues
    appended := o.appended
    live := o.live
    parted := o.parted }

/-- One bit of a bitmap in memory. -/
def Mem.bit (m : Mem) (a i : Nat) : Bool := (m.read (a + i / 8)).getLsbD (i % 8)

/-- An accumulator tile from its image. -/
def loadAcc (m : Mem) (a z : Nat) : ZTile where
  e := Vector.ofFn fun i : Fin 1024 => (m.readWord (a + 0x4C000 + 4096 * z + 4 * i) 4).setWidth 32
  p := BitVec.ofNat 1024 ((List.range 1024).foldl
    (fun n i => if m.bit (a + 0x43800 + 128 * z) i then n + 2 ^ i else n) 0)

/-- The scratchpad, tags and barriers of a crew from its image at `a`. -/
def State.loadTiles (s : State) (c : Crew) (a : Nat) : State :=
  let tile (m : Mem) (i : Nat) : Mem :=
    let t := tileAddr c.core (c.tileBase + i) 0
    let m := m.store t (s.dev.readBytes (a + 0x100000 + 4096 * i) 4096) false
    (List.range 1024).foldl (fun m w => if s.dev.bit (a + 0x44000 + 128 * i) w then m.setPoison (t / 4 + w) true else m) m
  let s' := s.clearCrew c
  { s' with
    tiles := (List.range c.tileCount).foldl tile s'.tiles
    tags := (List.range c.tileCount).foldl (fun m i => mapSet .clear (256 * c.core + c.tileBase + i)
      (.ofWord (s.dev.readWord (a + 0x41000 + 16 * i) 8) (s.dev.readWord (a + 0x41008 + 16 * i) 8)) m) s'.tags
    bars := (List.range c.barCount).foldl (fun m j => mapSet .clear (128 * c.core + c.barBase + j)
      (.ofWords (s.dev.readWord (a + 0x42000 + 16 * j) 8) (s.dev.readWord (a + 0x42008 + 16 * j) 8)) m) s'.bars }

/-- A saved crew loaded on a spot; its slot is free then. -/
def State.loadCrew (s : State) (l : Launch) (c : Crew) (p : Spot) (slot : Nat) : State :=
  let a := s.storeAddr (s.saveSlot c.part slot)
  let n := s.newId
  let c := { c with
    core := p.core
    slots := p.slots
    tileBase := p.tileBase
    barBase := p.barBase
    z := Vector.ofFn fun z : Fin 8 => if z.val < c.accCount then loadAcc s.dev a z else ZTile.zero
    layouts := (List.range (4 * c.size)).map fun e => s.dev.readBytes (a + 0x42800 + 64 * e) 64
    place := .placed
    keep := false
    placedLevel := l.level
    order := n.1
    since := s.coreCycles p.core }
  let strands := c.out.map fun o => s.loadStrand l c o (a + 0x1000 + 0x4000 * o.idx)
  let s := (n.2.onCrew c.uid fun _ => { c with out := [] }).loadTiles c a
  { s with others := s.others ++ strands }

/-! ### CREW_RESTORE (R311, R346) -/

/-- Whether the dispatcher may use a save slot of a partition: it lies in HBM, in a valid region of the partition (R341,
R354). Left open by the spec: log entry 24 (DESIGN CHOICE). -/
def State.slotOk (s : State) (p n : Nat) : Bool :=
  match s.physical (s.dispatcherWho p 0) .store (s.saveSlot p n) false with
  | .at (.dev a) _ => decide (a < hbmEnd)
  | _ => false

/-- Whether a spot is free for a saved crew: its own tiles and barriers on its own core where it is bound to it. -/
def State.restoreOk (s : State) (l : Launch) (c : Crew) (p : Spot) : Bool :=
  (c.place.slot?.all fun n => s.slotOk c.part n) &&
  if c.keep then
    p.core == c.core && (s.openCores l).contains p.core && p.tileBase == c.tileBase && p.barBase == c.barBase &&
      p.slots.length == c.size && p.slots.eraseDups.length == c.size &&
      p.slots.all (fun i => decide (i < 16) && !(s.usedSlots p.core []).contains i) &&
      decide (s.usedAccs p.core [] + c.accCount ≤ 8)
  else s.spotOk l p c.size c.tileCount c.barCount c.accCount

/-- CREW_RESTORE: the saved crew of the launch that R311 picks; the copies of a voted one together.
Left open by the spec: log entry 24 (DESIGN CHOICE). -/
def State.stepCrewRestore (s : State) (launch : Nat) (spots : List Spot) : Option State :=
  match s.launch? launch with
  | none => none
  | some l =>
    match s.chosen? l.part with
    | none => none
    | some x =>
      let cs := s.savedNext l
      if x.1.uid != launch || cs.isEmpty || cs.length != spots.length ||
          !((cs.zip spots).all fun y => s.restoreOk l y.1 y.2) then none
      else
        let load (s : State) (y : Crew × Spot) : State := match y.1.place.slot? with
          | some n => s.loadCrew l y.1 y.2 n
          | none => s
        let s := (cs.zip spots).foldl load s
        some ((s.onLaunch launch fun l => l.served false).setDispatcher l.part x.2)

def execCrewRestore (launch : Nat) (spots : List Spot) (s : State) : Res := taken (s.stepCrewRestore launch spots)

/-! ### Eviction (R35, R313, R341) -/

/-- The save slots of a partition, and those that hold no crew: slots 0 to 15 are for frozen crews. -/
def State.slotFree (s : State) (p n : Nat) : Bool :=
  !(s.crews.any fun c => c.part == p && c.place.slot? == some n)

def State.saveSlots (s : State) (p : Nat) : Nat :=
  if 4 ≤ fieldOf (s.part p 0x058) 4 0 ∧ fieldOf (s.part p 0x058) 4 0 ≤ 12 then 2 ^ fieldOf (s.part p 0x058) 4 0 else 0

def State.freeSaves (s : State) (p : Nat) : List Nat :=
  (List.range (s.saveSlots p)).filter fun n => decide (16 ≤ n) && s.slotFree p n && s.slotOk p n

/-- Crews already leaving for a slot. -/
def State.leaving (s : State) (p : Nat) (place : CrewWhere) : Nat := s.crews.countP fun c => c.part == p && c.place == place

/-- Whether a crew's queues hold a closed HRECV gate or a gate that waits for one (R216).
Left open by the spec: log entry 24 (DESIGN CHOICE). -/
def State.closedGate (s : State) (c : Crew) : Bool :=
  s.strands.any fun t => t.key.crew == c.uid && t.entries.any fun e =>
    match e.body with
    | .gate g => g.recv.isSome
    | .load _ | .store _ | .atomic _ | .transfer _ | .tag _ | .bar _ | .copy _ | .ring _ => false

/-- Whether the vote of a SPAWN of the strand is not decided. -/
def Strand.inVote (t : Strand) : Bool :=
  (match t.wait with
   | some (.vote _) => true
   | _ => false) || t.parted.any fun p => p.result.isNone

/-- Whether a strand of a crew waits for its vote. Left open by the spec: log entry 22 (DESIGN CHOICE). -/
def State.inVote (s : State) (c : Crew) : Bool := s.strands.any fun t => t.key.crew == c.uid && t.inVote

/-- Whether a launch is urgent toward a crew, and whether it takes turns with it (R313). -/
def Launch.urgent (l : Launch) (c : Crew) : Bool := decide (6 ≤ l.level) && decide (c.placedLevel ≤ 3)
def State.takesTurn (s : State) (l : Launch) (c : Crew) : Bool :=
  fieldOf (s.part l.part 0) 47 40 != 0 && l.quantum && c.placedLevel == l.level

/-- Whether a crew may be evicted for a launch (R313). Left open by the spec: log entry 24 (DESIGN CHOICE). -/
def State.evictable (s : State) (l : Launch) (c : Crew) : Bool :=
  c.part == l.part && c.place == CrewWhere.placed && !s.closedGate c && !s.inVote c &&
    (l.urgent c || s.takesTurn l c)

/-- A crew that turn-taking evicts has run 2^QUANTUM cycles since its last placement or restore: its core's CYCLES has
come so far by then (R313). Left open by the spec: log entry 2 (DESIGN CHOICE). -/
def State.ranQuantum (s : State) (l : Launch) (c : Crew) : State :=
  let q := 2 ^ fieldOf (s.part l.part 0) 47 40
  if l.urgent c || decide (q ≤ (s.coreCycles c.core - c.since).toNat) then s
  else { s with cycles := mapSet 0 c.core (c.since + num q) s.cycles }

/-- The sublists of a list. -/
def sublistsOf {α : Type} : List α → List (List α)
  | [] => [[]]
  | x :: xs => sublistsOf xs ++ (sublistsOf xs).map (x :: ·)

/-- Whether a launch's next crew fits a core with crews gone from it. -/
def State.fitsWithout (s : State) (l : Launch) (core : Nat) (gone : List Nat) : Bool :=
  match s.savedNext l with
  | [] => s.fitsNew l core gone
  | cs => cs.any fun c => s.fitsSaved c core gone

/-- How eviction prefers a set of crews: the fewest, then the lowest placement level, then the latest placed. -/
def evictBefore (a b : List Crew) : Bool :=
  let level (cs : List Crew) : Nat := ((cs.map (·.placedLevel)).max?).getD 0
  let latest (cs : List Crew) : Nat := ((cs.map (·.order)).max?).getD 0
  decide (a.length < b.length ∨ (a.length = b.length ∧
    (level a < level b ∨ (level a = level b ∧ latest b < latest a))))

/-- The best of a list of sets of crews. -/
def bestOf : List (List Crew) → Option (List Crew)
  | [] => none
  | a :: as => match bestOf as with
    | none => some a
    | some b => some (if evictBefore b a then b else a)

/-- The crews to evict on a core so that the next crew of a launch fits it.
Left open by the spec: log entry 23 (DESIGN CHOICE). -/
def State.victimsOn (s : State) (l : Launch) (core : Nat) : Option (List Crew) :=
  let cs := s.crews.filter fun c => c.core == core && s.evictable l c
  bestOf ((sublistsOf cs).filter fun v => s.fitsWithout l core (v.map (·.uid)))

/-- Insertion by preference. -/
def insertBest (v : List Crew) : List (List Crew) → List (List Crew)
  | [] => [v]
  | w :: ws => if evictBefore v w then v :: w :: ws else w :: insertBest v ws

/-- The crews a launch may evict: on the core that needs the fewest evictions, or for three copies on the three best
cores of different clusters. -/
def State.victims (s : State) (l : Launch) : List Crew :=
  let perCluster := (s.openClusters l).filterMap fun c =>
    bestOf (((List.range 16).map fun i => 16 * c + i).filterMap fun core =>
      if s.keptCore l core then none else s.victimsOn l core)
  let order := perCluster.foldl (fun ws v => insertBest v ws) []
  let n := if l.record.voted then 3 else 1
  if order.length < n then [] else (order.take n).flatten

/-- A crew begins to leave its core: no strand of it issues again. -/
def State.startLeaving (s : State) (c : Crew) (place : CrewWhere) : State := s.onCrew c.uid fun d => { d with place := place }

/-- Whether a crew's queues are drained, and no register waits for an answer. -/
def State.drained (s : State) (c : Crew) : Bool :=
  (s.strands.all fun t => t.key.crew != c.uid || (t.entries.isEmpty && t.asked.isEmpty)) &&
    !(s.matrix.any fun m => m.2.1 == c.uid)

/-- Whether nothing of a crew's queues can still perform: each is empty or closed by a gate at its head (R216), which a
frozen crew keeps. Left open by the spec: log entry 24 (DESIGN CHOICE). -/
def State.drainedToGates (s : State) (c : Crew) : Bool :=
  (s.strands.all fun t => t.key.crew != c.uid || (t.asked.isEmpty && (List.range 8).all fun i =>
    let h := BitVec.ofNat 3 i
    match (t.queue h).head? with
    | none => true
    | some e => match e.body with
      | .gate _ => (s.stepGate t.key h).isNone
      | .load _ | .store _ | .atomic _ | .transfer _ | .tag _ | .bar _ | .copy _ | .ring _ => false)) &&
    !(s.matrix.any fun m => m.2.1 == c.uid)

/-- Eviction for a launch. -/
def State.evictFor (s : State) (launch : Nat) : Option State :=
  match s.launch? launch with
  | none => none
  | some l =>
    let vs := (s.victims l).flatMap fun c => s.copiesOf c.uid
    if (s.part l.part 0).getLsbD 62 && s.takesPart l && !s.fitsNext l && !vs.isEmpty &&
        vs.all (fun c => c.place == CrewWhere.placed && !s.closedGate c && !s.inVote c) &&
        decide (vs.length + s.leaving l.part .evicting ≤ (s.freeSaves l.part).length) then
      some (vs.foldl (fun (s : State) (c : Crew) => (s.ranQuantum l c).startLeaving c .evicting) s)
    else none

/-- The PREEMPT record of an eviction (R313, R317). -/
def State.preemptEvent (s : State) (c : Crew) : State :=
  match s.launch? c.launch with
  | some l => s.launchEvent l EventRec.preempt 0 (num c.index) (num c.core)
  | none => s

/-- An evicted crew saved, with its copies; one that leaves a cluster which is given back, and that has become bound to
its core since, is discarded (R36, R351). -/
def State.saveEvicted (s : State) (crew : Nat) (slots : List Nat) : Option State :=
  let cs := s.copiesOf crew
  if !cs.isEmpty && cs.all (fun c => c.place == CrewWhere.evicting && s.drained c) && slots.length == cs.length &&
      slots.eraseDups.length == slots.length &&
      (cs.zip slots).all (fun x => (s.freeSaves x.1.part).contains x.2) then
    match cs.find? fun c => mapGet 0 (c.core / 16) s.releasing != 0 && s.bound c with
    | some c => some (s.freshWord.2.discardFault c Cause.remote 0 s.freshWord.1)
    | none => some ((cs.zip slots).foldl (fun (s : State) (x : Crew × Nat) => (s.saveCrew x.1 x.2 false).preemptEvent x.1) s)
  else none

/-- A crew of a partition with PREEMPT set that is not bound to its core leaves a cluster in QUIESCING, when a save
slot is free; one with a closed gate only once it opens (R216, R382). -/
def State.evictQuiesced (s : State) (crew : Nat) : Option State :=
  (s.crew? crew).bind fun c =>
    if c.place == CrewWhere.placed && s.cpState (c.core / 16) == 1 && (s.part c.part 0).getLsbD 62 && !s.bound c &&
        !s.closedGate c && !s.inVote c &&
        decide (1 + s.leaving c.part .evicting ≤ (s.freeSaves c.part).length) then
      some (s.startLeaving c .evicting)
    else none

def State.stepPreempt (s : State) (e : Eviction) : Option State :=
  match e with
  | .evict launch => s.evictFor launch
  | .quiesce crew => s.evictQuiesced crew
  | .save crew slots => s.saveEvicted crew slots

/-- PREEMPT (R35, R313). -/
def execPreempt (e : Eviction) (s : State) : Res := taken (s.stepPreempt e)

/-- QUANTUM_EXPIRY (R313): a launch has taken part for 2^QUANTUM cycles without placing a crew. -/
def State.stepQuantumExpiry (s : State) (launch : Nat) : Option State :=
  match s.launch? launch with
  | none => none
  | some l =>
    if s.takesPart l && !l.quantum && fieldOf (s.part l.part 0) 47 40 != 0 then
      some (s.onLaunch launch fun l => { l with quantum := true })
    else none

def execQuantumExpiry (launch : Nat) (s : State) : Res := taken (s.stepQuantumExpiry launch)

/-! ### The hang watchdog (R318 to R320) -/

/-- What a wait map says of a wait (R319): the kind and the object where the spec gives the wait one, the handle, the
value; none for a wait that neither R29 nor R161 lists and that ends by itself.
Left open by the spec: log entry 24 (DESIGN CHOICE). -/
def State.waitEntry (s : State) (t : Strand) (w : Wait) : Option (Option Nat × Nat × Option Word × Word) :=
  let first (rs : List Ref) : Nat := match rs with
    | r :: _ => r.h.toNat
    | [] => 0
  match w with
  | .tile _ tile _ _ _ | .take tile _ _ _ _ => some (some 1, 0, some (gtOf t.core tile), (s.tag t.core tile).word)
  | .barrier bar _ phase _ _ => some (some 2, 0, some (num (t.core * 128 + bar)), phase.setWidth 64)
  | .handles refs h _ _ => some (some 3, (match h with | some i => BitVec.toNat i | none => first refs), none, 0)
  | .items refs _ => some (some 3, first refs, none, 0)
  | .candidate _ ring _ => some (some 4, 0, some ring, 0)
  | .ringUnit _ fn ring _ _ _ _ => if fn = 3 then some (some 4, 0, some ring, 0) else none
  | .regs _ _ => some (some 5, 0, none, 0)
  | .event _ _ _ _ => some (some 6, 0, none, 0)
  | .queue h _ => some (some 7, h.toNat, none, 0)
  | .engineSlots => some (some 8, 0, none, 0)
  | .hostPage _ a | .ats _ a => some (some 9, 0, some a.addr, 0)
  | .voteBuffer a => some (some 10, 0, some (num a), 0)
  | .removal _ => some (none, 0, none, 0)
  | .walk _ _ | .vote _ | .record _ _ _ _ _ _ | .matrix _ | .ringPage _ _ _ | .controller _ => none

/-- Whether a live strand stands in a wait of R29 or R161 that nothing ends and no event.
Left open by the spec: log entry 24 (DESIGN CHOICE). -/
def State.stuck (s : State) (t : Strand) : Bool :=
  match t.wait with
  | none => false
  | some w =>
    (s.waitEntry t w).isSome && t.deferred.isEmpty && !t.hasEvent && ((s.select t.key).waitEnd w .none).isNone

/-- Whether the watchdog limit may expire for a crew: it has live strands, and each is stuck.
Left open by the spec: log entry 24 (DESIGN CHOICE). -/
def State.hung (s : State) (c : Crew) : Bool :=
  let ts := s.strands.filter fun t => t.key.crew == c.uid && t.live
  fieldOf (s.part c.part 0x028) 47 0 != 0 && c.place == CrewWhere.placed && !ts.isEmpty && ts.all s.stuck && !s.inVote c

def State.frozenFree (s : State) (p : Nat) : List Nat := (List.range 16).filter fun n => s.slotFree p n && s.slotOk p n

/-- The bytes of a wait map (R319), as far as CREW_SIZE reaches; the object of a wait on a register, a handle, an event
or an engine slot is a free value, and so is the kind of TLBI's.
Left open by the spec: log entry 24 (DESIGN CHOICE). -/
def State.waitMap (s : State) (c : Crew) : List Byte :=
  let lid := ((s.launch? c.launch).map fun l => launchId l.queue l.seq).getD 0
  let ts := s.strands.filter fun t => t.key.crew == c.uid
  let live := ts.countP (·.live)
  let entry (i : Nat) : List Byte :=
    match ts.find? fun t => t.key.idx == i && t.live with
    | none => List.replicate 32 0
    | some t =>
      let e := ((t.wait.bind fun w => s.waitEntry t w)).getD (some 0, 0, none, 0)
      bytesOf 8 (e.1.getD ((Config.freeWord (s.free + 16 + i)).toNat % 256) + 256 * e.2.1) ++
        bytesOf 8 (e.2.2.1.getD (Config.freeWord (s.free + i))).toNat ++ bytesOf 8 e.2.2.2.toNat ++ bytesOf 8 t.pc.toNat
  bytesOf 8 lid.toNat ++ bytesOf 8 c.index ++ bytesOf 8 c.core ++ bytesOf 8 live ++ List.replicate 32 0 ++
    (List.range c.size).flatMap entry

/-- A block of bytes of one page that the dispatcher writes at a virtual address, 64 bytes at a time; a part whose
address faults is not written. The answer of one that waits for a translation or a host page is that of the whole step.
-/
def State.dispatcherWrite (s : State) (w : Who) (va : Word) (bs : List Byte) : Nat → Except (Option State) State
  | 0 => .ok s
  | fuel + 1 =>
    if bs.isEmpty then .ok s
    else
      match s.xlateUnit w .store va with
      | .at pl pin => (s.unitWrite w pl pin va (bs.take 64) false).dispatcherWrite w (va + 64) (bs.drop 64) fuel
      | .fail _ _ | .miss _ => s.dispatcherWrite w (va + 64) (bs.drop 64) fuel
      | .ats k => .error (s.askUnit w k true)
      | .page k => .error (s.askUnit w k false)

/-- The address of the wait map of a slot. -/
def State.mapAddr (s : State) (p slot : Nat) : Word := (s.part p 0x030 &&& bitsMask 63 14) + num (1024 * slot)

/-- The dispatcher as the writer of a crew's wait map. -/
def State.mapWho (s : State) (c : Crew) : Who := s.dispatcherWho c.part (fieldOf (s.part c.part 0x050) 15 0) (2 * c.uid + 2)

/-- A crew's wait map written, or what the dispatcher has to ask the host for first. -/
def State.writeMap (s : State) (c : Crew) (slot : Nat) : Except (Option State) State :=
  (s.dispatcherWrite (s.mapWho c) (s.mapAddr c.part slot) (s.waitMap c) 16).map fun t =>
    t.forgetPage (s.mapWho c) (s.mapAddr c.part slot)

/-- One frozen crew: its wait map written, saved, its slot's bit set and its HANG event written.
Left open by the spec: log entry 24 (DESIGN CHOICE). -/
def State.freezeOne (s : State) (c : Crew) (slot : Nat) : State :=
  let p := c.part
  let s := match s.writeMap c slot with
    | .ok t => t
    | .error _ => s
  let s := { s with free := s.free + 32 }.saveCrew c slot true
  let s := s.setPart p 0x038 (withBit (s.part p 0x038) slot true)
  match s.launch? c.launch with
  | some l => s.launchEvent l EventRec.hang 0 (num slot) (s.mapAddr p slot)
  | none => s

/-- What the dispatcher has to ask the host for before the wait maps of crews can be written, if anything. -/
def State.mapsAsk? (s : State) (xs : List (Crew × Nat)) : Option (Option State) :=
  xs.findSome? fun x => match s.writeMap x.1 x.2 with
    | .error asked => some asked
    | .ok _ => none

/-- HANG (R318): the count expires and the crew begins to leave; once drained, as far as closed gates let it (R216), and
once the wait map of every copy can be written, it is saved in frozen slots. With too few free slots it stays and LOSTEV
counts. Left open by the spec: log entry 24 (DESIGN CHOICE). -/
def State.stepHang (s : State) (crew : Nat) (slots : List Nat) : Option State :=
  let cs := s.copiesOf crew
  match cs with
  | [] => none
  | c :: _ =>
    if cs.all fun c => s.hung c then
      if (s.frozenFree c.part).length < cs.length + s.leaving c.part .freezing then
        some (s.setPart c.part 0x048 (num ((fieldOf (s.part c.part 0x048) 31 0 + 1) % 2 ^ 32)))
      else some (cs.foldl (fun (s : State) (c : Crew) => s.startLeaving c .freezing) s)
    else if cs.all (fun c => c.place == CrewWhere.freezing && s.drainedToGates c) && slots.length == cs.length &&
        slots.eraseDups.length == slots.length && slots.all (fun n => (s.frozenFree c.part).contains n) then
      match s.mapsAsk? (cs.zip slots) with
      | some asked => asked
      | none => some ((cs.zip slots).foldl (fun (s : State) (x : Crew × Nat) => s.freezeOne x.1 x.2) s)
    else none

def execHang (crew : Nat) (slots : List Nat) (s : State) : Res := taken (s.stepHang crew slots)

/-- The crew in a frozen slot of a partition. -/
def State.frozenCrew? (s : State) (p slot : Nat) : Option Crew :=
  s.crews.find? fun c => c.part == p && c.place == CrewWhere.frozen slot

/-- A WATCHDOG event in the image of each live strand, behind those pending there; a full queue sends it to the
partition (R320, R340). -/
def State.watchdogOne (s : State) (c : Crew) (slot : Nat) : State :=
  c.out.foldl (fun (s : State) (o : StrandOut) =>
    let a := s.storeAddr (s.saveSlot c.part slot) + 0x1000 + 0x4000 * o.idx
    let used := (List.range 8).countP fun q => s.dev.readWord (a + 0x2C0 + 32 * q) 8 != 0
    if !o.live then s
    else if used < 8 then
      { s with
          dev := s.dev.store (a + 0x2C0 + 32 * used)
            (bytesOf 8 Cause.watchdog ++ bytesOf 8 0 ++ bytesOf 8 slot ++ bytesOf 8 0) false }
    else
      let st := s.dev.readWord (a + 0x2A0) 8
      { s with dev := s.dev.store (a + 0x2A0) (bytesOf 8 (withBit st 5 true).toNat) false }.crewFault c Cause.watchdog
        (num slot) 0) s

/-- RESUME (R320): CMD 1 written to PDFROZ; ignored where the slot holds no frozen crew. The slot holds the image until
the crew is restored; WATCHDOG's TRAP_INFO is the slot (R339). Left open by the spec: log entry 24 (DESIGN CHOICE). -/
def State.resumeSlot (s : State) (p slot : Nat) : State :=
  match s.frozenCrew? p slot with
  | none => s
  | some c =>
    let s := s.setPart p 0x038 (withBit (s.part p 0x038) slot false)
    (s.watchdogOne c slot).onCrew c.uid fun d => { d with place := .saved slot }

/-- A writer in the secure world (R356). -/
def State.secureAgent (s : State) (by_ : Agent) : Bool :=
  match by_ with
  | .insole => true
  | .fn n => s.fnSecure.contains n

/-- Whether a writer is function 0, which manages the device (R300). -/
def isManager : Agent → Bool
  | .fn 0 => true
  | .fn _ | .insole => false

/-- Whether a writer reaches the registers of a partition (R300, R350, R357): Insole, function 0, or the function that
serves it; of a secure partition, secure ones. -/
def State.mayWrite (s : State) (by_ : Agent) (p : Nat) : Bool :=
  (match by_ with
    | .fn 0 | .insole => true
    | .fn n => decide (n ≤ 16) && s.partFn p == n) && (s.secureAgent by_ || !s.partSecure p)

def execResume (by_ : Agent) (p slot : Nat) (s : State) : Res :=
  .next (if s.mayWrite by_ p && decide (p < 16) then s.resumeSlot p slot else s)

/-- KILL (R320). -/
def State.killSlot (s : State) (p slot : Nat) : State :=
  match s.frozenCrew? p slot with
  | none => s
  | some c => s.discardCrew c.uid

def execKill (by_ : Agent) (p slot : Nat) (s : State) : Res :=
  .next (if s.mayWrite by_ p && decide (p < 16) then s.killSlot p slot else s)

/-! ### Tear-down (R321, R322) -/

/-- Step T: rings off, no strand issues, jobs aborted, records and crews discarded and counted. -/
def State.tearDown (s : State) (p : Nat) : State :=
  let mine := s.launches.filter fun l => l.part == p && !l.left
  let host := mine.countP fun l => decide (l.queue < 8192)
  let spawn := mine.length - host
  let crews := s.crews.filter fun c => c.part == p && c.place != CrewWhere.retired && c.place != CrewWhere.gone
  let s := s.setPart p 0x040 (bitsMask 63 63)
  let s := (List.range 64).foldl (fun (s : State) (n : Nat) =>
    if s.ownsRing p n && s.rgEnabled n then s.disableRing n else s) s
  let s := crews.foldl (fun (s : State) (c : Crew) => s.discardOne c) s
  let abort : Job → Job := fun j => if j.part = p ∧ j.state.alive then { j with abort := true } else j
  let s := { s with
    jobs := s.jobs.map abort
    launches := s.launches.map fun l => if l.part = p ∧ !l.finished then { l with finished := true, dropped := true } else l }
  let s := (mine.map (·.queue)).eraseDups.foldl (fun (s : State) (q : Nat) => s.moveHead q) s
  s.setDispatcher p { s.dispatcher p with tearing := true, hostDiscards := host, spawnDiscards := spawn, stopped := crews.length }

/-- TEARDOWN: GO written to PDTEAR, which only function 0 may. -/
def execTeardown (by_ : Agent) (p : Nat) (s : State) : Res :=
  .next (if isManager by_ ∧ s.mayWrite by_ p ∧ p < 16 ∧ !(s.dispatcher p).tearing then s.tearDown p else s)

/-- Whether nothing of a partition is left to perform: its crews' items are at their homes and its jobs done.
Left open by the spec: log entry 24 (DESIGN CHOICE). -/
def State.tornDown (s : State) (p : Nat) : Bool :=
  (s.crews.all fun c => c.part != p || c.place == CrewWhere.retired ||
    (s.strands.all fun t => t.key.crew != c.uid || t.entries.isEmpty)) &&
    !(s.outstanding.any fun r => (s.crew? r.key.crew).any fun c => c.part == p) &&
    !(s.jobs.any fun j => j.part == p && s.jobAlive j)

/-- TEARDOWN_DONE: the TEARDOWN event, then DONE; what the crews held is free. -/
def State.stepTeardownDone (s : State) (p : Nat) : Option State :=
  let d := s.dispatcher p
  if p < 16 ∧ d.tearing ∧ !(s.part p 0x040).getLsbD 62 ∧ s.tornDown p then
    let s := (s.crews.filter fun c => c.part == p && c.place != CrewWhere.retired).foldl State.retireOne s
    let s := s.report p ⟨EventRec.teardown, 0xFFFF, 0, 0, num (d.hostDiscards + 2 ^ 32 * d.spawnDiscards), num d.stopped⟩
    some (s.setPart p 0x040 (withBit (s.part p 0x040) 62 true))
  else none

def execTeardownDone (p : Nat) (s : State) : Res := taken (s.stepTeardownDone p)

end Sys2Proof.Machine
end

