-- ==== Sys2Proof/Machine/Release.lean ====
section
/-!
DEFINITION. Release.lean: clusters given to partitions and taken back (R347, R348, R351, R352, R387).
-/

namespace Sys2Proof.Machine

/-- Crews whose place is a core of a cluster, not retired. -/
def State.crewsOf (s : State) (c : Nat) : List Crew :=
  s.crews.filter fun d => d.core / 16 == c && d.place != CrewWhere.retired

/-- A command that is not acted on (R348). -/
def State.clusterErr (s : State) (c : Nat) : State := s.setBarField (clpart c) 60 60 1

/-- CMD 1 of CLPART (R348). -/
def State.assign (s : State) (c p : Nat) : State :=
  let others := (List.range 96).filter fun d => d != c && s.clusterPart d == some p
  if s.clusterState c = 0 ∧ others.all (fun d => s.clusterSecure d == s.clusterSecure c) then
    (s.setBarField (clpart c) 63 62 1).setBarField (clpart c) 59 56 p
  else s.clusterErr c

/-- What step 2 of R351 does at Q to a crew that is on the cluster or has parked tiles there: it begins to leave; or it
is discarded, where it must return to its core or its partition has no slot for it. -/
def State.releaseCrew (s : State) (uid : Nat) : State :=
  match s.crew? uid with
  | none => s
  | some c =>
    if c.onCore then
      if s.bound c || decide (s.saveSlots c.part ≤ 16) then s.freshWord.2.discardFault c Cause.remote 0 s.freshWord.1
      else s.startLeaving c .evicting
    else if c.keep && c.place.slot?.isSome then s.freshWord.2.discardFault c Cause.remote 0 s.freshWord.1
    else s

/-- CMD 2 of CLPART (R351, R387): step Q, and the crews that leave.
Left open by the spec: log entry 34 (DESIGN CHOICE). -/
def State.releaseCluster (s : State) (c : Nat) : State :=
  if s.clusterState c = 1 ∧ s.cpState c = 0 then
    let s := s.setBarField (clpart c) 63 62 2
    let s := { s with releasing := mapSet 0 c 1 s.releasing }
    ((s.crewsOf c).map (·.uid)).foldl State.releaseCrew s
  else s.clusterErr c

/-- The command field of a write to CLPART. -/
def State.clusterCommand (s : State) (c cmd p : Nat) : State :=
  match cmd with
  | 0 => s
  | 1 => s.assign c p
  | 2 => s.releaseCluster c
  | _ => s.clusterErr c

/-- Whether a writer reaches a cluster's register: function 0, in the cluster's world (R357). -/
def State.reachesCluster (s : State) (by_ : Agent) (c : Nat) : Bool :=
  isManager by_ && decide (c < 96) && (s.secureAgent by_ || !s.clusterSecure c)

/-- ASSIGN and RELEASE (R348). -/
def execAssign (by_ : Agent) (c : Nat) (p : BitVec 4) (s : State) : Res :=
  .next (if s.reachesCluster by_ c then s.assign c p.toNat else s)
def execRelease (by_ : Agent) (c : Nat) (s : State) : Res :=
  .next (if s.reachesCluster by_ c then s.releaseCluster c else s)

/-- RELEASE_EVICT_DONE: no crew is left on the cluster, discarded ones aside, which step 4 waits for; step 3 begins, and
every keep-copy of the engine is aborted. Left open by the spec: log entry 34 (DESIGN CHOICE). -/
def State.stepReleaseEvictDone (s : State) (c : Nat) : Option State :=
  if mapGet 0 c s.releasing = 1 ∧ (s.crewsOf c).all (fun d => !d.onCore) then
    let abort : Job → Job := fun j => if j.engine = c ∧ j.keep.isSome ∧ j.state.alive then { j with abort := true } else j
    some { s with releasing := mapSet 0 c 2 s.releasing, jobs := s.jobs.map abort }
  else none

def execReleaseEvictDone (c : Nat) (s : State) : Res := taken (s.stepReleaseEvictDone c)

/-- The jobs of a cluster's engine that have not ended. -/
def State.engineJobs (s : State) (c : Nat) : List Job := s.jobs.filter fun j => j.engine == c && s.jobAlive j

/-- RELEASE_ENGINE_TIMEOUT: jobs that still wait are aborted. -/
def State.stepReleaseEngineTimeout (s : State) (c : Nat) : Option State :=
  if mapGet 0 c s.releasing = 2 ∧ !(s.engineJobs c).isEmpty then
    let abort : Job → Job := fun j => if j.engine = c ∧ j.state.alive then { j with abort := true } else j
    some { s with jobs := s.jobs.map abort }
  else none

def execReleaseEngineTimeout (c : Nat) (s : State) : Res := taken (s.stepReleaseEngineTimeout c)

/-- Whether a cluster holds nothing that is on its way: no job, no item in its eyelets, no store in its uplink. -/
def State.clusterIdle (s : State) (c : Nat) : Bool :=
  (s.engineJobs c).isEmpty && (s.strands.all fun t => t.isInsole || t.cluster != c || t.entries.isEmpty) &&
    !(s.uplinks.any fun e => e.cluster == c)

/-- What a cluster's SRAM holds set to zero, its copies and translations emptied (step 5).
Left open by the spec: log entry 34 (DESIGN CHOICE). -/
def State.scrub (s : State) (c : Nat) : State :=
  let mine (core : Nat) : Bool := core / 16 == c
  { s with
    tiles := s.tiles.zero (tileAddr (16 * c) 0 0) (16 * 2 ^ 20)
    tags := s.tags.filter fun t => !mine (t.1 / 256)
    bars := s.bars.filter fun b => !mine (b.1 / 128)
    copies := s.copies.filter fun k => match k.owner with
      | .core n => !mine n
      | .cluster n => n != c
    tlb := s.tlb.filter fun l => !(l.unit == 2000 + c || (decide (l.unit < 1536) && mine l.unit)) }

/-- RELEASE_DRAIN_DONE: step 4 ends, and the cluster is scrubbed in SCRUBBING; taken again, the scrub ends and the
cluster is free (steps 5 and 6). Crews discarded on the cluster end with it.
Left open by the spec: log entry 34 (DESIGN CHOICE). -/
def State.stepReleaseDrainDone (s : State) (c : Nat) : Option State :=
  if mapGet 0 c s.releasing = 2 ∧ s.clusterIdle c ∧ (s.crewsOf c).all (fun d => d.place != CrewWhere.gone) then
    some ({ s.scrub c with releasing := mapSet 0 c 3 s.releasing }.setBarField (clpart c) 63 62 3)
  else if mapGet 0 c s.releasing = 3 then
    let s := { s with releasing := mapSet 0 c 0 s.releasing }
    some ((s.setBarField (clpart c) 63 62 0).setBarField (clpart c) 59 56 0)
  else none

def execReleaseDrainDone (c : Nat) (s : State) : Res := taken (s.stepReleaseDrainDone c)

end Sys2Proof.Machine
end

