-- ==== Sys2Proof/Machine/Submit.lean ====
section
/-!
DEFINITION. Submit.lean: whether a host reaches BAR 0 (R403), and launch records that hosts submit: Deferrable Memory Writes
to BAR 2 (R304) and posted windows (R305, R306).
-/

namespace Sys2Proof.Machine

/-- Whether a writer reaches BAR 0 at all: a host function needs the host link (R403). -/
def State.barOpen (s : State) (by_ : Agent) : Bool :=
  match by_ with
  | .insole => true
  | .fn n => decide (n ≤ 16) && s.ready 40

/-- The partition of a queue (R303). -/
def State.queuePart (s : State) (q : Nat) : Nat := s.barField (queueReg q 0) 59 56

/-- WQERR with a bit set, and DROPS one higher where a record is dropped without a completion (R303). -/
def State.queueErr (s : State) (q bit : Nat) (dropped : Bool) : State :=
  let e := withBit (s.bar (queueReg q 0x18)) bit true
  s.setBar (queueReg q 0x18) (if dropped then withField e 31 0 (fieldOf e 31 0 + 1) else e)

def State.nextSeq (s : State) (q : Nat) : Nat := s.barField (queueReg q 0x10) 63 32

/-- Whether a queue's occupancy, NEXTSEQ − HEADSEQ, equals its capacity (R303). -/
def State.queueFull (s : State) (q : Nat) : Bool :=
  decide (2 ^ s.barField (queueReg q 0) 36 32 ≤
    (s.nextSeq q + 2 ^ 32 - s.barField (queueReg q 0x10) 31 0) % 2 ^ 32)

/-- Whether a queue takes submissions of a kind: EN, the method, and its partition not torn down (R304, R305, R321). -/
def State.queueOpen (s : State) (q : Nat) (posted : Bool) : Bool :=
  let cfg := s.bar (queueReg q 0)
  cfg.getLsbD 63 && cfg.getLsbD 62 == posted && !(s.dispatcher (s.queuePart q)).tearing

/-- A record takes NEXTSEQ and is checked (R24, R306): whether it joins its queue. A refused one sets INVALID and writes
an INVALID event. -/
def State.takeRecord (s : State) (q : Nat) (bs : List Byte) : State × Bool :=
  let p := s.queuePart q
  let seq := s.nextSeq q
  let s := s.setBarField (queueReg q 0x10) 63 32 (seq + 1)
  match s.refusal? p bs with
  | some c =>
    (((s.queueErr q 61 false).report p ⟨EventRec.invalid, q, 0, launchId q seq, num c, 0⟩).moveHead q, false)
  | none =>
    let base := (s.bar (queueReg q 8) &&& bitsMask 63 16).toNat
    (((s.storeRecord p base (2 ^ s.barField (queueReg q 0) 36 32) seq bs).letIn q seq p bs none).moveHead q, true)

/-- Whether a function serves a partition: function 0 reaches every one (R300, R350). -/
def State.serves (s : State) (by_ : Agent) (p : Nat) : Bool := s.mayWrite by_ p

/-- DMWR_SUBMISSION (R304): a write that reaches BAR 2. -/
def State.submit (s : State) (o : SubmitOp) : State :=
  let q := o.off / 64 % 8192
  if !s.barOpen o.agent then s
  else if !o.deferrable then s.queueErr q 60 true
  else if !s.queueOpen q false || !s.serves o.agent (s.queuePart q) || o.off % 64 != 0 || o.bytes.length != 64 then
    (s.queueErr q 60 false).send (.completion .unsupported)
  else if s.queueFull q then s.send (.completion .retry)
  else
    let r := s.takeRecord q o.bytes
    r.1.send (.completion (if r.2 then .success else .abort))

def execDmwrSubmission (o : SubmitOp) (s : State) : Res := .next (s.submit o)

/-- A read of `n` bytes of BAR 2 completes with zero data (R304). -/
def State.bar2Read (s : State) (n : Nat) : State :=
  if s.ready 40 then (s.send (.completion .success)).send (.data (List.replicate n 0) false) else s

/-- The 72 bytes of a posted window. -/
def State.window72 (s : State) (q : Nat) : List Byte := mapGet (List.replicate 72 0) q s.posted

/-- What the write that covers byte 71 does (R305). -/
def State.postedRecord (s : State) (q : Nat) : State :=
  let w := s.window72 q
  if !s.queueOpen q true then s.queueErr q 60 true
  else if fieldAt w 64 8 ≠ s.nextSeq q then s.queueErr q 62 true
  else if s.queueFull q then s.queueErr q 63 true
  else (s.takeRecord q (w.take 64)).1

/-- SEQ_WRITE (R305): bytes written at an offset of a posted window; the write acts if it covers byte 71. -/
def State.writePosted (s : State) (by_ : Agent) (q off : Nat) (bs : List Byte) : State :=
  if !s.barOpen by_ || !s.ready 42 || !s.serves by_ (s.queuePart q) then s
  else
    let old := s.window72 q
    let new := old.zipIdx.map fun b => if off ≤ b.2 ∧ b.2 < off + bs.length then bs.getD (b.2 - off) 0 else b.1
    let s := { s with posted := mapSet (List.replicate 72 0) q new s.posted }
    if off ≤ 71 ∧ 71 < off + bs.length then s.postedRecord q else s

def execSeqWrite (by_ : Agent) (q : BitVec 13) (off : Nat) (bs : List Byte) (s : State) : Res :=
  .next (s.writePosted by_ q.toNat off bs)

end Sys2Proof.Machine
end

