-- ==== Sys2Proof/Machine/HostBar.lean ====
section
/-!
DEFINITION. HostBar.lean: the registers of BAR 0 as they are written and read (R300, R301, R303, R307, R325, R347, R353,
R358 to R364, R369, R370, R378, R397, R398, R403, R404, R408, R412), and BAR 4 (R300).
-/

namespace Sys2Proof.Machine

/-! ### Access -/

/-- A write of the bits of a mask. -/
def State.writeMask (s : State) (off : Nat) (mask w : Word) : State :=
  s.setBar off ((s.bar off &&& ~~~mask) ||| (w &&& mask))

/-- A write of 1 clears (R6). -/
def State.writeClear (s : State) (off : Nat) (mask w : Word) : State := s.setBar off (s.bar off &&& ~~~(w &&& mask))

/-- The bit of READY0 of the part whose registers an offset of BAR 0 belongs to (R403, R404). -/
def partBit (off : Nat) : Option Nat :=
  if 0x3000 ≤ off ∧ off < 0x3300 then some (18 + (off - 0x3000) / 0x40)
  else if 0x100000 ≤ off ∧ off < 0x110000 then some 42
  else if 0x1000000 ≤ off ∧ off < 0x1900000 then some 42
  else if 0x320400 ≤ off ∧ off < 0x320440 then some (32 + (off - 0x320400) / 8)
  else if 0x330000 ≤ off ∧ off < 0x330100 then some (30 + (off - 0x330000) / 0x80)
  else if 0x338000 ≤ off ∧ off < 0x33A000 then some (30 + (off - 0x338000) / 0x1000)
  else if 0x350000 ≤ off ∧ off < 0x350800 then some ((off - 0x350000) / 0x100)
  else if 0x360000 ≤ off ∧ off < 0x370000 then some ((off - 0x360000) / 0x2000)
  else if 0x370000 ≤ off ∧ off < 0x370800 then some (10 + (off - 0x370000) / 0x100)
  else if 0x2000000 ≤ off ∧ off < 0x2080000 then some ((off - 0x2000000) / 0x10000)
  else none

def State.partUp (s : State) (off : Nat) : Bool :=
  match partBit off with
  | some b => s.ready b
  | none => true

/-! ### Queue blocks (R303) -/

/-- WQCFG: PART through function 0 only; LOG2DEPTH and PART not while EN is 1; EN is not set with WEIGHT 0 or a depth
out of range. -/
def State.writeWqcfg (s : State) (by_ : Agent) (q : Nat) (w : Word) : State :=
  let old := s.bar (queueReg q 0)
  let en := old.getLsbD 63
  let new := withField (withBit old 62 (w.getLsbD 62)) 15 8 (fieldOf w 15 8)
  let new := if en then new else withField new 36 32 (fieldOf w 36 32)
  let new := if en || !isManager by_ then new else withField new 59 56 (fieldOf w 59 56)
  let ok := en || (fieldOf new 15 8 != 0 && decide (fieldOf new 36 32 ≤ 12))
  s.setBar (queueReg q 0) (withBit new 63 (w.getLsbD 63 && ok))

def State.writeQueue (s : State) (by_ : Agent) (q r : Nat) (w : Word) : State :=
  match r with
  | 0x00 => s.writeWqcfg by_ q w
  | 0x08 => if (s.bar (queueReg q 0)).getLsbD 63 then s else s.writeMask (queueReg q 8) (bitsMask 63 16) w
  | 0x18 => s.writeClear (queueReg q 0x18) (bitsMask 63 60) w
  | _ => s

/-! ### Partition blocks (R307, R324, R341, R350, R394) -/

/-- The conditions under which PDCFG.EN may be set, with PDCFG `w`. -/
def State.pdcfgOk (s : State) (p : Nat) (w : Word) : Bool :=
  let within (n lo hi : Nat) : Bool := decide (lo ≤ n ∧ n ≤ hi)
  let quantum := fieldOf w 47 40
  let slot := fieldOf (s.part p 0x010) 11 8
  within (fieldOf w 23 16) 8 40 && within (fieldOf w 55 48) 1 255 && within (fieldOf w 28 24) 4 24 &&
    (quantum == 0 || within quantum 10 40) && within slot 1 14 && within (fieldOf (s.part p 0x010) 5 0) (16 + slot) 46 &&
    within (fieldOf (s.part p 0x018) 4 0) 4 16 && within (fieldOf (s.part p 0x058) 4 0) 4 12 &&
    within (fieldOf (s.part p 0x068) 5 0) 10 30 && s.part p 0x070 &&& ~~~7#64 != 0

/-- PDCFG: EN through function 0 only; SPWEIGHT fixed while EN is 1. A partition that is enabled anew is no longer torn
down, once its tear-down has ended. Left open by the spec: log entry 24 (DESIGN CHOICE). -/
def State.writePdcfg (s : State) (by_ : Agent) (p : Nat) (w : Word) : State :=
  let old := s.part p 0
  let en := old.getLsbD 63
  let new := withField (withField (withField (withBit old 62 (w.getLsbD 62)) 47 40 (fieldOf w 47 40)) 28 24
    (fieldOf w 28 24)) 23 16 (fieldOf w 23 16)
  let new := if en then new else withField new 55 48 (fieldOf w 55 48)
  if !isManager by_ then s.setPart p 0 new
  else
    let on := w.getLsbD 63 && (en || s.pdcfgOk p new)
    let s := s.setPart p 0 (withBit new 63 on)
    let ended := !(s.dispatcher p).tearing || (s.part p 0x040).getLsbD 62
    if on && !en && ended then (s.setPart p 0x040 0).setDispatcher p { s.dispatcher p with tearing := false } else s

/-- PDFROZ: the command acts on the slot (R320). -/
def State.writePdfroz (s : State) (p : Nat) (w : Word) : State :=
  match fieldOf w 21 20 with
  | 1 => s.resumeSlot p (fieldOf w 19 16)
  | 2 => s.killSlot p (fieldOf w 19 16)
  | _ => s

/-- Whether a partition has clusters, those on their way back too; a world that its windows and regions share (R356). -/
def State.hasClusters (s : State) (p : Nat) : Bool := (List.range 96).any fun c => s.clusterPart c == some p
def State.worldFits (s : State) (p : Nat) (secure : Bool) : Bool := !s.hasClusters p || secure == s.partSecure p

/-- A window of R364: while EN is 1 only EN is cleared; EN is not set on a range, alignment, overlap or node that R364
forbids; an enabling write in a world other than the partition's has no effect (R356).
Left open by the spec: log entry 26 (DESIGN CHOICE). -/
def State.windowOk (s : State) (p n : Nat) (cfg : Word) : Bool :=
  let l := fieldOf cfg 5 0
  let base := (s.bar (windowReg p n 8)).toNat
  let remote := (s.bar (windowReg p n 16)).toNat
  let meets (m : Nat) : Bool :=
    let c := s.bar (windowReg p m 0)
    let b := (s.bar (windowReg p m 8)).toNat
    m != n && c.getLsbD 63 && fieldOf c 5 0 != 0 && l != 0 && decide (base < b + 2 ^ fieldOf c 5 0 ∧ b < base + 2 ^ l)
  (l == 0 || decide (16 ≤ l ∧ l ≤ 50 ∧ base % 2 ^ l = 0 ∧ remote % 2 ^ l = 0 ∧ 2 ^ 51 ≤ base ∧ base + 2 ^ l ≤ 2 ^ 52)) &&
    !((List.range 64).any meets) && fieldOf cfg 43 32 != s.barField 0x2000 11 0

def State.writeWindow (s : State) (p n r : Nat) (w : Word) : State :=
  let off := windowReg p n 0
  let cfg := s.bar off
  if cfg.getLsbD 63 then (if r = 0 ∧ !w.getLsbD 63 then s.setBar off (withBit cfg 63 false) else s)
  else
    match r with
    | 0x00 =>
      let mask := bitsMask 62 62 ||| bitsMask 59 56 ||| bitsMask 43 32 ||| bitsMask 5 0
      let new := (cfg &&& ~~~mask) ||| (w &&& mask)
      if w.getLsbD 63 && !s.worldFits p (cfg.getLsbD 61) then s
      else s.setBar off (withBit new 63 (w.getLsbD 63 && s.windowOk p n new))
    | 0x08 => s.writeMask (windowReg p n 8) (bitsMask 51 16) w
    | 0x10 => s.writeMask (windowReg p n 16) (bitsMask 51 16) w
    | _ => s

/-- Whether the world of an entry, its bit `i`, lets a writer reach it (R357). -/
def State.reachesEntry (s : State) (by_ : Agent) (off i : Nat) : Bool := s.secureAgent by_ || !(s.bar off).getLsbD i

/-- WORLD of an entry, which Insole alone writes, and only while the entry is not in use (R356). -/
def State.writeWorld (s : State) (off world use : Nat) (w : Word) : State :=
  if (s.bar off).getLsbD use then s else s.setBar off (withBit (s.bar off) world (w.getLsbD world))

def State.writePart (s : State) (by_ : Agent) (p r : Nat) (w : Word) : State :=
  let fixed (mask : Word) : State := if (s.part p 0).getLsbD 63 then s else s.writeMask (partReg p r) mask w
  if 0x800 ≤ r then
    let n := (r - 0x800) / 32
    if by_ = .insole then (if r % 32 = 0 then s.writeWorld (windowReg p n 0) 61 63 w else s)
    else if isManager by_ && s.reachesEntry by_ (windowReg p n 0) 61 then s.writeWindow p n (r % 32) w
    else s
  else
    match r with
    | 0x000 => s.writePdcfg by_ p w
    | 0x008 => fixed (bitsMask 63 16 ||| bitsMask 4 0)
    | 0x010 => fixed (bitsMask 63 16 ||| bitsMask 11 8 ||| bitsMask 5 0)
    | 0x018 => fixed (bitsMask 63 6 ||| bitsMask 4 0)
    | 0x020 => s.writeMask (partReg p r) (bitsMask 63 32) w
    | 0x028 => s.writeMask (partReg p r) (bitsMask 47 0) w
    | 0x030 => fixed (bitsMask 63 14)
    | 0x038 => s.writePdfroz p w
    | 0x040 => if w.getLsbD 63 && isManager by_ && !(s.dispatcher p).tearing then s.tearDown p else s
    | 0x050 => fixed (bitsMask 15 0)
    | 0x058 => fixed (bitsMask 51 21 ||| bitsMask 4 0)
    | 0x060 => if isManager by_ && decide (fieldOf w 4 0 ≤ 16) then fixed (bitsMask 4 0) else s
    | 0x068 => fixed (bitsMask 5 0)
    | 0x070 => s.writeMask (partReg p r) (bitsMask 63 3) w
    | 0x078 => s.setBar (partReg p r) w
    | _ => s

/-! ### The device-wide registers -/

/-- CLPART: ERR; the command (R347). -/
def State.writeClpart (s : State) (c : Nat) (w : Word) : State :=
  (s.writeClear (clpart c) (bitsMask 60 60) w).clusterCommand c (fieldOf w 9 8) (fieldOf w 3 0)

/-- Whether region `r` may be made valid with MRBASE `w` (R353).
Left open by the spec: log entry 26 (DESIGN CHOICE). -/
def State.regionOk (s : State) (r : Nat) (w : Word) : Bool :=
  let last := s.barField (0x310008 + 16 * r) 51 21
  let meets (m : Nat) : Bool :=
    let b := s.bar (0x310000 + 16 * m)
    m != r && b.getLsbD 63 && decide (fieldOf b 51 21 ≤ last ∧ fieldOf w 51 21 ≤ s.barField (0x310008 + 16 * m) 51 21)
  decide (fieldOf w 51 21 ≤ last) && !((List.range 64).any meets)

/-- A region entry: while VALID is 1 only VALID is cleared (R353). A write of VALID in a world other than the
partition's has no effect (R356). -/
def State.writeRegion (s : State) (r : Nat) (lim : Bool) (w : Word) : State :=
  let off := 0x310000 + 16 * r
  let old := s.bar off
  if old.getLsbD 63 then (if !lim ∧ !w.getLsbD 63 then s.setBar off (withBit old 63 false) else s)
  else if lim then s.writeMask (off + 8) (bitsMask 51 21) w
  else
    let mask := bitsMask 59 56 ||| bitsMask 51 21
    let new := (old &&& ~~~mask) ||| (w &&& mask)
    if w.getLsbD 63 && !s.worldFits (fieldOf w 59 56) (old.getLsbD 62) then s
    else s.setBar off (withBit new 63 (w.getLsbD 63 && s.regionOk r new))

/-- RNGOWN and CKOWN (R358). -/
def State.writeOwner (s : State) (off : Nat) (w : Word) : State := s.writeMask off (bitsMask 63 63 ||| bitsMask 59 56) w

/-- PRPSTAT: EN; a port whose EN is cleared is no longer UP (R360, R401).
Left open by the spec: log entry 26 (DESIGN CHOICE). -/
def State.writePort (s : State) (p : Nat) (w : Word) : State :=
  let s := s.writeMask (portReg p 0) (bitsMask 62 62) w
  if w.getLsbD 62 then s else s.setBar (portReg p 0) 0

/-- Whether decoder `i` may be enabled with CXDCFG `w` (R369): a pair with IL2 has equal BASE and SIZE. -/
def State.decoderOk (s : State) (i : Nat) (w : Word) : Bool :=
  let j := if i < 4 then i + 4 else i - 4
  let other := s.bar (decoderReg j 0)
  !(other.getLsbD 63 && (other.getLsbD 61 || w.getLsbD 61)) ||
    (other.getLsbD 61 && w.getLsbD 61 && s.bar (decoderReg i 8) == s.bar (decoderReg j 8) &&
      s.bar (decoderReg i 16) == s.bar (decoderReg j 16))

/-- A CXL decoder (R369). -/
def State.writeDecoder (s : State) (i r : Nat) (w : Word) : State :=
  let off := decoderReg i 0
  match r with
  | 0x00 =>
    let old := s.bar off
    let mask := bitsMask 61 61
    let new := (old &&& ~~~mask) ||| (w &&& mask)
    s.setBar off (withBit new 63 (w.getLsbD 63 && (old.getLsbD 63 || s.decoderOk i new)))
  | 0x08 => s.writeMask (decoderReg i 8) (bitsMask 51 28) w
  | 0x10 => s.writeMask (decoderReg i 16) (bitsMask 51 28) w
  | _ => s

/-- HPCFG (R370): EN is not set with PERIOD or LOG2LIST out of range. -/
def State.writeHpcfg (s : State) (w : Word) : State :=
  let old := s.bar 0x340000
  let ok := old.getLsbD 63 || decide (20 ≤ fieldOf w 21 16 ∧ fieldOf w 21 16 ≤ 40 ∧ 4 ≤ fieldOf w 3 0 ∧ fieldOf w 3 0 ≤ 10)
  let s := s.setBar 0x340000 (withBit (w &&& (bitsMask 47 32 ||| bitsMask 21 16 ||| bitsMask 3 0)) 63 (w.getLsbD 63 && ok))
  if old.getLsbD 63 then s else { s with hot := [] }

/-- ERRCFG (R397): EN is not set with LOG2N out of range. -/
def State.writeErrcfg (s : State) (w : Word) : State :=
  let old := s.bar 0x371010
  let n := s.barField 0x371000 4 0
  let ok := old.getLsbD 63 || decide (4 ≤ n ∧ n ≤ 12)
  s.setBar 0x371010 (withBit (withField old 4 0 (fieldOf w 4 0)) 63 (w.getLsbD 63 && ok))

/-- A record of kind 5 (R397, R399). -/
def State.mapoutRecord (s : State) (d stage range : Nat) : State :=
  s.recordFree 5 d 0xFF (num (d * 2 ^ 36 + range * 2 ^ 32)) (some (num stage))

/-- GO of HBMO (R398, R399): acted on in IDLE, with RANGE below LAYERS and LAYERS above 1. VACATED is then yet to be
written. Left open by the spec: log entry 39 (DESIGN CHOICE). -/
def State.mapoutGo (s : State) (d : Nat) : State :=
  let mo := stackReg d 8
  let layers := s.barField (stackReg d 0) 4 0
  if s.barField mo 62 60 = 0 ∧ s.barField mo 7 4 < layers ∧ 1 < layers then
    ((s.setBarField mo 62 60 1 |>.setBarField mo 63 63 1).setBarField mo 0 0 0).mapoutRecord d 1 (layers - 1)
  else s

/-- VACATED is set (R6); in VACATE the driver says by it that the top range is empty, and the copy begins, which is
skipped where the top range is the one (R399). Left open by the spec: log entry 39 (DESIGN CHOICE). -/
def State.vacated (s : State) (d : Nat) : State :=
  let mo := stackReg d 8
  let s := s.setBarField mo 0 0 1
  if s.barField mo 62 60 = 1 ∧ s.barField mo 7 4 + 1 ≠ s.barField (stackReg d 0) 4 0 then s.setBarField mo 62 60 2 else s

/-- HBMO: RANGE in IDLE, then GO or VACATED. -/
def State.writeHbmo (s : State) (d : Nat) (w : Word) : State :=
  let mo := stackReg d 8
  let s := if s.barField mo 62 60 = 0 then s.setBarField mo 7 4 (fieldOf w 7 4) else s
  let s := if w.getLsbD 63 then s.mapoutGo d else s
  if w.getLsbD 0 then s.vacated d else s

/-- An entry of an engine port's table (R275). Left open by the spec: log entry 26 (DESIGN CHOICE). -/
def State.writeSlotTable (s : State) (off : Nat) (w : Word) : State :=
  if 2 < fieldOf w 14 12 ∨ 11 < fieldOf w 11 8 then s
  else s.writeMask off (bitsMask 15 8 ||| bitsMask 5 0) w

/-- XLINV (R325): ignored while BUSY; else the removal of every translation of the ASID starts. -/
def State.startXlinv (s : State) (w : Word) : State :=
  if (s.bar 0x404000).getLsbD 63 then s
  else
    let x := s.remove (.space (fieldOf w 15 0))
    let n := x.1.newId
    { n.2 with removals := ⟨n.1, x.2.1, x.2.2, none, true, none⟩ :: n.2.removals }.setBar 0x404000 (bitsMask 63 63)

/-- The registers that function 0 alone writes, or function 0 and Insole. -/
def State.writeWide (s : State) (by_ : Agent) (off : Nat) (w : Word) : State :=
  if off = 0x10 then s.writeMask off (bitsMask 51 30) w
  else if off = 0x200 then s.setBar off (num (min 2400 (fieldOf w 15 0)))
  else if off = 0x2000 then (if (List.range 12).any s.portUp then s else s.writeMask off (bitsMask 11 0) w)
  else if 0x3000 ≤ off ∧ off < 0x3300 then (if off % 0x40 = 0 then s.writePort ((off - 0x3000) / 0x40) w else s)
  else if 0x80000 ≤ off ∧ off < 0x88000 then s.writeMask off (bitsMask 63 63 ||| bitsMask 11 0) w
  else if 0x300000 ≤ off ∧ off < 0x300800 then
    let c := 12 * ((off - 0x300000) / 0x100) + off % 0x100 / 8
    if off % 0x100 < 96 ∧ s.reachesCluster by_ c then s.writeClpart c w else s
  else if 0x310000 ≤ off ∧ off < 0x310400 then
    let r := (off - 0x310000) / 16
    if s.reachesEntry by_ (0x310000 + 16 * r) 62 then s.writeRegion r (off % 16 == 8) w else s
  else if 0x320000 ≤ off ∧ off < 0x320200 then
    if s.reachesEntry by_ off 62 && !s.rgEnabled ((off - 0x320000) / 8) then s.writeOwner off w else s
  else if 0x320400 ≤ off ∧ off < 0x320440 then (if s.reachesEntry by_ off 62 then s.writeOwner off w else s)
  else if 0x330000 ≤ off ∧ off < 0x330100 then
    let i := (off - 0x330000) / 0x20
    if s.reachesEntry by_ (decoderReg i 0) 62 then s.writeDecoder i (off % 0x20) w else s
  else if off = 0x340000 then s.writeHpcfg w
  else if off = 0x340008 then s.writeMask off (bitsMask 63 6) w
  else if 0x350000 ≤ off ∧ off < 0x350800 then
    let c := 12 * ((off - 0x350000) / 0x100) + off % 0x100 / 0x10
    if off % 0x10 = 0 ∧ off % 0x100 < 0xC0 ∧ s.reachesCluster by_ c then s.setCp c 4 (s.cpWritten c 4 w) else s
  else if 0x370000 ≤ off ∧ off < 0x370800 then
    let d := (off - 0x370000) / 0x100
    match off % 0x100 with
    | 0x08 => s.writeHbmo d w
    | 0x10 => s.writeMask off (bitsMask 63 63 ||| bitsMask 55 48) w
    | _ => s
  else if off = 0x371000 then s.writeMask off (bitsMask 63 6 ||| bitsMask 4 0) w
  else if off = 0x371008 then s.writeMask off (bitsMask 63 32) w
  else if off = 0x371010 then s.writeErrcfg w
  else if 0x400000 ≤ off ∧ off < 0x404000 then
    s.writeMask off (if off % 16 = 0 then bitsMask 63 62 ||| bitsMask 59 56 ||| bitsMask 19 0 else bitsMask 51 16) w
  else if off = 0x404000 then s.startXlinv w
  else if 0x2000000 ≤ off ∧ off < 0x2080000 then s.writeSlotTable off w
  else s

/-- What Insole writes there: the WORLD of each entry (R356), and HBMO (R398). -/
def State.writeInsole (s : State) (off : Nat) (w : Word) : State :=
  if 0x300000 ≤ off ∧ off < 0x300800 then
    let c := 12 * ((off - 0x300000) / 0x100) + off % 0x100 / 8
    if off % 0x100 < 96 ∧ s.clusterState c = 0 then s.setBar off (withBit (s.bar off) 61 (w.getLsbD 61)) else s
  else if 0x310000 ≤ off ∧ off < 0x310400 then (if off % 16 = 0 then s.writeWorld off 62 63 w else s)
  else if (0x320000 ≤ off ∧ off < 0x320200) ∨ (0x320400 ≤ off ∧ off < 0x320440) then s.writeWorld off 62 63 w
  else if 0x330000 ≤ off ∧ off < 0x330100 then (if off % 0x20 = 0 then s.writeWorld off 62 63 w else s)
  else if 0x370000 ≤ off ∧ off < 0x370800 ∧ off % 0x100 = 0x08 then s.writeHbmo ((off - 0x370000) / 0x100) w
  else s

/-! ### A write of a register -/

/-- Whether an offset lies in the configuration window of an expander (R368). -/
def inCxlConfig (off : Nat) : Bool := decide (0x338000 ≤ off ∧ off < 0x33A000)

/-- A write of 32 bits to the configuration space of an expander (R368). -/
def State.writeCxlConfig (s : State) (off : Nat) (w : BitVec 32) : State :=
  s.send (.cxlConfig ((off - 0x338000) / 0x1000) (off % 0x1000) w)

/-- What an expander answers to a configuration read (R368), which a read of the window then returns.
Left open by the spec: log entry 26 (DESIGN CHOICE). -/
def State.cxlAnswer (s : State) (port off : Nat) (w : BitVec 32) : State :=
  if port < 2 ∧ off < 0x1000 ∧ off % 4 = 0 ∧ s.ready (30 + port) then
    s.setBar (0x338000 + 0x1000 * port + off) (w.setWidth 64)
  else s

/-- Whether an offset holds the WORLD bit of an entry: a cluster, a window, a region, a ring, a Clicker port, a
decoder (R356). Left open by the spec: log entry 36 (PRESUMED). -/
def hasWorld (off : Nat) : Bool :=
  decide ((0x300000 ≤ off ∧ off < 0x300800) ∨ (0x100000 ≤ off ∧ off < 0x110000 ∧ 0x800 ≤ off % 0x1000 ∧ off % 32 = 0) ∨
    (0x310000 ≤ off ∧ off < 0x310400 ∧ off % 16 = 0) ∨ (0x320000 ≤ off ∧ off < 0x320200) ∨
    (0x320400 ≤ off ∧ off < 0x320440) ∨ (0x330000 ≤ off ∧ off < 0x330100 ∧ off % 0x20 = 0))

/-- Whether a part takes a write: it is ready; or Nyset, before it sets NYSET, writes a WORLD bit (R402, R404).
Left open by the spec: log entry 36 (PRESUMED). -/
def State.takesWrite (s : State) (by_ : Agent) (off : Nat) : Bool :=
  s.partUp off || (by_ == .insole && !s.ready 41 && hasWorld off)

/-- A write of 64 bits at an offset of BAR 0: what the register's description makes of it; reserved bits, unassigned
offsets and registers out of the writer's reach ignore it. Left open by the spec: log entry 26 (DESIGN CHOICE). -/
def State.writeBar (s : State) (by_ : Agent) (off : Nat) (w : Word) : State :=
  if off % (if inCxlConfig off then 4 else 8) ≠ 0 ∨ !s.barOpen by_ ∨ !s.takesWrite by_ off then s
  else if 0x1800000 ≤ off ∧ off < 0x1900000 then
    s.writePosted by_ ((off - 0x1800000) / 0x80) (off % 0x80) (bytesOf 8 w.toNat)
  else if 0x100000 ≤ off ∧ off < 0x110000 then
    let p := (off - 0x100000) / 0x1000
    if s.mayWrite by_ p then s.writePart by_ p (off % 0x1000) w else s
  else if 0x1000000 ≤ off ∧ off < 0x1080000 then
    let q := (off - 0x1000000) / 0x40
    if s.mayWrite by_ (s.queuePart q) then s.writeQueue by_ q (off % 0x40) w else s
  else if by_ = .insole then s.writeInsole off w
  else if !isManager by_ then s
  else if inCxlConfig off then s.writeCxlConfig off (w.setWidth 32)
  else s.writeWide by_ off w

/-- The bits that a register reads as zero because they are write-only. -/
def writeOnly (off : Nat) : Word :=
  if 0x100000 ≤ off ∧ off < 0x110000 ∧ off % 0x1000 = 0x038 then bitsMask 21 16
  else if 0x300000 ≤ off ∧ off < 0x300800 then bitsMask 9 8 ||| bitsMask 3 0
  else if off = 0x404000 then bitsMask 15 0
  else 0

/-- READY1 and READY2 (R403). -/
def State.clustersReady (s : State) (from_ n : Nat) : Word := maskOf fun i => decide (i < n) && s.clusterReady (from_ + i)

/-- What a read of 64 bits at an offset of BAR 0 returns to a host function (R300, R303, R357, R378, R403, R404).
Left open by the spec: log entry 39 (DESIGN CHOICE). -/
def State.readBar (s : State) (by_ : Agent) (off : Nat) : Word :=
  let part (p : Nat) (w : Word) : Word := if s.mayWrite by_ p then w else 0
  let plain := s.bar off &&& ~~~writeOnly off
  if off % (if inCxlConfig off then 4 else 8) ≠ 0 ∨ !s.barOpen by_ ∨ !s.partUp off then 0
  else if off = 0x100 then plain
  else if 0x100000 ≤ off ∧ off < 0x110000 then
    part ((off - 0x100000) / 0x1000)
      (if 0x800 ≤ off % 0x1000 ∧ !s.reachesEntry by_ (off / 32 * 32) 61 then 0 else plain)
  else if 0x1000000 ≤ off ∧ off < 0x1080000 then part (s.queuePart ((off - 0x1000000) / 0x40)) plain
  else if !isManager by_ ∧ by_ ≠ .insole then 0
  else if off = 0x108 then s.clustersReady 0 64
  else if off = 0x110 then s.clustersReady 64 32
  else if 0x350000 ≤ off ∧ off < 0x350800 then
    let c := 12 * ((off - 0x350000) / 0x100) + off % 0x100 / 0x10
    if off % 0x100 < 0xC0 ∧ (s.reachesCluster by_ c ∨ by_ = .insole) then (if off % 0x10 = 0 then s.cp c 4 &&& 1 else s.cp c 1) else 0
  else if (0x300000 ≤ off ∧ off < 0x300800) then (if s.secureAgent by_ || !plain.getLsbD 61 then plain else 0)
  else if (0x310000 ≤ off ∧ off < 0x310400) then (if s.reachesEntry by_ (off / 16 * 16) 62 then plain else 0)
  else if (0x320000 ≤ off ∧ off < 0x320440) then (if s.reachesEntry by_ off 62 then plain else 0)
  else if (0x330000 ≤ off ∧ off < 0x330100) then (if s.reachesEntry by_ (off / 32 * 32) 62 then plain else 0)
  else plain

/-! ### The events of register writes -/

def execRegisterWrite (by_ : Agent) (off : Nat) (w : Word) (s : State) : Res := .next (s.writeBar by_ off w)
def execWqcfgWrite (by_ : Agent) (q : BitVec 13) (w : Word) (s : State) : Res :=
  .next (s.writeBar by_ (queueReg q.toNat 0) w)
def execPdcfgWrite (by_ : Agent) (p : BitVec 4) (w : Word) (s : State) : Res :=
  .next (s.writeBar by_ (partReg p.toNat 0) w)
def execXlinv (by_ : Agent) (asid : BitVec 16) (s : State) : Res := .next (s.writeBar by_ 0x404000 (asid.setWidth 64))
def execMrbaseWrite (by_ : Agent) (r : BitVec 6) (w : Word) (s : State) : Res :=
  .next (s.writeBar by_ (0x310000 + 16 * r.toNat) w)
def execWncfgWrite (by_ : Agent) (p : BitVec 4) (n : BitVec 6) (w : Word) (s : State) : Res :=
  .next (s.writeBar by_ (windowReg p.toNat n.toNat 0) w)
def execCxdcfgWrite (by_ : Agent) (i : BitVec 3) (w : Word) (s : State) : Res :=
  .next (s.writeBar by_ (decoderReg i.toNat 0) w)
def execHpcfgWrite (by_ : Agent) (w : Word) (s : State) : Res := .next (s.writeBar by_ 0x340000 w)
def execErrcfgWrite (by_ : Agent) (w : Word) (s : State) : Res := .next (s.writeBar by_ 0x371010 w)
def execSlotTableWrite (by_ : Agent) (d : BitVec 3) (slice : BitVec 4) (e : BitVec 6) (w : Word) (s : State) : Res :=
  .next (s.writeBar by_ (0x2000000 + 0x10000 * d.toNat + 0x800 * slice.toNat + 8 * e.toNat) w)
def execMapoutGo (by_ : Agent) (d : BitVec 3) (range : BitVec 4) (s : State) : Res :=
  .next (s.writeBar by_ (stackReg d.toNat 8) (bitsMask 63 63 ||| num (16 * range.toNat)))
def execVacated (by_ : Agent) (d : BitVec 3) (s : State) : Res :=
  .next (s.writeBar by_ (stackReg d.toNat 8) (num (16 * s.barField (stackReg d.toNat 8) 7 4 + 1)))

/-- XLINV_DONE (R325). -/
def State.stepXlinvDone (s : State) : Option State :=
  match s.removals.find? (·.xlinv) with
  | none => none
  | some r =>
    if s.removalDone r then
      some ({ s with removals := s.removals.filter fun x => x.id != r.id }.setBar 0x404000 0)
    else none

def execXlinvDone (s : State) : Res := taken s.stepXlinvDone

/-! ### BAR 4 (R300, R354, R357, R404, R412) -/

/-- Whether a host function may reach a device address: device HBM of a stack in service, a region of a partition that
the function serves, in its world. -/
def State.bar4Ok (s : State) (fn a n : Nat) : Bool :=
  let last := a + n - 1
  let d := a / 2 ^ 36
  let region (p : Nat) : Bool := (s.region? p a).isSome && (s.region? p last).isSome
  let secure := (List.range 64).any fun r =>
    let b := s.bar (0x310000 + 16 * r)
    b.getLsbD 63 && b.getLsbD 62 && decide (fieldOf b 51 21 ≤ last / 2 ^ 21 ∧ a / 2 ^ 21 ≤ s.barField (0x310008 + 16 * r) 51 21)
  decide (n ≠ 0 ∧ last < hbmEnd ∧ last / 2 ^ 36 = d ∧ last % 2 ^ 36 < s.barField (stackReg d 0) 4 0 * 2 ^ 32) &&
    s.ready (10 + d) && (fn == 0 || (List.range 16).any fun p => s.partFn p == fn && region p) &&
    (s.fnSecure.contains fn || !secure)

/-- The partition that consumes what a host function reads or writes: the one it serves whose region holds the address
(R393); 0xFF for the driver's function 0. -/
def State.bar4Part (s : State) (fn a : Nat) : Nat :=
  if fn = 0 then 0xFF
  else ((List.range 16).find? fun p => s.partFn p == fn && (s.region? p a).isSome).getD 0xFF

def bar4Size : Bar4Op → Nat
  | .read n => n
  | .write bs _ => bs.length
  | .fetchAdd w _ | .swap w _ => if w then 8 else 4
  | .cas w _ _ => if w then 8 else 4

/-- An AtomicOp at the home's read-modify-write unit: the old value goes back. -/
def State.bar4Atomic (s : State) (a : Nat) (k : AtomKind) (w64 : Bool) (b c : Word) : State :=
  let n := if w64 then 8 else 4
  let old := s.readHome (.dev a) n .none
  let new := atomNew k w64 (wordOfBytes old.1) b c
  ((s.writeHome (.dev a) (bytesOf n new.toNat) old.2).send (.completion .success)).send (.data old.1 old.2)

/-- BAR4_ACCESS (R71, R300): performed at the home; an address out of reach completes with Unsupported Request, and a
write there is dropped. An AtomicOp is aligned to its size. -/
def State.stepBar4Access (s : State) (fn off : Nat) (op : Bar4Op) (r : Reply) : Option State :=
  let a := s.barField 0x10 51 30 * 2 ^ 30 + off
  let refused : State := match op with
    | .write _ _ => s
    | .read _ | .fetchAdd _ _ | .swap _ _ | .cas _ _ _ => s.send (.completion .unsupported)
  if !s.ready 40 || !decide (fn ≤ 16) then none
  else if !s.bar4Ok fn a (bar4Size op) then (if r = .none then some refused else none)
  else
    (s.homeError (.dev a) (bar4Size op) (s.bar4Part fn a) r).map fun s =>
      match op with
      | .read n =>
        let v := s.readHome (.dev a) n .none
        (s.send (.completion .success)).send (.data v.1 v.2)
      | .write bs p => s.writeHome (.dev a) bs p
      | .fetchAdd w b => if a % (bar4Size op) = 0 then s.bar4Atomic a .add w b 0 else refused
      | .swap w b => if a % (bar4Size op) = 0 then s.bar4Atomic a .xchg w b 0 else refused
      | .cas w c b => if a % (bar4Size op) = 0 then s.bar4Atomic a .cas w b c else refused

def execBar4Access (fn off : Nat) (op : Bar4Op) (r : Reply) (s : State) : Res := taken (s.stepBar4Access fn off op r)

end Sys2Proof.Machine
end

