-- ==== Sys2Proof/Machine/Sha3.lean ====
section
/-!
DEFINITION. Sha3.lean: SHA3-512, which the spec names for the retention image (R384) and the measurements (R405); its
definition is that of FIPS 202. The 1,600 bits stand as five planes of five lanes, so that a step that treats the lanes
of a plane alike is one operation on 320 bits.
-/

namespace Sys2Proof.Machine

/-- A plane: lane x at bits 64x + 63 down to 64x. -/
abbrev Plane := BitVec 320

def Plane.lane (p : Plane) (x : Nat) : Word := p.extractLsb' (64 * x) 64

/-- A lane alone in a plane. -/
def Plane.only (x : Nat) (w : Word) : Plane := w.zeroExtend 320 <<< (64 * x)

/-- Lane x of the result is lane x + n, around the plane. -/
def Plane.ahead (p : Plane) (n : Nat) : Plane := p.rotateRight (64 * n)

/-- Each lane rotated left by one bit. -/
def Plane.twist (p : Plane) : Plane :=
  (List.range 5).foldl (fun q x => q ||| .only x ((p.lane x).rotateLeft 1)) 0

/-- θ: to each column goes the parity of the column before it and, one bit on, of the one after it. -/
def thetaStep (ps : List Plane) : List Plane :=
  let c := ps.foldl (· ^^^ ·) 0
  ps.map (· ^^^ (c.ahead 4 ^^^ (c.ahead 1).twist))

/-- The lanes in the order of the walk of ρ, from (1, 0), with the rotation of each: the t-th triangular number. -/
def rhoWalk : Nat → Nat → Nat × Nat → List ((Nat × Nat) × Nat)
  | 0, _, _ => []
  | left + 1, t, (x, y) => ((x, y), t * (t + 1) / 2) :: rhoWalk left (t + 1) (y, (2 * x + 3 * y) % 5)

/-- ρ and π: the lane of (x, y), rotated, comes to column y of plane 2x + 3y. -/
def carry (ps : List Plane) : List Plane :=
  (List.range 5).map fun row =>
    (((0, 0), 0) :: rhoWalk 24 1 (1, 0)).foldl (fun q l =>
      if (2 * l.1.1 + 3 * l.1.2) % 5 = row then
        q ||| .only l.1.2 (((ps.getD l.1.2 0).lane l.1.1).rotateLeft (l.2 % 64))
      else q) 0

/-- χ: each lane against its next two. -/
def chiStep (p : Plane) : Plane := p ^^^ (~~~p.ahead 1 &&& p.ahead 2)

/-- The register that gives the bits of ι: x^8 + x^6 + x^5 + x^4 + 1. -/
def iotaNext (r : Byte) : Byte := r <<< 1 ^^^ (if r.msb then 0x71 else 0)

/-- The seven bits of a round, at 2^j - 1, and the register after them. -/
def iotaWord (r : Byte) : Word × Byte :=
  (List.range 7).foldl (fun a j =>
    (if a.2.getLsbD 0 then a.1 ||| (1 : Word) <<< (2 ^ j - 1) else a.1, iotaNext a.2)) (0, r)

def permute : Nat → Byte → List Plane → List Plane
  | 0, _, ps => ps
  | left + 1, r, ps =>
    let i := iotaWord r
    permute left i.2 (((carry (thetaStep ps)).map chiStep).modify 0 (· ^^^ .only 0 i.1))

/-- One block of 72 bytes absorbed: it covers plane 0 and four lanes of plane 1. -/
def absorb (ps : List Plane) (block : List Byte) : List Plane :=
  permute 24 1 ((ps.modify 0 (· ^^^ BitVec.ofNat 320 (fieldAt block 0 40))).modify 1
    (· ^^^ BitVec.ofNat 320 (fieldAt block 40 32)))

/-- The blocks of a padded message. -/
def absorbAll : Nat → List Byte → List Plane → List Plane
  | 0, _, ps => ps
  | left + 1, bs, ps => absorbAll left (bs.drop 72) (absorb ps (bs.take 72))

/-- The message padded to whole blocks: the bits 01 of SHA-3, a 1, zeros, and a 1 in the last place. -/
def sha3Padded (bs : List Byte) : List Byte :=
  let zeros := 71 - bs.length % 72
  (bs ++ 0x06 :: List.replicate zeros 0).modify (bs.length + zeros) (· ||| 0x80)

/-- SHA3-512 of bytes: 64 bytes. -/
def sha3 (bs : List Byte) : List Byte :=
  let ps := absorbAll (bs.length / 72 + 1) (sha3Padded bs) (List.replicate 5 0)
  bytesOf 40 (ps.getD 0 0).toNat ++ bytesOf 24 ((ps.getD 1 0).toNat % 2 ^ 192)

end Sys2Proof.Machine
end

