-- ==== Sys2Proof/Machine/Power.lean ====
section
/-!
DEFINITION. Power.lean: the cluster power controllers (R377 to R388): their evaluation, the drain of a cluster, the
retention image, INIT, and rail faults.
-/

namespace Sys2Proof.Machine

/-! ### The controller's registers (R379) -/

/-- The controller in a state: STATE, QACK, CLKRUN and both PG follow. -/
def State.cpGo (s : State) (c st : Nat) : State :=
  let rail := st != 6 && st != 7
  let clock := decide (st ≤ 4) || st == 9
  let r := withField (s.cp c 1) 15 12 st
  let r := withBit (withBit (withBit r 0 (decide (2 ≤ st))) 1 clock) 2 rail
  (s.setCp c 1 r).setCp c 3 (withBit (s.cp c 3) 62 rail)

/-- An error of the controller: ERR with its code. -/
def State.cpError (s : State) (c code : Nat) : State :=
  s.setCp c 1 (withBit (withField (s.cp c 1) 7 5 code) 4 true)

def State.cpValid (s : State) (c : Nat) : Bool := (s.cp c 1).getLsbD 3
def State.setCpValid (s : State) (c : Nat) (b : Bool) : State := s.setCp c 1 (withBit (s.cp c 1) 3 b)

/-- The error counters of a cluster's 32 units in its die's error block (R396). -/
def clusterCounter (c u : Nat) : Nat := errReg (c / 12) (8 * (32 * (c % 12) + u))

/-- The rail off: OFF, no current, and what the cluster's counters held is lost (R396).
Left open by the spec: log entry 33 (DESIGN CHOICE). -/
def State.cpOff (s : State) (c : Nat) : State :=
  let s := s.cpGo c 6
  let s := s.setCp c 3 (withField (s.cp c 3) 47 32 0)
  (List.range 32).foldl (fun (s : State) (u : Nat) => s.setBar (clusterCounter c u) 0) s

/-- Why a rise of QREQ is refused (R382); 0 where it is not. Left open by the spec: log entry 33 (DESIGN CHOICE). -/
def State.cpDenial (s : State) (c : Nat) : Nat :=
  if s.crews.any fun d => d.core / 16 == c && d.place != CrewWhere.retired && d.place != CrewWhere.gone &&
      (if d.onCore then s.bound d else d.keep) then 1
  else if (List.range 64).any fun n => s.rgEnabled n && s.keepEngine n == c then 2
  else if 2 ≤ s.clusterState c then 3
  else 0

/-! ### The evaluation (R380, R381) -/

/-- The rows of R381 that a controller takes by its registers. -/
inductive CpRow where
  | rise | clear | save | restore | clockOff | clockOn | railOff | railOn
  deriving DecidableEq, Repr

/-- The first row of the controller's state that matches. Left open by the spec: log entry 33 (DESIGN CHOICE). -/
def State.cpRow? (s : State) (c : Nat) : Option CpRow :=
  let p := (s.pulse? c).getD .none
  let qreq := (s.cp c 0).getLsbD 0
  let clken := (s.cp c 0).getLsbD 1
  let en := (s.cp c 3).getLsbD 63
  match s.cpState c with
  | 0 => if p.rise then some .rise else none
  | 1 => if !qreq then some .clear else none
  | 2 =>
    if !qreq then some .clear
    else if p.save then some .save
    else if p.restore && s.cpValid c then some .restore
    else if !clken then some .clockOff
    else none
  | 5 => if clken then some .clockOn else if !en then some .railOff else none
  | 6 => if en && !s.railHeld.contains c then some .railOn else none
  | 7 => if !en then some .railOff else none
  | 8 => if !en then some .railOff else if clken then some .clockOn else none
  | _ => none

/-- The transition of a row. -/
def State.cpTake (s : State) (c : Nat) (r : CpRow) : State :=
  match r with
  | .rise =>
    let d := s.cpDenial c
    if d = 0 then (s.setCp c 1 (withField (s.cp c 1) 10 8 0)).cpGo c 1
    else s.setCp c 1 (withField (s.cp c 1) 10 8 d)
  | .clear => if s.cpState c = 2 then (s.setCpValid c false).cpGo c 0 else s.cpGo c 0
  | .save => s.cpGo c 3
  | .restore => s.cpGo c 4
  | .clockOff => s.cpGo c 5
  | .clockOn => if s.cpState c = 8 then s.cpGo c 9 else s.cpGo c 2
  | .railOff => s.cpOff c
  | .railOn => s.cpGo c 7

/-- An evaluation: SAVE and RESTORE written in its cycle are dropped where its row is not theirs; its transition `take`
happens; then the reads that wait for it are answered (R380). Left open by the spec: log entry 33 (DESIGN CHOICE). -/
def State.cpCycle (s : State) (c : Nat) (row : Option CpRow) (take : State → State) : State :=
  let p := (s.pulse? c).getD .none
  let dropped := (p.save && row != some .save) || (p.restore && row != some .restore)
  let s := { s with pulses := s.pulses.filter fun q => q.1 != c }
  (take (if dropped then s.cpError c 4 else s)).answerAsked c

/-- An evaluation that takes at most one row. Left open by the spec: log entry 33 (DESIGN CHOICE). -/
def State.cpEvaluate (s : State) (c : Nat) (row : Option CpRow) : State :=
  s.cpCycle c row fun s => match row with
    | some r => s.cpTake c r
    | none => s

/-- An evaluation that takes one of some rows. Left open by the spec: log entry 33 (DESIGN CHOICE). -/
def State.evaluateAs (s : State) (c : Nat) (rows : List CpRow) : Option State :=
  match s.cpRow? c with
  | some r => if c < 96 ∧ rows.contains r then some (s.cpEvaluate c (some r)) else none
  | none => none

def execQreqRise (c : Nat) (s : State) : Res := taken (s.evaluateAs c [.rise])
def execQreqClear (c : Nat) (s : State) : Res := taken (s.evaluateAs c [.clear])
def execSave (c : Nat) (s : State) : Res := taken (s.evaluateAs c [.save])
def execRestore (c : Nat) (s : State) : Res := taken (s.evaluateAs c [.restore])
def execClkenClear (c : Nat) (s : State) : Res := taken (s.evaluateAs c [.clockOff])
def execClkenSet (c : Nat) (s : State) : Res := taken (s.evaluateAs c [.clockOn])
def execRailOff (c : Nat) (s : State) : Res := taken (s.evaluateAs c [.railOff])
def execRailOn (c : Nat) (s : State) : Res := taken (s.evaluateAs c [.railOn])

/-- CONTROLLER_EVALUATION (R380): whichever row matches, by levels written earlier too; or none, after a write. -/
def State.stepControllerEvaluation (s : State) (c : Nat) : Option State :=
  let row := s.cpRow? c
  if c < 96 ∧ (row.isSome || (s.pulse? c).isSome) then some (s.cpEvaluate c row) else none

def execControllerEvaluation (c : Nat) (s : State) : Res := taken (s.stepControllerEvaluation c)

/-! ### Wakes (R378, R379) -/

/-- A host write of a CPWAKE mirror. Left open by the spec: log entry 33 (DESIGN CHOICE). -/
def State.mirrorWake (s : State) (by_ : Agent) (c : Nat) (w : Word) : State :=
  if s.reachesCluster by_ c && s.ready (c / 12) && s.barOpen by_ then s.setCp c 4 (s.cpWritten c 4 w) else s

def execWake (by_ : Agent) (c : Nat) (s : State) : Res := .next (s.mirrorWake by_ c 1)
def execWakeClr (by_ : Agent) (c : Nat) (s : State) : Res := .next (s.mirrorWake by_ c 2)

/-! ### Quiescing (R382) -/

/-- QUIESCE_DRAIN_COMPLETE: the cluster is empty. -/
def State.stepQuiesceDrainComplete (s : State) (c : Nat) : Option State :=
  if c < 96 ∧ s.cpState c = 1 ∧ (s.cp c 0).getLsbD 0 ∧ s.clusterIdle c ∧
      (s.crewsOf c).all (fun d => !d.onCore && d.place != CrewWhere.gone) then
    some (s.cpCycle c none fun s => s.cpGo c 2)
  else none

def execQuiesceDrainComplete (c : Nat) (s : State) : Res := taken (s.stepQuiesceDrainComplete c)

/-- QUIESCE_JOB_LIMIT: a job still running is aborted and counted. -/
def State.stepQuiesceJobLimit (s : State) (c slot : Nat) : Option State :=
  match s.jobAt? c slot with
  | none => none
  | some j =>
    if s.cpState c = 1 ∧ j.state = .running ∧ !j.abort then
      some ((s.onJob c slot fun k => { k with abort := true }).setCp c 5
        (withField (s.cp c 5) 63 32 (fieldOf (s.cp c 5) 63 32 + 1)))
    else none

def execQuiesceJobLimit (c slot : Nat) (s : State) : Res := taken (s.stepQuiesceJobLimit c slot)

/-! ### The retention image (R384, R385) -/

/-- Where the image lies, while its 4 KiB are in device HBM. -/
def State.cpImage? (s : State) (c : Nat) : Option Nat :=
  let a := (s.cp c 2 &&& bitsMask 51 12).toNat
  let insole : Who := ⟨1536, 0, 8, 0, 0, .machine, true, false, true, true⟩
  match s.physical insole .store a false with
  | .at (.dev _) _ => if a + 4096 ≤ hbmEnd then some a else none
  | .at _ _ | .fail _ _ | .miss _ | .ats _ | .page _ => none

/-- The SRAM repair map of a cluster: that of its last RESTORE, else the fused one (R381, R401). -/
def State.repairMap (s : State) (c : Nat) : List Byte :=
  ((s.repairs.find? fun r => r.1 == c).map (·.2)).getD (Config.repairMap c)

/-- Bytes 0x000 to 0xFBF of the image of a cluster. Left open by the spec: log entry 33 (DESIGN CHOICE). -/
def State.imageBody (s : State) (c : Nat) : List Byte :=
  ((List.range 16).flatMap fun n => bytesOf 8 (s.coreCycles (16 * c + n)).toNat) ++
    bytesOf 8 (mapGet 0 c s.seqs).toNat ++ bytesOf 8 (Config.calibration c).toNat ++ List.replicate 112 0 ++
    ((List.range 1536).map fun i => (s.repairMap c).getD i 0) ++
    ((List.range 32).flatMap fun u => bytesOf 8 (s.bar (clusterCounter c u)).toNat) ++ List.replicate 1984 0

/-- SAVE_DONE: every byte is performed at its home; a save fails only for an address outside HBM. -/
def State.stepSaveDone (s : State) (c : Nat) : Option State :=
  if 96 ≤ c ∨ s.cpState c ≠ 3 then none
  else
    some (s.cpCycle c none fun s =>
      let t := s.cpGo c 2
      match s.cpImage? c with
      | none => (t.setCpValid c false).cpError c 1
      | some a =>
        let body := s.imageBody c
        (t.writeHome (.dev a) (body ++ sha3 body) false).setCpValid c true)

def execSaveDone (c : Nat) (s : State) : Res := taken (s.stepSaveDone c)

/-- CYCLES, SEQ, the repair map and the error counters as an image holds them; units 19 to 31 have no counter (R396).
Left open by the spec: log entry 33 (DESIGN CHOICE). -/
def State.loadRetained (s : State) (c : Nat) (bs : List Byte) : State :=
  let s := (List.range 16).foldl (fun (s : State) (n : Nat) =>
    { s with cycles := mapSet 0 (16 * c + n) (num (fieldAt bs (8 * n) 8)) s.cycles }) s
  let s := { s with
    seqs := mapSet 0 c (BitVec.ofNat 32 (fieldAt bs 0x080 8)) s.seqs
    repairs := (c, (bs.drop 0x100).take 1536) :: s.repairs.filter fun r => r.1 != c }
  (List.range 19).foldl (fun (s : State) (u : Nat) =>
    s.setBar (clusterCounter c u) (num (fieldAt bs (0x700 + 8 * u) 8))) s

/-- RESTORE_DONE: the digest is checked before anything changes. -/
def State.stepRestoreDone (s : State) (c : Nat) : Option State :=
  if 96 ≤ c ∨ s.cpState c ≠ 4 then none
  else
    some (s.cpCycle c none fun s =>
      let t := s.cpGo c 2
      let failed := (t.setCpValid c false).cpError c 2
      match s.cpImage? c with
      | none => failed
      | some a =>
        let r := s.readHome (.dev a) 4096 .none
        if r.2 || sha3 (r.1.take 0xFC0) != r.1.drop 0xFC0 then failed else t.loadRetained c r.1)

def execRestoreDone (c : Nat) (s : State) : Res := taken (s.stepRestoreDone c)

/-! ### The rail and INIT (R381, R385, R386) -/

/-- POWER_GOOD: PG rises during RAMPING. -/
def State.stepPowerGood (s : State) (c : Nat) : Option State :=
  if c < 96 ∧ s.cpState c = 7 then some (s.cpCycle c none fun s => s.cpGo c 8) else none

def execPowerGood (c : Nat) (s : State) : Res := taken (s.stepPowerGood c)

/-- A rail that has failed: OFF, FAULT, code 3. Left open by the spec: log entry 33 (DESIGN CHOICE). -/
def State.cpFault (s : State) (c : Nat) : State :=
  let held := if (s.cp c 3).getLsbD 63 then c :: s.railHeld.filter (· != c) else s.railHeld
  let s := ({ s with railHeld := held }.cpOff c).cpError c 3
  s.setCp c 3 (withBit (s.cp c 3) 61 true)

/-- RAMP_TIMEOUT. -/
def State.stepRampTimeout (s : State) (c : Nat) : Option State :=
  if c < 96 ∧ s.cpState c = 7 then some (s.cpCycle c none fun s => s.cpFault c) else none

def execRampTimeout (c : Nat) (s : State) : Res := taken (s.stepRampTimeout c)

/-- The core-local and cluster state that INIT zeroes, with CYCLES and SEQ; the repairs are the fused ones again. A job
that failed with the rail keeps its completion action to do (R290, R386). -/
def State.initCluster (s : State) (c : Nat) : State :=
  let s := s.scrub c
  { s with
    cycles := s.cycles.filter fun x => x.1 / 16 != c
    seqs := s.seqs.filter fun x => x.1 != c
    repairs := s.repairs.filter fun r => r.1 != c
    jobs := s.jobs.filter fun j => j.engine != c || j.state.alive }

/-- INIT_DONE. -/
def State.stepInitDone (s : State) (c : Nat) : Option State :=
  if c < 96 ∧ s.cpState c = 9 then some (s.cpCycle c none fun s => (s.initCluster c).cpGo c 2) else none

def execInitDone (c : Nat) (s : State) : Res := taken (s.stepInitDone c)

/-- The record of a rail fault (R397). Left open by the spec: log entry 9 (DESIGN CHOICE). -/
def State.railRecord (s : State) (c : Nat) : State := s.recordFree 7 (c / 12) ((s.clusterPart c).getD 0xFF) 0 none

/-- What a cluster loses with its rail: its crews are discarded, each with its FAULT event. The items not performed
(R55) of these and of the crews discarded there before are lost, in the queues, in the uplink, at the voter, and those
of die scope or wider beyond the cluster and in the bag; the engine's jobs end faulted with REMOTE.
Left open by the spec: log entry 33 (DESIGN CHOICE). -/
def State.loseCluster (s : State) (c : Nat) : State :=
  let here := s.crews.filter fun d => d.core / 16 == c && d.onCore
  let mine := s.crews.filter fun d => d.core / 16 == c && (d.onCore || d.place == .gone || d.place == .retired)
  let lost (k : StrandKey) : Bool := mine.any fun d => d.uid == k.crew
  let s := here.foldl (fun (s : State) (d : Crew) => s.freshWord.2.discardFault d Cause.remote 0 s.freshWord.1) s
  let empty : Strand → Strand := fun t => if lost t.key then { t with queues := Vector.replicate 8 [] } else t
  let fail : Job → Job := fun j =>
    if j.engine = c ∧ j.state.alive then
      { j with
        fault := some (Cause.remote, 0)
        abort := false
        state := (if j.state = .awaited then .queued else j.state) }
    else j
  { s with
    me := empty s.me
    others := s.others.map empty
    uplinks := s.uplinks.filter fun e => e.cluster != c
    fabric := s.fabric.filter fun e => !(lost e.ref.key && e.scope.wide)
    bag := s.bag.filter fun e => !(e.scope.wide && !e.refs.isEmpty && e.refs.all fun r => lost r.key)
    votes := (s.votes.map fun v =>
      if v.performed || v.closed.isSome then v else { v with arrivals := v.arrivals.filter fun a => !lost a.key }).filter
        fun v => v.performed || v.closed.isSome || !v.arrivals.isEmpty
    matrix := s.matrix.filter fun m => m.1 / 16 != c
    copies := s.copies.filter fun k => match k.owner with
      | .core n => n / 16 != c
      | .cluster n => n != c
    jobs := s.jobs.map fail }

/-- A rail dropped (R386). -/
def State.dropRail (s : State) (c : Nat) : State :=
  let on := decide (s.cpState c ≤ 1)
  s.cpCycle c none fun s => if on then (s.cpFault c).loseCluster c else s.cpFault c

/-- RAIL_FAULT: while the rail is on. -/
def State.stepRailFault (s : State) (c : Nat) : Option State :=
  if c < 96 ∧ s.cpState c ≠ 6 then some ((s.dropRail c).railRecord c) else none

def execRailFault (c : Nat) (s : State) : Res := taken (s.stepRailFault c)

end Sys2Proof.Machine
end

