-- ==== Sys2Proof/Machine/Reliability.lean ====
section
/-!
DEFINITION. Reliability.lean: soft errors and control faults (R390, R393), Welt replays (R392), the patrol scrub and the
map-out of an HBM layer (R398, R399), and the package taken out of service (R401, R403, R408).
-/

namespace Sys2Proof.Machine

/-! ### Soft errors in registers, tiles and memory (R390) -/

/-- Offset of a core's counter in its die's error block. -/
def coreCounter (core : Nat) : Nat := errReg (core / 192) (8 * (32 * (core / 16 % 12) + core % 16))

/-- The counter of unit `u` of a cluster; Insole's has none (R396). -/
def clusterUnit (c u : Nat) : Nat × Option Nat := if c < 96 then (c / 12, some (8 * (32 * (c % 12) + u))) else (8, none)

/-- An error of a core's unit. Left open by the spec: log entry 40 (DESIGN CHOICE). -/
def State.coreError (s : State) (core part : Nat) (corrected : Bool) : State :=
  s.unitError (clusterUnit (core / 16) (core % 16)) part 0 corrected

/-- The partition that a cluster serves, 0xFF for none. -/
def State.chargedPart (s : State) (c : Nat) : Nat := (s.clusterPart c).getD 0xFF

/-- What a cache gives up (R331, R333): the translation is fetched again.
Left open by the spec: log entry 27 (DESIGN CHOICE). -/
def State.forget (s : State) (c : Cached) : State :=
  match c with
  | .leaf k => { s with tlb := s.tlb.filter fun l =>
      !(l.unit == k.unit && l.asid == k.asid && decide (l.va ≤ k.va.toNat ∧ k.va.toNat < l.va + l.size)) }
  | .table die asid level va => { s with upper := s.upper.filter fun u =>
      !(u.die == die && u.asid == asid && u.level == level && u.va == va.toNat) }
  | .atc die pasid va => { s with atc := s.atc.filter fun e =>
      !(e.die == die && e.pasid == pasid && decide (e.va ≤ va.toNat ∧ va.toNat < e.va + e.size)) }

/-- The unit whose SRAM a translation cache is, and its partition: a core's, a cluster's TLB (R396); the others'
caches have no counter. Left open by the spec: log entry 40 (DESIGN CHOICE). -/
def State.cachedUnit (s : State) (c : Cached) : (Nat × Option Nat) × Nat :=
  match c with
  | .leaf k =>
    if k.unit < 1536 then (clusterUnit (k.unit / 16) (k.unit % 16), s.chargedPart (k.unit / 16))
    else if 2000 ≤ k.unit ∧ k.unit < 2096 then (clusterUnit (k.unit - 2000) 18, s.chargedPart (k.unit - 2000))
    else ((8, none), 0xFF)
  | .table die _ _ _ | .atc die _ _ => ((die, none), 0xFF)

/-- The unit that holds a copy set: a core's read-only path is the core's, a cluster's station is unit 16 (R396). -/
def State.copyUnit (s : State) (o : CopySet) : (Nat × Option Nat) × Nat :=
  match o with
  | .core n => (clusterUnit (n / 16) (n % 16), s.chargedPart (n / 16))
  | .cluster c => (clusterUnit c 16, s.chargedPart c)

/-- A soft error: corrected it is counted; uncorrectable it is counted, and poisons its register, lane, element or
word, or drops its copy or translation. In a shared structure it is charged to a partition that can consume the data,
0xFF where none is named (R393). Left open by the spec: log entry 40 (DESIGN CHOICE). -/
def State.upset (s : State) (u : Upset) (corrected : Bool) : State :=
  let reply : Reply := if corrected then .corrected else .uncorrectable
  match u with
  | .x k r =>
    (match s.strand? k with
     | none => s
     | some t =>
       let s := s.coreError t.core t.part corrected
       if corrected then s else s.onStrand k fun t => t.setX r (t.xr r) true)
  | .v k r lane =>
    (match s.strand? k with
     | none => s
     | some t =>
       let s := s.coreError t.core t.part corrected
       if corrected then s else s.onStrand k fun t => t.setV r (t.vr r) (t.vPois r ||| (1#64 <<< (lane % 64))))
  | .acc crew z elem =>
    (match s.crew? crew with
     | none => s
     | some c =>
       let s := s.coreError c.core c.part corrected
       let mark (t : ZTile) : ZTile := { t with p := t.p ||| (1#1024 <<< (elem % 1024)) }
       if corrected then s
       else s.onCrew crew fun c => { c with z := c.z.set (z % 8) (mark (c.z[z % 8]'(Nat.mod_lt _ (by decide)))) (Nat.mod_lt _ (by decide)) })
  | .tile a part =>
    let part := if s.clusterPart (a / 2 ^ 24) = some part then part else 0xFF
    (s.homeError (.tile (a / 4 * 4)) 4 part reply).getD s
  | .dev a part =>
    let part := if (s.region? part a).isSome then part else 0xFF
    (s.homeError (.dev (a / 4 * 4)) 4 part reply).getD s
  | .copy o l =>
    let u := s.copyUnit o
    let s := s.unitError u.1 u.2 0 corrected
    if corrected then s else s.dropCopy o l
  | .cached c =>
    let u := s.cachedUnit c
    let s := s.unitError u.1 u.2 0 corrected
    if corrected then s else s.forget c
  | .engine c => s.unitError (clusterUnit c 17) (s.chargedPart c) 0 corrected

/-! ### Control faults (R393) -/

/-- The record of a control fault of core `n`, charged to a partition; no rule gives its INFO. -/
def State.controlRecord (s : State) (n part : Nat) : State :=
  s.freshWord.2.errorRecord ⟨8, n / 192, 32 * (n / 16 % 12) + n % 16, part, 0, s.freshWord.1⟩

/-- CONTROL_FAULT: the core's unit counts it, and its crews are discarded, each with its FAULT event and the record of
the fault; or the partition's tear-down starts. Left open by the spec: log entry 35 (DESIGN CHOICE). -/
def State.stepControlFault (s : State) (site : ControlSite) : Option State :=
  match site with
  | .core n =>
    if 1536 ≤ n then none
    else
      let part := (s.clusterPart (n / 16)).getD 0xFF
      let s := s.addUncorr (n / 192) (8 * (32 * (n / 16 % 12) + n % 16))
      match s.crews.filter fun c => c.core == n && c.onCore with
      | [] => some (s.controlRecord n part)
      | mine => some (mine.foldl (fun (s : State) (c : Crew) =>
          (s.discardFault c Cause.poison 0 0).controlRecord n c.part) s)
  | .dispatcher p => if p < 16 ∧ !(s.dispatcher p).tearing then some (s.tearDown p) else none

def execControlFault (site : ControlSite) (s : State) : Res := taken (s.stepControlFault site)

/-! ### HBM (R390, R398, R399) -/

/-- PATROL_SCRUB: the 64-byte access at `a` of stack `d` is read once in this pass, which it may end.
Left open by the spec: log entry 9 (DESIGN CHOICE), log entry 35 (DESIGN CHOICE). -/
def State.stepPatrolScrub (s : State) (d a : Nat) (last : Bool) (r : Reply) : Option State :=
  let base := d * 2 ^ 36
  let layers := s.barField (stackReg d 0) 4 0
  if 8 ≤ d ∨ a % 64 ≠ 0 ∨ a < base ∨ base + layers * 2 ^ 32 ≤ a ∨ !(s.bar (stackReg d 0x10)).getLsbD 63 ∨ !s.ready (10 + d) then
    none
  else
    let h := s.freshWord.1.toNat % 32
    let off := 0xC80 + 8 * h
    let counted := match r with
      | .none => some s
      | .corrected => some (s.freshWord.2.freshWord.2.countCorr d off 0xFF (num a) s.freshWord.2.freshWord.1)
      | .uncorrectable =>
        some ((s.freshWord.2.freshWord.2.poisonSome (.dev a) 64).countUncorr d off 0xFF (num a) s.freshWord.2.freshWord.1)
      | .value _ _ | .refused | .ring | .bytes _ _ | .voteFail | .dissent _ _ => none
    counted.map fun s =>
      if last then s.setBarField (stackReg d 0x10) 31 0 (s.barField (stackReg d 0x10) 31 0 + 1) else s

def execPatrolScrub (d a : Nat) (last : Bool) (r : Reply) (s : State) : Res := taken (s.stepPatrolScrub d a last r)

/-- The storage of layer `old` of a stack moved to that of layer `new`, whose own is dropped. -/
def moveLayer (m : Mem) (d old new : Nat) : Mem :=
  let at_ (l : Nat) : Nat := (16 * d + l) * 2 ^ 32
  let inside (l a : Nat) : Bool := decide (at_ l ≤ a ∧ a < at_ l + 2 ^ 32)
  let rest : Mem :=
    ⟨m.cells.filter fun c => !inside old c.1 && !inside new c.1,
     m.poison.filter fun w => !inside old (4 * w) && !inside new (4 * w)⟩
  let m' := (m.cells.filter fun c => inside old c.1).foldl (fun (n : Mem) c => n.write (c.1 - at_ old + at_ new) c.2) rest
  (m.poison.filter fun w => inside old (4 * w)).foldl (fun (n : Mem) w => n.setPoison (w - at_ old / 4 + at_ new / 4) true) m'

/-- MAPOUT_SWITCH: the copy ends, and the range is backed by the top range's layer in one step. What the copy and the
writes to both layers come to is what the range holds now. Left open by the spec: log entry 35 (DESIGN CHOICE). -/
def State.stepMapoutSwitch (s : State) (d : Nat) : Option State :=
  let mo := stackReg d 8
  let layers := s.barField (stackReg d 0) 4 0
  let r := s.barField mo 7 4
  let t := layers - 1
  let st := s.barField mo 62 60
  let layerOf (x : Nat) : Nat := mapGet x (16 * d + x) s.layers
  if 8 ≤ d ∨ !(st = 2 ∨ (st = 1 ∧ r = t ∧ s.barField mo 0 0 = 1)) then none
  else
    let old := layerOf r
    let s := if r = t then s
      else { s with
        dev := moveLayer s.dev d old (layerOf t)
        layers := mapSet r (16 * d + r) (layerOf t) s.layers }
    let cap := stackReg d 0
    let s := s.setBar cap (withBit (withField (s.bar cap) 4 0 t) (16 + old) true)
    some ((s.setBar mo (withField 0 7 4 r)).mapoutRecord d 2 r)

def execMapoutSwitch (d : Nat) (s : State) : Res := taken (s.stepMapoutSwitch d)

/-! ### Out of service (R401, R403, R408) -/

/-- The package taken out of service by the reverse of R402: a record for each cluster, the cluster rails dropped as
under R386, every partition torn down, and no part ready. Left open by the spec: log entry 35 (DESIGN CHOICE). -/
def State.outOfService (s : State) : State :=
  let up := (List.range 96).filter fun c => s.cpState c != 6
  let s := (List.range 96).foldl State.railRecord s
  let s := up.foldl State.dropRail s
  let s := (List.range 16).foldl (fun (s : State) (p : Nat) =>
    if (s.dispatcher p).tearing then s else s.tearDown p) s
  let s := s.onStrand ⟨0, 0⟩ fun t => { t with live := false, wait := none }
  { s with boot := { s.boot with step := 0, settled := [] } }.setBar 0x100 0

/-- WELT_REPLAY (R392): a flit group replayed at edge `e` of die `d`; an edge that fails its replay ends the service. -/
def State.stepWeltReplay (s : State) (d e : Nat) (fails : Bool) : Option State :=
  if 8 ≤ d ∨ 4 ≤ e ∨ !s.ready d then none
  else
    let s := s.freshWord.2.countCorr d (0xD80 + 8 * e) 0xFF 0 s.freshWord.1
    some (if fails then s.outOfService else s)

def execWeltReplay (d e : Nat) (fails : Bool) (s : State) : Res := taken (s.stepWeltReplay d e fails)

/-- The ready bit of a part (R403). -/
def railBit : PowerPart → Nat
  | .die d => d % 8
  | .edge e => 8 + e % 2
  | .hbm d => 10 + d % 8
  | .preath p => 18 + p % 12
  | .cxl p => 30 + p % 2
  | .click k => 32 + k % 8
  | .host => 40

/-- Whether a part has a die, edge or HBM rail, whose fault no repair in service mends (R401). -/
def hasRail : PowerPart → Bool
  | .die _ | .edge _ | .hbm _ => true
  | .host | .preath _ | .cxl _ | .click _ => false

/-- DIE_RAIL_FAULT: the ready bit of the part returns to 0; with a die, edge or HBM rail the package goes out of
service whole. Left open by the spec: log entry 35 (DESIGN CHOICE). -/
def State.stepDieRailFault (s : State) (p : PowerPart) : Option State :=
  if !s.ready (railBit p) then none
  else
    let s := s.setReady (railBit p) false
    some (if hasRail p then s.outOfService else s)

def execDieRailFault (p : PowerPart) (s : State) : Res := taken (s.stepDieRailFault p)

end Sys2Proof.Machine
end

