-- ==== Sys2Proof/Machine/Bringup.lean ====
section
/-!
DEFINITION. Bringup.lean: power-up and its steps (R402 to R405), attestation by SPDM (R406), power samples and the
thermal limit (R408).
-/

namespace Sys2Proof.Machine

/-! ### Power-up (R402) -/

/-- POWER_UP: the 48 V input reaches its range. What lies outside the package stays: the host, the CXL expanders.
Left open by the spec: log entry 4 (DESIGN CHOICE). -/
def State.stepPowerUp (s : State) : Option State :=
  if s.boot.step ≠ 0 then none
  else
    some { State.reset with
      dev := s.dev
      host := s.host
      out := s.out
      free := s.free
      nextId := s.nextId
      agenda := s.agenda
      boot := { Boot.off with step := 1, image := s.boot.image } }

def execPowerUp (s : State) : Res := taken s.stepPowerUp

/-- The parts that a step of bring-up starts (R402). -/
def bringParts (step : Nat) : List BringPart :=
  match step with
  | 1 => [.rom]
  | 2 => [.nyset]
  | 3 => [.edge 0, .edge 1, .host]
  | 4 => (List.range 8).map .die
  | 5 => (List.range 8).map .hbm
  | 6 => [.dispatch]
  | 7 => (List.range 12).map .preath ++ (List.range 2).map .cxl ++ (List.range 8).map .click
  | 8 => (List.range 96).map .cluster
  | _ => []

/-- The bit of READY0 that a part sets. -/
def bringBit? : BringPart → Option Nat
  | .rom | .cluster _ => none
  | .nyset => some 41
  | .edge e => some (8 + e)
  | .host => some 40
  | .die d => some d
  | .hbm d => some (10 + d)
  | .dispatch => some 42
  | .preath p => some (18 + p)
  | .cxl p => some (30 + p)
  | .click k => some (32 + k)

def bytes512 (d : BitVec 512) : List Byte := bytesOf 64 d.toNat

/-- Mc := SHA3-512(Mc ‖ digest) (R405). -/
def extended512 (m d : List Byte) : List Byte := sha3 (m ++ d)

/-- The image in flash: after its header of 8 KiB, whose digest, signature and public key lie where R405 puts them. -/
def State.nysetImage (s : State) : List Byte := s.boot.image.getD Config.nysetImage
def imageDigest (im : List Byte) : List Byte := im.take 64
def imageSignature (im : List Byte) : List Byte := (im.drop 64).take 4627
def imageKey (im : List Byte) : List Byte := (im.drop 4691).take 2592

/-- Whether the boot ROM accepts an image (R405). -/
def imageAccepted (im : List Byte) : Bool :=
  sha3 (imageKey im) == bytes512 Config.fuseKeyDigest &&
    Config.verifies (imageKey im) (imageSignature im) (imageDigest im) && sha3 (im.drop 8192) == imageDigest im

/-- Step 2 starts: an accepted image is measured, then started; else the package goes into recovery (R402, R405).
Left open by the spec: log entry 36 (PRESUMED). -/
def State.checkNyset (s : State) : State :=
  if imageAccepted s.nysetImage then
    { s with boot := { s.boot with recovery := false, m2 := extended512 s.boot.m2 (imageDigest s.nysetImage) } }.onStrand ⟨0, 0⟩
      fun t => { t with live := true, pc := Config.nysetEntry }
  else { s with boot := { s.boot with recovery := true } }

/-- The world bits (R356): of clusters, regions, rings, Clicker ports, windows, CXL decoders and host functions. -/
def State.worldBits (s : State) : List Bool :=
  (List.range 96).map s.clusterSecure ++ (List.range 64).map (fun r => (s.bar (0x310000 + 16 * r)).getLsbD 62) ++
    (List.range 64).map (fun n => (s.bar (rngown n)).getLsbD 62) ++ (List.range 8).map (fun k => (s.bar (ckown k)).getLsbD 62) ++
    (List.range 1024).map (fun n => (s.bar (windowReg (n / 64) (n % 64) 0)).getLsbD 61) ++
    (List.range 8).map (fun i => (s.bar (decoderReg i 0)).getLsbD 62) ++ (List.range 17).map s.fnSecure.contains

/-- The secure image area that Nyset sets: its first byte and its size (R384).
Left open by the spec: log entry 36 (PRESUMED). -/
def imageArea : Nat × Nat := (0xFFFF00000, 2 ^ 20)

/-- The bytes of the secure image area that are not 0. Left open by the spec: log entry 36 (PRESUMED). -/
def State.areaBytes (s : State) : List (Nat × Byte) :=
  s.dev.cells.filter fun c => decide (s.storeAddr imageArea.1 ≤ c.1 ∧ c.1 < s.storeAddr imageArea.1 + imageArea.2)

/-- Nyset sets NYSET, once it has set the world bits and the secure image area, which are measured now (R402, R405).
Left open by the spec: log entry 36 (PRESUMED). -/
def State.setNyset (s : State) : State :=
  if s.boot.recovery then s
  else
    { s with boot := { s.boot with
        area := some imageArea
        m3 := extended512 s.boot.m3 (bytes512 (Config.configDigest s.worldBits imageArea s.areaBytes)) } }.setReady 41 true

/-- An image written to the flash: a package in recovery checks it and goes on with step 2 where it is accepted (R405).
Left open by the spec: log entry 36 (PRESUMED). -/
def State.writeFlash (s : State) (bs : List Byte) : State :=
  let s := { s with boot := { s.boot with image := some bs } }
  if s.boot.recovery && s.boot.step == 3 && (bringParts 3).all s.boot.settled.contains && imageAccepted bs then
    State.checkNyset { s with boot := { s.boot with step := 2, settled := [] } }
  else s

/-- The rails of step 8: those of the clusters whose die is up are asked for (R402). -/
def State.rampClusters (s : State) : State :=
  (List.range 96).foldl (fun (s : State) (c : Nat) =>
    if s.ready (c / 12) then s.setCp c 3 (withBit (s.cp c 3) 63 true) else s) s

/-- Whether a part can finish so: a cluster once its controller has come to ACTIVE through RAMPING, INIT and QUIESCED,
and a cluster that fails does not (R381, R402). -/
def State.partEnds (s : State) (p : BringPart) (ok : Bool) : Bool :=
  match p with
  | .cluster c => ok == (s.cpState c == 0)
  | .rom | .nyset | .edge _ | .host | .die _ | .hbm _ | .dispatch | .preath _ | .cxl _ | .click _ => true

/-- What a part does when it is done. A cluster's controller holds its reset values (R379, R402). -/
def State.bringUp (s : State) (p : BringPart) : State :=
  let s := match bringBit? p with
    | some b => s.setReady b true
    | none => s
  match p with
  | .hbm d => { s with dev := s.dev.zero (d * 2 ^ 36) (2 ^ 36) }
  | .cluster c =>
    { s with
      cpRegs := s.cpRegs.filter fun r => (r.1 - 0x400) / 8 != c
      railHeld := s.railHeld.filter (· != c) }
  | .cxl p => { s with cxlDown := s.cxlDown.filter (· != p) }
  | .rom => State.checkNyset { s with boot := { s.boot with m1 := extended512 s.boot.m1 (bytes512 Config.romDigest) } }
  | .nyset | .edge _ | .host | .die _ | .dispatch | .preath _ | .click _ => s

/-- The step after one that has ended; in recovery it is the last after step 3 (R405). -/
def State.nextBringStep (s : State) : State :=
  let b := s.boot
  if (bringParts b.step).all b.settled.contains then
    if b.recovery && b.step == 3 then s
    else
      let s := if b.step = 7 then s.rampClusters else s
      { s with boot := { b with step := b.step + 1, settled := [] } }
  else s

/-- BRINGUP_STEP_DONE: a part of the step under way finishes; one that fails leaves its ready bit at 0. -/
def State.stepBringupDone (s : State) (p : BringPart) (ok : Bool) : Option State :=
  if !(bringParts s.boot.step).contains p || s.boot.settled.contains p || !s.partEnds p ok then none
  else
    let t := if p == BringPart.nyset then (if ok then s.setNyset else s) else if ok || p == BringPart.rom then s.bringUp p else s
    some { t with boot := { t.boot with settled := p :: t.boot.settled } }.nextBringStep

def execBringupStepDone (p : BringPart) (ok : Bool) (s : State) : Res := taken (s.stepBringupDone p ok)

/-! ### Attestation (R406) -/

/-! The codes and forms of the messages are those of SPDM 1.3, which the spec names. -/
namespace Spdm
def digests : Nat := 0x01
/-- Left open by the spec: log entry 36 (PRESUMED). -/
def certificate : Nat := 0x02
/-- Left open by the spec: log entry 36 (PRESUMED). -/
def challengeAuth : Nat := 0x03
/-- Left open by the spec: log entry 36 (PRESUMED). -/
def version : Nat := 0x04
/-- Left open by the spec: log entry 36 (PRESUMED). -/
def measurements : Nat := 0x60
/-- Left open by the spec: log entry 36 (PRESUMED). -/
def capabilities : Nat := 0x61
/-- Left open by the spec: log entry 36 (PRESUMED). -/
def algorithms : Nat := 0x63
/-- Left open by the spec: log entry 36 (PRESUMED). -/
def error : Nat := 0x7F
def getDigests : Nat := 0x81
def getCertificate : Nat := 0x82
def challenge : Nat := 0x83
def getVersion : Nat := 0x84
def getMeasurements : Nat := 0xE0
def getCapabilities : Nat := 0xE1
def negotiate : Nat := 0xE3
end Spdm

/-- Left open by the spec: log entry 36 (PRESUMED). -/
def spdmHead (version code p1 p2 : Nat) : List Byte :=
  [BitVec.ofNat 8 version, BitVec.ofNat 8 code, BitVec.ofNat 8 p1, BitVec.ofNat 8 p2]

/-- An answer of Insole: ERROR with a code. -/
def State.spdmError (s : State) (code : Nat) : State := s.send (.spdm (spdmHead 0x13 Spdm.error code 0))

/-- Free bytes, eight at a time. -/
def State.freeList (s : State) (words : Nat) : List Byte × State :=
  ((List.range words).flatMap fun i => bytesOf 8 (Config.freeWord (s.free + i)).toNat, { s with free := s.free + words })

def State.setBoot (s : State) (b : Boot) : State := { s with boot := b }

/-- A request: Busy before NYSET; InvalidRequest with another code; UnexpectedRequest before its turn.
Left open by the spec: log entry 36 (PRESUMED). -/
def State.spdmRequest (s : State) (req : List Byte) (code least : Nat) (answer : State → State) : State :=
  if !s.ready 41 then s.spdmError 0x03
  else if fieldAt req 1 1 ≠ code then s.spdmError 0x01
  else if s.boot.spdm < least then s.spdmError 0x04
  else answer s

/-- GET_VERSION: version 1.3, and a new connection. -/
def execGetVersion (req : List Byte) (s : State) : Res :=
  .next (s.spdmRequest req Spdm.getVersion 0 fun s =>
    let r := spdmHead 0x10 Spdm.version 0 0 ++ [0, 1, 0x00, 0x13]
    (s.setBoot { s.boot with spdm := 1, vca := req ++ r, chain := [], meas := [] }).send (.spdm r))

/-- GET_CAPABILITIES: certificates, challenges, signed measurements; no session and no mutual authentication. The
times and sizes are free. -/
def execGetCapabilities (req : List Byte) (s : State) : Res :=
  .next (s.spdmRequest req Spdm.getCapabilities 1 fun s =>
    let f := s.freeList 2
    let r := spdmHead 0x13 Spdm.capabilities 0 0 ++ [0, f.1.headD 0, 0, 0] ++ bytesOf 4 0x16 ++ (f.1.drop 8).take 8
    (f.2.setBoot { f.2.boot with spdm := 2, vca := f.2.boot.vca ++ req ++ r }).send (.spdm r))

/-- NEGOTIATE_ALGORITHMS: SHA3-512, and ML-DSA-87 as an extended asymmetric algorithm, whose number is free. -/
def execNegotiateAlgorithms (req : List Byte) (s : State) : Res :=
  .next (s.spdmRequest req Spdm.negotiate 2 fun s =>
    let f := s.freeList 1
    let r := spdmHead 0x13 Spdm.algorithms 0 0 ++ bytesOf 2 40 ++ [1, 0] ++ bytesOf 4 0x40 ++ bytesOf 4 0 ++
      bytesOf 4 0x20 ++ List.replicate 12 0 ++ [1, 0, 0, 0] ++ f.1.take 4
    (f.2.setBoot { f.2.boot with spdm := 3, vca := f.2.boot.vca ++ req ++ r }).send (.spdm r))

/-- The package's identity key, from its fused secret and PKGID, and the chain of the one slot, which ends in it. -/
def identityKey : List Byte := Config.identityKey Config.fusedSecret Config.packageId
def identityChain : List Byte := Config.certificateChain identityKey

/-- GET_DIGESTS: slot 0 supported and provisioned, and the digest of its chain. -/
def execGetDigests (req : List Byte) (s : State) : Res :=
  .next (s.spdmRequest req Spdm.getDigests 3 fun s =>
    let r := spdmHead 0x13 Spdm.digests 1 1 ++ sha3 identityChain
    (s.setBoot { s.boot with chain := s.boot.chain ++ req ++ r }).send (.spdm r))

/-- GET_CERTIFICATE: a portion of the chain of slot 0. -/
def execGetCertificate (req : List Byte) (s : State) : Res :=
  .next (s.spdmRequest req Spdm.getCertificate 3 fun s =>
    let off := fieldAt req 4 2
    let part := (identityChain.drop off).take (fieldAt req 6 2)
    if fieldAt req 2 1 % 16 ≠ 0 ∨ identityChain.length ≤ off then s.spdmError 0x01
    else
      let r := spdmHead 0x13 Spdm.certificate 0 0 ++ bytesOf 2 part.length ++
        bytesOf 2 (identityChain.length - off - part.length) ++ part
      (s.setBoot { s.boot with chain := s.boot.chain ++ req ++ r }).send (.spdm r))

/-- The value of measurement block `i`. -/
def State.measurement (s : State) (i : Nat) : List Byte :=
  match i with
  | 1 => s.boot.m1
  | 2 => s.boot.m2
  | 3 => s.boot.m3
  | _ => bytes512 (Config.repairDigest ((List.range 96).map s.repairMap))

/-- Measurement block `i`, in the DMTF form: index, specification, size, type, size, value. -/
def State.measureBlock (s : State) (i : Nat) : List Byte :=
  [BitVec.ofNat 8 i, 1] ++ bytesOf 2 67 ++ [1] ++ bytesOf 2 64 ++ s.measurement i

/-- All blocks, which the summary hash covers. -/
def State.measureAll (s : State) : List Byte := [1, 2, 3, 4].flatMap s.measureBlock

/-- CHALLENGE: a signature over the messages so far by the identity key. -/
def execChallenge (req : List Byte) (s : State) : Res :=
  .next (s.spdmRequest req Spdm.challenge 3 fun s =>
    if fieldAt req 2 1 ≠ 0 then s.spdmError 0x01
    else
      let f := s.freeList 4
      let summary := if fieldAt req 3 1 = 0 then [] else sha3 s.measureAll
      let r := spdmHead 0x13 Spdm.challengeAuth 0 1 ++ sha3 identityChain ++ f.1 ++ summary ++ bytesOf 2 0 ++
        (req.drop 36).take 8
      let b := f.2.boot
      let signed := r ++ Config.sign identityKey (b.vca ++ b.chain ++ req ++ r)
      (f.2.setBoot { b with chain := [] }).send (.spdm signed))

/-- GET_MEASUREMENTS: their number, one block or all; signed where the request asks for it. -/
def execGetMeasurements (req : List Byte) (s : State) : Res :=
  .next (s.spdmRequest req Spdm.getMeasurements 3 fun s =>
    let op := fieldAt req 3 1
    let sign := fieldAt req 2 1 % 2 == 1
    if !(decide (op ≤ 4) || op == 0xFF) then s.spdmError 0x01
    else
      let f := s.freeList 4
      let record := if op = 0 then [] else if op = 0xFF then s.measureAll else s.measureBlock op
      let count := if op = 0 then 0 else if op = 0xFF then 4 else 1
      let r := spdmHead 0x13 Spdm.measurements (if op = 0 then 4 else 0) 0 ++ bytesOf 1 count ++ bytesOf 3 record.length ++
        record ++ f.1 ++ bytesOf 2 0 ++ (req.drop (if sign then 37 else 4)).take 8
      let b := f.2.boot
      let log := b.meas ++ req ++ r
      if sign then (f.2.setBoot { b with meas := [] }).send (.spdm (r ++ Config.sign identityKey (b.vca ++ log)))
      else (f.2.setBoot { b with meas := log }).send (.spdm r))

/-! ### Power and temperature (R408) -/

/-- POWER_SAMPLE: the input power and the hottest die as measured; a die at 105 °C ends the service.
Left open by the spec: log entry 9 (DESIGN CHOICE). -/
def State.stepPowerSample (s : State) (watts tmax : Nat) : Option State :=
  if !s.ready 41 then none
  else
    let w := watts % 2 ^ 16
    let old := s.barField 0x208 31 16
    let capped := if s.barField 0x200 15 0 ≤ w then min (old + 1) 0xFFFF else old
    let s := s.setBar 0x208 (num (w + 2 ^ 16 * capped + 2 ^ 32 * (tmax % 2 ^ 16)))
    some (if 105 ≤ tmax % 2 ^ 16 then s.outOfService else s)

def execPowerSample (watts tmax : Nat) (s : State) : Res := taken (s.stepPowerSample watts tmax)

/-- THERMAL_SHUTDOWN: a die has reached 105 °C. Left open by the spec: log entry 35 (DESIGN CHOICE). -/
def State.stepThermalShutdown (s : State) : Option State :=
  if s.boot.step = 0 then none else some s.outOfService

def execThermalShutdown (s : State) : Res := taken s.stepThermalShutdown

end Sys2Proof.Machine
end

