-- ==== Sys2Proof/Machine/Ats.lean ====
section
/-!
DEFINITION. Ats.lean: what the host answers about its pages (R333 to R335, R373).
-/

namespace Sys2Proof.Machine

/-- Whether two keys name one page of one PASID. -/
def State.samePage (s : State) (a b : PageKey) : Bool := s.pasid a.asid == s.pasid b.asid && a.va == b.va

/-- The strands that wait for a translation. -/
def State.atsHolders (s : State) (k : PageKey) : List (StrandKey × (PageKey × Held)) :=
  s.strands.filterMap fun t => match t.wait with
    | some (.ats k' a) => if k'.die == k.die && s.samePage k k' then some (t.key, (k', a)) else none
    | _ => none

/-- The strands that wait for a page request. -/
def State.pageHolders (s : State) (k : PageKey) : List (StrandKey × Held) :=
  s.strands.filterMap fun t => match t.wait with
    | some (.hostPage k' a) => if s.samePage k k' && k'.kind == k.kind then some (t.key, a) else none
    | _ => none

/-- An access whose translation permits it nothing goes to a page request; a .spec load sends none, and while PRI is
stopped the request fails at once (R186, R334, R373). -/
def State.toPage (s : State) (x : StrandKey × (PageKey × Held)) : State :=
  match x.2.2.waiter with
  | .spec _ => s.failHeld x.1 x.2.2 Cause.hostPageFail 0
  | .plain | .fetch | .spawn _ | .copyGo =>
    if s.priStopped.contains (s.asidFn x.2.1.asid) then s.failHeld x.1 x.2.2 Cause.hostPageFail (num (0x0F * 2 ^ 8))
    else (s.askPage x.2.1 none).onStrand x.1 fun t => { t with wait := some (.hostPage x.2.1 x.2.2) }

/-- The ATC entry of a completion: at most 1 GiB around the page asked for. -/
def atcEntry (k : PageKey) (pasid log2size frame : Nat) (read write exec : Bool) : AtcEntry :=
  let size := 2 ^ log2size
  let piece := 2 ^ min log2size 30
  let va := k.va.toNat / piece * piece
  ⟨k.die, pasid, va, piece, frame / size * size + (va - k.va.toNat / size * size), read, write, exec⟩

/-- An entry kept in place of those it overlaps and, where the die's 8,192 are full, of the oldest (R333).
Left open by the spec: log entry 27 (DESIGN CHOICE). -/
def State.keepAtc (s : State) (e : AtcEntry) : State :=
  { s with atc := e :: keepFirst (fun f => f.die == e.die) 8191 (s.atc.filter fun f =>
      !(f.die == e.die && f.pasid == e.pasid && decide (f.va < e.va + e.size ∧ e.va < f.va + f.size))) }

/-- The failure of units' accesses, which each of them finds when its unit makes it.
Left open by the spec: log entry 27 (DESIGN CHOICE). -/
def State.noteFailed (s : State) (k : PageKey) (units : List (PageKind × Asker)) (code : Nat) : State :=
  { s with pageFailed := (units.map fun u => (⟨{ k with kind := u.1 }, u.2, code⟩ : PageRefusal)) ++ s.pageFailed }

/-- A unit's access whose translation permits it nothing goes to a page request of its own (R373); while PRI is stopped
it fails at once (R334). -/
def State.unitToPage (s : State) (k : PageKey) (by_ : Asker) : State :=
  if s.priStopped.contains (s.asidFn k.asid) then s.noteFailed k [(k.kind, by_)] 0x0F else s.askPage k (some by_)

/-- ATS_TRANSLATION_COMPLETION (R333, R334, R373): of a request that stands. -/
def State.stepAtsCompletion (s : State) (k : PageKey) (a : AtsAnswer) : Option State :=
  match s.ats.find? (s.sameAts k) with
  | none => none
  | some q =>
    let hs := s.atsHolders k
    let s := { s with ats := s.ats.filter fun r => !s.sameAts k r }
    match a with
    | .error =>
      some ((s.noteFailed q.key q.units 0xFF).failAll (hs.map fun x => (x.1, x.2.2)) Cause.hostPageFail
        (num (0xFF * 2 ^ 8)))
    | .page log2size frame r w x =>
      if log2size < 12 then none
      else if r || w then some (s.keepAtc (atcEntry q.key (s.pasid k.asid) log2size frame r w x))
      else
        some (q.units.foldl (fun (s : State) (u : PageKind × Asker) => s.unitToPage { q.key with kind := u.1 } u.2)
          (hs.foldl State.toPage s))

def execAtsTranslationCompletion (k : PageKey) (a : AtsAnswer) (s : State) : Res := taken (s.stepAtsCompletion k a)

/-- Waiting page requests that a function has room for are sent. -/
def State.sendPending (s : State) (fn : Nat) : Nat → State
  | 0 => s
  | fuel + 1 =>
    match s.pri.find? fun r => r.fn == fn && !r.sent with
    | none => s
    | some r =>
      if !s.priRoom fn then s
      else
        let now : PageReq → PageReq := fun q => if q = r then { q with sent := true } else q
        ({ s with pri := s.pri.map now }.send (.pageRequest r.key (s.pasid r.key.asid))).sendPending fn fuel

/-- A page request that fails: the accesses that wait on it. -/
def State.failPage (s : State) (q : PageReq) (code : Nat) : State :=
  let hs := s.pageHolders q.key
  let s := s.noteFailed q.key (q.units.map fun u => (q.key.kind, u)) code
  ({ s with pri := s.pri.filter fun r => !s.samePri q.key r }).failAll hs Cause.hostPageFail (num (code * 2 ^ 8))

/-- PAGE_REQUEST_RESPONSE (R334): to a request that has been sent. On Success the accesses repeat their checks and
translate the page anew. Left open by the spec: log entry 27 (DESIGN CHOICE). -/
def State.stepPageResponse (s : State) (k : PageKey) (a : PriAnswer) : Option State :=
  match s.pri.find? fun r => s.samePri k r && r.sent with
  | none => none
  | some q =>
    let fn := q.fn
    match a with
    | .success =>
      let s := { s with
        pri := s.pri.filter fun r => !s.samePri k r
        atc := s.atc.filter fun e =>
          !(e.pasid == s.pasid k.asid && decide (e.va ≤ k.va.toNat ∧ k.va.toNat < e.va + e.size)) }
      some (s.sendPending fn (s.pri.length + 1))
    | .invalid =>
      let s := s.failPage q 0x01
      some (s.sendPending fn (s.pri.length + 1))
    | .failure =>
      let s := { s with priStopped := natsInsert fn s.priStopped }
      let waiting := s.pri.filter fun r => r.fn == fn && !r.sent
      some (waiting.foldl (fun (s : State) (q : PageReq) => s.failPage q 0x0F) (s.failPage q 0x0F))

def execPageRequestResponse (k : PageKey) (a : PriAnswer) (s : State) : Res := taken (s.stepPageResponse k a)

/-- ATS_INVALIDATE_REQUEST (R335): entries of the PASID that overlap the range go; requests in flight for it are sent
again; the accesses that used what is removed are waited for. -/
def State.invalidate (s : State) (pasid va size itag : Nat) : State :=
  let hit (a n : Nat) : Bool := decide (a < va + size ∧ va < a + n)
  let gone := s.atc.filter fun e => e.pasid == pasid && hit e.va e.size
  let used (asid : Nat) (a : Word) : Bool :=
    s.asidHost asid && s.pasid asid == pasid &&
      (hit a.toNat 1 || gone.any fun e => decide (e.va ≤ a.toNat ∧ a.toNat < e.va + e.size))
  let again := s.ats.filter fun r => s.pasid r.key.asid == pasid && hit r.key.va.toNat 4096
  let users := s.users used
  let n := s.newId
  let s := { n.2 with
    atc := s.atc.filter fun e => !(e.pasid == pasid && hit e.va e.size)
    removals := ⟨n.1, users.1, users.2, none, false, some itag⟩ :: s.removals }
  again.foldl (fun (s : State) (r : AtsReq) => s.send (.translation r.key pasid r.priv)) s

def execAtsInvalidateRequest (pasid va size itag : Nat) (s : State) : Res := .next (s.invalidate pasid va size itag)

/-- INVALIDATE_COMPLETION (R335). -/
def State.stepInvalidateCompletion (s : State) (itag : Nat) : Option State :=
  match s.removals.find? fun r => r.itag == some itag && s.removalDone r with
  | none => none
  | some r => some ({ s with removals := s.removals.filter fun x => x.id != r.id }.send (.invalidated itag))

def execInvalidateCompletion (itag : Nat) (s : State) : Res := taken (s.stepInvalidateCompletion itag)

end Sys2Proof.Machine
end

