-- ==== Sys2Proof/Machine/Integer.lean ====
section
/-!
DEFINITION. Integer.lean: IOP and IOPI, the integer operations of R133 to R137 (06).
-/

namespace Sys2Proof.Machine

/-! ### The functions of R134, on 64 or 32 bits -/

/-- n low bits set, for n up to 64. -/
def lowOnes (n : Nat) : Word := (1#64 <<< n) - 1

/-- A value built from a predicate on bit numbers. -/
def bitsOf (n : Nat) (f : Nat → Bool) : BitVec n :=
  (List.range n).foldr (fun i w => if f i then w ||| (1#n <<< i) else w) 0

def addFn {n : Nat} (a b : BitVec n) : BitVec n := a + b
def subFn {n : Nat} (a b : BitVec n) : BitVec n := a - b
def shlFn {n : Nat} (a b : BitVec n) : BitVec n := a <<< (b.toNat % n)
def shrFn {n : Nat} (a b : BitVec n) : BitVec n := a >>> (b.toNat % n)
def sarFn {n : Nat} (a b : BitVec n) : BitVec n := a.sshiftRight (b.toNat % n)
def rolFn {n : Nat} (a b : BitVec n) : BitVec n := a.rotateLeft (b.toNat % n)
def rorFn {n : Nat} (a b : BitVec n) : BitVec n := a.rotateRight (b.toNat % n)
def mulFn {n : Nat} (a b : BitVec n) : BitVec n := a * b
def mulhFn {n : Nat} (a b : BitVec n) : BitVec n :=
  (a.signExtend (2 * n) * b.signExtend (2 * n)).extractLsb' n n
def mulhnFn {n : Nat} (a b : BitVec n) : BitVec n :=
  (a.setWidth (2 * n) * b.setWidth (2 * n)).extractLsb' n n
def divFn {n : Nat} (a b : BitVec n) : BitVec n := if b = 0 then BitVec.allOnes n else a.sdiv b
def divnFn {n : Nat} (a b : BitVec n) : BitVec n := if b = 0 then BitVec.allOnes n else a / b
def remFn {n : Nat} (a b : BitVec n) : BitVec n := if b = 0 then a else a.srem b
def remnFn {n : Nat} (a b : BitVec n) : BitVec n := if b = 0 then a else a % b
def minFn {n : Nat} (a b : BitVec n) : BitVec n := if a.slt b then a else b
def maxFn {n : Nat} (a b : BitVec n) : BitVec n := if a.slt b then b else a
def minnFn {n : Nat} (a b : BitVec n) : BitVec n := if a.ult b then a else b
def maxnFn {n : Nat} (a b : BitVec n) : BitVec n := if a.ult b then b else a
def clzFn {n : Nat} (a : BitVec n) : BitVec n :=
  BitVec.ofNat n (if a = 0 then n else n - 1 - Nat.log2 a.toNat)
def ctzFn {n : Nat} (a : BitVec n) : BitVec n := BitVec.ofNat n (((List.range n).find? a.getLsbD).getD n)
def popFn {n : Nat} (a : BitVec n) : BitVec n := BitVec.ofNat n ((List.range n).countP a.getLsbD)
def brevFn {n : Nat} (a : BitVec n) : BitVec n := bitsOf n fun i => a.getLsbD (n - 1 - i)
def bswapFn {n : Nat} (a : BitVec n) : BitVec n := bitsOf n fun i => a.getLsbD (n - 8 - 8 * (i / 8) + i % 8)

/-- SignExt(a[p:0], 64). -/
def sextFn (a : Word) (p : Nat) : Word := (a <<< (63 - p)).sshiftRight (63 - p)
/-- ZeroExt(a[p:0], 64). -/
def zextFn (a : Word) (p : Nat) : Word := (a <<< (63 - p)) >>> (63 - p)
/-- The n bits of a from bit p up; what would lie above bit 63 is 0. -/
def bfxFn (a : Word) (p n : Nat) : Word := (a >>> p) &&& lowOnes n
/-- d with its n bits from bit p up replaced by the low bits of a. -/
def bfiFn (d a : Word) (p n : Nat) : Word :=
  let mask := lowOnes n <<< p
  (d &&& ~~~mask) ||| ((a <<< p) &&& mask)

/-- A bit position or a shift count: the low 6 bits (R134). -/
def low6 (b : Word) : Nat := b.toNat % 64
/-- A length: Min(c as natural, 64). -/
def lenOf (c : Word) : Nat := min c.toNat 64

/-- The 32-bit form of a function (R135): its result is sign-extended from bit 31. -/
def inW (r : Lane) : Word := r.signExtend 64
def low32 (a : Word) : Lane := a.setWidth 32

/-! ### Shapes of instruction -/

/-- A result written to xD from sources read as values; its poison is theirs joined (R137). -/
def xResult (g : Guard) (d : XReg) (srcs : List XReg) (f : State → Word) (s : State) : Res :=
  frame g (d :: srcs) [] (fun s => .ok (s.setX d (f s) (srcs.any s.xPois))) s

def alu3w (g : Guard) (o : X3w) (f64 : Word → Word → Word) (f32 : Lane → Lane → Lane) (s : State) : Res :=
  xResult g o.d [o.a, o.b]
    (fun s => if o.w then inW (f32 (low32 (s.xr o.a)) (low32 (s.xr o.b))) else f64 (s.xr o.a) (s.xr o.b)) s

def alu3 (g : Guard) (o : X3) (f : Word → Word → Word) (s : State) : Res :=
  xResult g o.d [o.a, o.b] (fun s => f (s.xr o.a) (s.xr o.b)) s

def alu2w (g : Guard) (o : X2w) (f64 : Word → Word) (f32 : Lane → Lane) (s : State) : Res :=
  xResult g o.d [o.a] (fun s => if o.w then inW (f32 (low32 (s.xr o.a))) else f64 (s.xr o.a)) s

/-- The immediate of format I (R109). -/
def imm22 (i : BitVec 22) : Word := i.signExtend 64

def aluIw (g : Guard) (o : XIw) (f64 : Word → Word → Word) (f32 : Lane → Lane → Lane) (s : State) : Res :=
  xResult g o.d [o.a]
    (fun s => if o.w then inW (f32 (low32 (s.xr o.a)) (low32 (imm22 o.imm))) else f64 (s.xr o.a) (imm22 o.imm)) s

def aluI (g : Guard) (o : XI) (f : Word → Word → Word) (s : State) : Res :=
  xResult g o.d [o.a] (fun s => f (s.xr o.a) (imm22 o.imm)) s

/-! ### IOP (R134, R135) -/

def execAdd (g : Guard) (o : X3w) (s : State) : Res := alu3w g o addFn addFn s
def execSub (g : Guard) (o : X3w) (s : State) : Res := alu3w g o subFn subFn s
def execAnd (g : Guard) (o : X3) (s : State) : Res := alu3 g o (fun a b => a &&& b) s
def execOr (g : Guard) (o : X3) (s : State) : Res := alu3 g o (fun a b => a ||| b) s
def execXor (g : Guard) (o : X3) (s : State) : Res := alu3 g o (fun a b => a ^^^ b) s
def execAndn (g : Guard) (o : X3) (s : State) : Res := alu3 g o (fun a b => a &&& ~~~b) s
def execOrn (g : Guard) (o : X3) (s : State) : Res := alu3 g o (fun a b => a ||| ~~~b) s
def execShl (g : Guard) (o : X3w) (s : State) : Res := alu3w g o shlFn shlFn s
def execShr (g : Guard) (o : X3w) (s : State) : Res := alu3w g o shrFn shrFn s
def execSar (g : Guard) (o : X3w) (s : State) : Res := alu3w g o sarFn sarFn s
def execRol (g : Guard) (o : X3w) (s : State) : Res := alu3w g o rolFn rolFn s
def execRor (g : Guard) (o : X3w) (s : State) : Res := alu3w g o rorFn rorFn s
def execMul (g : Guard) (o : X3w) (s : State) : Res := alu3w g o mulFn mulFn s
def execMulh (g : Guard) (o : X3w) (s : State) : Res := alu3w g o mulhFn mulhFn s
def execMulhn (g : Guard) (o : X3w) (s : State) : Res := alu3w g o mulhnFn mulhnFn s

/-- MADD: a × b + c, modulo the width. -/
def execMadd (g : Guard) (o : X4w) (s : State) : Res :=
  xResult g o.d [o.a, o.b, o.c]
    (fun s =>
      let r := s.xr o.a * s.xr o.b + s.xr o.c
      if o.w then inW (low32 r) else r) s

def execDiv (g : Guard) (o : X3w) (s : State) : Res := alu3w g o divFn divFn s
def execDivn (g : Guard) (o : X3w) (s : State) : Res := alu3w g o divnFn divnFn s
def execRem (g : Guard) (o : X3w) (s : State) : Res := alu3w g o remFn remFn s
def execRemn (g : Guard) (o : X3w) (s : State) : Res := alu3w g o remnFn remnFn s
def execMin (g : Guard) (o : X3w) (s : State) : Res := alu3w g o minFn minFn s
def execMax (g : Guard) (o : X3w) (s : State) : Res := alu3w g o maxFn maxFn s
def execMinn (g : Guard) (o : X3w) (s : State) : Res := alu3w g o minnFn minnFn s
def execMaxn (g : Guard) (o : X3w) (s : State) : Res := alu3w g o maxnFn maxnFn s

/-- SEL: the source cK selects, with its poison (R137). -/
def execSel (g : Guard) (o : SelOp) (s : State) : Res :=
  frame g [o.d, o.a, o.b] [] (fun s =>
    let r := if s.cr o.k then o.a else o.b
    .ok (s.setX o.d (s.xr r) (s.xPois r))) s

def execClz (g : Guard) (o : X2w) (s : State) : Res := alu2w g o clzFn clzFn s
def execCtz (g : Guard) (o : X2w) (s : State) : Res := alu2w g o ctzFn ctzFn s
def execPop (g : Guard) (o : X2w) (s : State) : Res := alu2w g o popFn popFn s
def execBrev (g : Guard) (o : X2w) (s : State) : Res := alu2w g o brevFn brevFn s
def execBswap (g : Guard) (o : X2w) (s : State) : Res := alu2w g o bswapFn bswapFn s
def execSext (g : Guard) (o : X3) (s : State) : Res := alu3 g o (fun a b => sextFn a (low6 b)) s
def execZext (g : Guard) (o : X3) (s : State) : Res := alu3 g o (fun a b => zextFn a (low6 b)) s

def execBfx (g : Guard) (o : X4) (s : State) : Res :=
  xResult g o.d [o.a, o.b, o.c] (fun s => bfxFn (s.xr o.a) (low6 (s.xr o.b)) (lenOf (s.xr o.c))) s

/-- BFI reads xD as well as writing it (R133, R137). -/
def execBfi (g : Guard) (o : X4) (s : State) : Res :=
  xResult g o.d [o.d, o.a, o.b, o.c]
    (fun s => bfiFn (s.xr o.d) (s.xr o.a) (low6 (s.xr o.b)) (lenOf (s.xr o.c))) s

/-! ### IOPI (R136) -/

def execIopiAdd (g : Guard) (o : XIw) (s : State) : Res := aluIw g o addFn addFn s
def execIopiAnd (g : Guard) (o : XI) (s : State) : Res := aluI g o (fun a b => a &&& b) s
def execIopiOr (g : Guard) (o : XI) (s : State) : Res := aluI g o (fun a b => a ||| b) s
def execIopiXor (g : Guard) (o : XI) (s : State) : Res := aluI g o (fun a b => a ^^^ b) s
def execIopiShl (g : Guard) (o : XIw) (s : State) : Res := aluIw g o shlFn shlFn s
def execIopiShr (g : Guard) (o : XIw) (s : State) : Res := aluIw g o shrFn shrFn s
def execIopiSar (g : Guard) (o : XIw) (s : State) : Res := aluIw g o sarFn sarFn s
def execIopiRol (g : Guard) (o : XIw) (s : State) : Res := aluIw g o rolFn rolFn s
def execIopiRor (g : Guard) (o : XIw) (s : State) : Res := aluIw g o rorFn rorFn s
def execIopiMul (g : Guard) (o : XIw) (s : State) : Res := aluIw g o mulFn mulFn s
def execIopiMin (g : Guard) (o : XIw) (s : State) : Res := aluIw g o minFn minFn s
def execIopiMax (g : Guard) (o : XIw) (s : State) : Res := aluIw g o maxFn maxFn s
def execIopiMinn (g : Guard) (o : XIw) (s : State) : Res := aluIw g o minnFn minnFn s
def execIopiMaxn (g : Guard) (o : XIw) (s : State) : Res := aluIw g o maxnFn maxnFn s

def execIopiSext (g : Guard) (o : ExtI) (s : State) : Res :=
  xResult g o.d [o.a] (fun s => sextFn (s.xr o.a) o.p.toNat) s

def execIopiZext (g : Guard) (o : ExtI) (s : State) : Res :=
  xResult g o.d [o.a] (fun s => zextFn (s.xr o.a) o.p.toNat) s

def execIopiBfx (g : Guard) (o : BfI) (s : State) : Res :=
  xResult g o.d [o.a] (fun s => bfxFn (s.xr o.a) o.p.toNat o.n.toNat) s

def execIopiBfi (g : Guard) (o : BfI) (s : State) : Res :=
  xResult g o.d [o.d, o.a] (fun s => bfiFn (s.xr o.d) (s.xr o.a) o.p.toNat o.n.toNat) s

end Sys2Proof.Machine
end

