-- ==== Sys2Proof/Machine/Compare.lean ====
section
/-!
DEFINITION. Compare.lean: CMP, CMPI and PLOG, the compares and condition-register operations of R138 and R139.
-/

namespace Sys2Proof.Machine

/-- A condition at the width .w selects. -/
def ICond.at (c : ICond) (w : Bool) (a b : Word) : Bool :=
  if w then c.holds (low32 a) (low32 b) else c.holds a b

/-- CMP: a poisoned operand raises POISON; otherwise cD takes the combined truth (R138). -/
def cmpOp (g : Guard) (o : CmpOp) (c : ICond) (s : State) : Res :=
  frame g [o.a, o.b] [] (fun s =>
    if s.xPois o.a || s.xPois o.b then .trap Cause.poison 0 0
    else .ok (s.setC o.d (combine o.comb (s.cr o.d) (c.at o.w (s.xr o.a) (s.xr o.b))))) s

/-- CMPI: as CMP, with the immediate in b's place (R138). -/
def cmpIOp (g : Guard) (o : CmpIOp) (c : ICond) (s : State) : Res :=
  frame g [o.a] [] (fun s =>
    if s.xPois o.a then .trap Cause.poison 0 0
    else .ok (s.setC o.d (combine o.comb (s.cr o.d) (c.at o.w (s.xr o.a) (imm22 o.imm))))) s

def execCmpEq (g : Guard) (o : CmpOp) (s : State) : Res := cmpOp g o .eq s
def execCmpNe (g : Guard) (o : CmpOp) (s : State) : Res := cmpOp g o .ne s
def execCmpLt (g : Guard) (o : CmpOp) (s : State) : Res := cmpOp g o .lt s
def execCmpGe (g : Guard) (o : CmpOp) (s : State) : Res := cmpOp g o .ge s
def execCmpLe (g : Guard) (o : CmpOp) (s : State) : Res := cmpOp g o .le s
def execCmpGt (g : Guard) (o : CmpOp) (s : State) : Res := cmpOp g o .gt s
def execCmpLtn (g : Guard) (o : CmpOp) (s : State) : Res := cmpOp g o .ltn s
def execCmpGen (g : Guard) (o : CmpOp) (s : State) : Res := cmpOp g o .gen s
def execCmpLen (g : Guard) (o : CmpOp) (s : State) : Res := cmpOp g o .len s
def execCmpGtn (g : Guard) (o : CmpOp) (s : State) : Res := cmpOp g o .gtn s
def execCmpTst (g : Guard) (o : CmpOp) (s : State) : Res := cmpOp g o .tst s
def execCmpNtst (g : Guard) (o : CmpOp) (s : State) : Res := cmpOp g o .ntst s

def execCmpiEq (g : Guard) (o : CmpIOp) (s : State) : Res := cmpIOp g o .eq s
def execCmpiNe (g : Guard) (o : CmpIOp) (s : State) : Res := cmpIOp g o .ne s
def execCmpiLt (g : Guard) (o : CmpIOp) (s : State) : Res := cmpIOp g o .lt s
def execCmpiGe (g : Guard) (o : CmpIOp) (s : State) : Res := cmpIOp g o .ge s
def execCmpiLe (g : Guard) (o : CmpIOp) (s : State) : Res := cmpIOp g o .le s
def execCmpiGt (g : Guard) (o : CmpIOp) (s : State) : Res := cmpIOp g o .gt s
def execCmpiLtn (g : Guard) (o : CmpIOp) (s : State) : Res := cmpIOp g o .ltn s
def execCmpiGen (g : Guard) (o : CmpIOp) (s : State) : Res := cmpIOp g o .gen s
def execCmpiLen (g : Guard) (o : CmpIOp) (s : State) : Res := cmpIOp g o .len s
def execCmpiGtn (g : Guard) (o : CmpIOp) (s : State) : Res := cmpIOp g o .gtn s
def execCmpiTst (g : Guard) (o : CmpIOp) (s : State) : Res := cmpIOp g o .tst s
def execCmpiNtst (g : Guard) (o : CmpIOp) (s : State) : Res := cmpIOp g o .ntst s

/-- The condition operations of PLOG on two sources (R139). -/
def plog (g : Guard) (o : C3) (f : Bool → Bool → Bool) (s : State) : Res :=
  frame g [] [] (fun s => .ok (s.setC o.d (f (s.cr o.a) (s.cr o.b)))) s

def execPand (g : Guard) (o : C3) (s : State) : Res := plog g o (fun a b => a && b) s
def execPor (g : Guard) (o : C3) (s : State) : Res := plog g o (fun a b => a || b) s
def execPxor (g : Guard) (o : C3) (s : State) : Res := plog g o (fun a b => a != b) s
def execPandn (g : Guard) (o : C3) (s : State) : Res := plog g o (fun a b => a && !b) s

def execPnot (g : Guard) (o : C2) (s : State) : Res :=
  frame g [] [] (fun s => .ok (s.setC o.d (!s.cr o.a))) s

/-- PSETX: c1 to c7 from bits 7:1 of xA; a poisoned source raises POISON (R139). -/
def execPsetx (g : Guard) (o : SrcX) (s : State) : Res :=
  frame g [o.a] [] (fun s =>
    if s.xPois o.a then .trap Cause.poison 0 0
    else .ok (s.onMe fun t => { t with c := (s.xr o.a).setWidth 8 ||| 1#8 })) s

/-- XGETP: c7 … c0 as bits 7:0 of xD; bit 0 reads 1 (R139). -/
def execXgetp (g : Guard) (o : DstX) (s : State) : Res :=
  frame g [o.d] [] (fun s => .ok (s.setX o.d ((s.me.c ||| 1#8).setWidth 64) false)) s

end Sys2Proof.Machine
end

