-- ==== Sys2Proof/Machine/Constants.lean ====
section
/-!
DEFINITION. Constants.lean: MOVW, MOVK, LEA and MOVL (R113, R141, R142).
-/

namespace Sys2Proof.Machine

/-- The first bit of quarter S of an x register. -/
def sliceBit (s : BitVec 2) : Nat := 16 * s.toNat

/-- MOVW: the value in one quarter, the rest 0, poison clear (R141). -/
def execMovw (g : Guard) (o : MovwOp) (s : State) : Res :=
  frame g [o.d] [] (fun s => .ok (s.setX o.d (o.imm.setWidth 64 <<< sliceBit o.slice) false)) s

/-- MOVK: one quarter replaced; the rest and the poison are kept (R141). -/
def execMovk (g : Guard) (o : MovwOp) (s : State) : Res :=
  frame g [o.d] [] (fun s =>
    let keep := s.xr o.d &&& ~~~(0xFFFF#64 <<< sliceBit o.slice)
    .ok (s.setX o.d (keep ||| (o.imm.setWidth 64 <<< sliceBit o.slice)) (s.xPois o.d))) s

/-- LEA: xA + (xB << s) + disp; it neither translates nor traps (R142). -/
def execLea (g : Guard) (o : LeaOp) (s : State) : Res :=
  frame g [o.d, o.a, o.b] [] (fun s =>
    .ok (s.setX o.d (s.xr o.a + (s.xr o.b <<< o.sh.toNat) + o.disp.signExtend 64)
      (s.xPois o.a || s.xPois o.b))) s

/-- MOVL: the literal word, poison clear; PC moves past both words (R105, R113). -/
def execMovl (g : Guard) (o : MovlOp) (s : State) : Res :=
  frameOf 16 g [o.d] [] (fun s => .ok (s.setX o.d o.lit false)) s

end Sys2Proof.Machine
end

