-- ==== Sys2Proof/Machine/Control.lean ====
section
/-!
DEFINITION. Control.lean: JMP, CALL and JREG (R112, R148 to R150).
-/

namespace Sys2Proof.Machine

/-- The target of format J (R112): PC + 8 × the signed offset. -/
def jumpTarget (pc : Word) (off : BitVec 30) : Word := pc + (off.signExtend 64 <<< 3)

def execJmp (g : Guard) (o : JmpOp) (s : State) : Res :=
  frame g [] [] (fun s => .go (s.onMe fun t => { t with pc := jumpTarget t.pc o.off })) s

/-- CALL: the link PC + 8, poison clear. -/
def execCall (g : Guard) (o : CallOp) (s : State) : Res :=
  frame g [o.d] [] (fun s =>
    .go (s.onMe fun t => { t.setX o.d (t.pc + 8) false with pc := jumpTarget t.pc o.off })) s

/-- The checks of a jump through a register, in the order of R150. -/
def jumpReg (s : State) (a : XReg) (then_ : Word → Eff) : Eff :=
  if s.xPois a then .trap Cause.poison 0 0
  else if (s.xr a).toNat % 8 ≠ 0 then .trap Cause.misalign (s.xr a) 0
  else then_ (s.xr a)

def execJr (g : Guard) (o : SrcX) (s : State) : Res :=
  frame g [o.a] [] (fun s => jumpReg s o.a fun t => .go (s.onMe fun m => { m with pc := t })) s

def execCallr (g : Guard) (o : X2) (s : State) : Res :=
  frame g [o.d, o.a] [] (fun s => jumpReg s o.a fun t =>
    .go (s.onMe fun m => { m.setX o.d (m.pc + 8) false with pc := t })) s

def execRet (g : Guard) (o : SrcX) (s : State) : Res :=
  frame g [o.a] [] (fun s => jumpReg s o.a fun t => .go (s.onMe fun m => { m with pc := t })) s

end Sys2Proof.Machine
end

