-- ==== Sys2Proof/Machine/Handle.lean ====
section
/-!
DEFINITION. Handle.lean: HOP (R66, R215, R216).
-/

namespace Sys2Proof.Machine

/-- A gate in each of some queues, once all have room (R29). -/
def State.enqueueGate (s : State) (hs : List HReg) (gate : Gate) : Eff :=
  match hs.find? fun h => decide (queueCap ≤ (s.me.queue h).length) with
  | some h => .wait (.queue h 1)
  | none => .ok (s.onMe fun t => hs.foldl (fun t h => t.append h (.gate gate)) t)

def execHfork (g : Guard) (o : HforkOp) (s : State) : Res :=
  frame g [] [] (fun s => s.enqueueGate [o.d] ⟨s.earlier s.me o.s, o.scope, none⟩) s

/-- HJOIN: with hD = hS one gate. -/
def execHjoin (g : Guard) (o : HforkOp) (s : State) : Res :=
  frame g [] [] (fun s =>
    if o.d = o.s then s.enqueueGate [o.d] ⟨s.earlier s.me o.s, o.scope, none⟩
    else s.enqueueGate [o.d, o.s] ⟨s.earlier s.me o.d ++ s.earlier s.me o.s, o.scope, none⟩) s

def execHjoina (g : Guard) (o : ScopeOp) (s : State) : Res :=
  frame g [] [] (fun s =>
    s.enqueueGate ((List.range 8).map (BitVec.ofNat 3)) ⟨s.earlierAll s.me, o.scope, none⟩) s

def execHwait (g : Guard) (o : HwaitOp) (s : State) : Res :=
  frame g [] [] (fun s =>
    let rs := s.earlier s.me o.s
    if s.allPerformed rs o.scope then .ok s else .wait (.handles rs (some o.s) o.scope false)) s

/-- HPASS: a token, which is a zero-byte transfer with release (R66). -/
def execHpass (g : Guard) (o : HpassOp) (s : State) : Res :=
  frame g [o.b] [] (fun s =>
    let w := s.xr o.b
    if s.xPois o.b then .trap Cause.poison 0 0
    else if !gtWellFormed w || gtOffset w != 0 then .trap Cause.handle w 0
    else s.checkTarget w (s.enqueue o.s (.transfer ⟨.none, w, s.tileVia s.me.part w, .release, o.scope⟩))) s

/-- HRECV: its tile is fixed at issue (R216). -/
def execHrecv (g : Guard) (o : HrecvOp) (s : State) : Res :=
  frame g [o.a] [] (fun s =>
    s.tileRef (.reg o.a) fun rel tile => s.enqueue o.d (.gate ⟨[], o.scope, some (tile, rel)⟩)) s

def execHcnt (g : Guard) (o : HcntOp) (s : State) : Res :=
  frame g [o.d] [] (fun s => .ok (s.setX o.d (num (s.me.queue o.s).length) false)) s

end Sys2Proof.Machine
end

