-- ==== Sys2Proof/Machine/Ingest.lean ====
section
/-!
DEFINITION. Ingest.lean: a ring enabled and disabled (R246), frames of the Clicker ports (R248 to R252, R254, R255),
the writer (R253), head delivery (R260, R261, R293), claims closed (R266), and the faults of these steps (R246).
-/

namespace Sys2Proof.Machine

/-! ### Enabling and disabling (R246) -/

/-- Little-endian numbers of `n` bytes at consecutive places of the ring block. -/
def State.ringNumbers (s : State) (n off bytes : Nat) (count : Nat) : Except RingErr (State × List Nat) :=
  (List.range count).foldlM (fun (a : State × List Nat) (i : Nat) =>
    (a.1.ringLoad n (a.1.ringBlock n (off + bytes * i)) bytes).map fun r => (r.1, a.2 ++ [natOfBytes r.2.1])) (s, [])

/-- Counters, logs and DEADFROM of the ring block as an enable leaves them, from offset 0x040. -/
def enabledCounters : List Byte :=
  ((List.range 4).flatMap fun _ => List.replicate 0x38 0 ++ List.replicate 8 0xFF) ++ List.replicate 0x240 0

/-- What the unit does on enable: it reads the configuration, then sets counters and logs. A PERIOD of 0 leaves the
times of a member open. Left open by the spec: log entry 30 (DESIGN CHOICE). -/
def State.startRing (s : State) (n : Nat) (u : RingUnit) : Except RingErr State := do
  let (s, colour) ← s.ringNumbers n 0x000 4 12
  let (s, period) ← s.ringNumbers n 0x030 8 1
  let s ← s.ringStore n (s.ringBlock n 0x040) enabledCounters false
  let p := num (period.headD 0)
  let s' := s.freshWord
  let z := if p = 0 then s' else (p, s)
  let s := (z.2.setRing n 4 0).setRing n 11 (withField (z.2.ring n 11) 31 0 0)
  .ok (s.setUnit n { u with
    stopping := false
    started := s.rgProgram n
    colour := colour
    period := z.1 })

/-- RING_ENABLE: a fault in this work is RING to the enabling strand, and EN reads 0 again. -/
def State.stepRingEnable (s : State) (n : Nat) : Option State :=
  match s.unit? n with
  | none => none
  | some u =>
    if !s.rgEnabled n || !u.stopping then none
    else
      match s.startRing n u with
      | .ok t => some t
      | .error (.wait k ats) => s.askUnit (s.ringWho n) k ats
      | .error (.fault a) =>
        let t := { s with rings := s.rings.filter fun r => r.1 != n }.setRing n 0 (withBit (s.ring n 0) 63 false)
        some ((t.raiseTo u.owner Cause.ring a 0).forgetPage (s.ringWho n) a)

def execRingEnable (ring : Nat) (s : State) : Res := taken (s.stepRingEnable ring)

/-- The claim of a ring that stops, closed without the header whose write faults; RING goes to the ring's partition. -/
def State.closeFaulted (s : State) (n : Nat) (u : RingUnit) (c : Claim) (a : Word) : State :=
  ((s.setUnit n { u with claims := u.claims.filter fun d => d.id != c.id }).forgetPage (s.ringWho n) a).faultRecord
    (s.barField (rngown n) 59 56) Cause.ring 0 a

/-- RING_DISABLE: after EN is cleared the claims close one by one, each once its keep-copy has ended and its header has
room (R266); with none left the unit ends. Left open by the spec: log entry 30 (DESIGN CHOICE). -/
def State.stepRingDisable (s : State) (n : Nat) : Option State :=
  match s.unit? n with
  | none => none
  | some u =>
    if s.rgEnabled n || !u.stopping then none
    else
      match u.claims.find? fun c => !c.busy with
      | some c =>
        if !s.headerRoom n then none
        else
          match s.closeStopped n c with
          | .ok t => some t
          | .error (.fault a) => some (s.closeFaulted n u c a)
          | .error (.wait k ats) => s.askUnit (s.ringWho n) k ats
      | none => if u.claims.isEmpty then some { s with rings := s.rings.filter fun r => r.1 != n } else none

def execRingDisable (ring : Nat) (s : State) : Res := taken (s.stepRingDisable ring)

/-! ### Frames (R248, R249) -/

/-- A number in network byte order. -/
def beAt (bs : List Byte) (off n : Nat) : Nat := natOfBytes ((bs.drop off).take n).reverse

/-- The FCS of a frame: the CRC-32 of all before it. -/
def fcsOk (bs : List Byte) : Bool :=
  decide (18 ≤ bs.length ∧ bs.length ≤ 9216) &&
    natOfBytes (bs.drop (bs.length - 4)) == (crc32 (bs.take (bs.length - 4))).toNat

/-- Bytes after the VLAN tags, at most two: the EtherType and what follows it. -/
def afterVlan : Nat → List Byte → List Byte
  | 0, bs => bs
  | fuel + 1, bs => if beAt bs 0 2 = 0x8100 ∨ beAt bs 0 2 = 0x88A8 then afterVlan fuel (bs.drop 4) else bs

/-- A UDP datagram: the bytes that its pseudo-header adds to the checksum, its IP version, and its bytes. -/
structure Datagram where
  pseudo : List Byte
  v6 : Bool
  bytes : List Byte

/-- The UDP datagram of a frame that carries one whole (R248).
Left open by the spec: log entry 26 (DESIGN CHOICE), log entry 30 (DESIGN CHOICE). -/
def datagram? (frame : List Byte) : Option Datagram :=
  let rest := afterVlan 2 ((frame.take (frame.length - 4)).drop 12)
  let ip := rest.drop 2
  let b0 := fieldAt ip 0 1
  let udp (v6 : Bool) (addrs p : List Byte) : Option Datagram :=
    let len := beAt p 4 2
    if 8 ≤ len ∧ len ≤ p.length then
      some ⟨addrs ++ [0, 17] ++ (bytesOf 2 len).reverse, v6, p.take len⟩
    else none
  if beAt rest 0 2 = 0x0800 then
    let ihl := 4 * (b0 % 16)
    if b0 / 16 = 4 ∧ 20 ≤ ihl ∧ ihl ≤ beAt ip 2 2 ∧ beAt ip 2 2 ≤ ip.length ∧ beAt ip 6 2 % 2 ^ 14 = 0 ∧ fieldAt ip 9 1 = 17 then
      udp false ((ip.drop 12).take 8) ((ip.take (beAt ip 2 2)).drop ihl)
    else none
  else if beAt rest 0 2 = 0x86DD then
    if b0 / 16 = 6 ∧ 40 + beAt ip 4 2 ≤ ip.length ∧ fieldAt ip 6 1 = 17 then
      udp true ((ip.drop 8).take 32) ((ip.drop 40).take (beAt ip 4 2))
    else none
  else none

/-- The sum of the 16-bit words of bytes in network order. -/
def sum16 : List Byte → Nat
  | [] => 0
  | [a] => a.toNat * 256
  | a :: b :: bs => a.toNat * 256 + b.toNat + sum16 bs

/-- A sum folded to 16 bits in ones' complement. -/
def fold16 (n : Nat) : Nat := if n = 0 then 0 else (n - 1) % 65535 + 1

/-- The UDP checksum, verified when it is not 0, and always under IPv6 (R248). -/
def Datagram.checksumOk (d : Datagram) : Bool :=
  if beAt d.bytes 6 2 = 0 then !d.v6 else fold16 (sum16 d.pseudo + sum16 d.bytes) == 65535

def Datagram.port (d : Datagram) : Nat := beAt d.bytes 2 2
def Datagram.payload (d : Datagram) : List Byte := d.bytes.drop 8

/-- CRC-8 with polynomial 0x07 (R249). -/
def crc8Byte (c b : Byte) : Byte :=
  (List.range 8).foldl (fun (c : Byte) (_ : Nat) => if c.getLsbD 7 then (c <<< 1) ^^^ 0x07 else c <<< 1) (c ^^^ b)

def crc8 (bs : List Byte) : Byte := bs.foldl crc8Byte 0

/-- The sample header of a payload (R249). -/
structure SampleHeader where
  stream : Nat
  crc : Bool
  timed : Bool
  first : Nat
  count : Nat
  timecode : Word

def SampleHeader.ofBytes (p : List Byte) : SampleHeader where
  stream := fieldAt p 3 1 % 64
  crc := fieldAt p 4 1 % 2 == 1
  timed := fieldAt p 4 1 / 2 % 2 == 1
  first := fieldAt p 6 6
  count := fieldAt p 12 2
  timecode := num (fieldAt p 16 8)

/-- Whether a header and the length of its payload keep R249, for a wire size. -/
def headerOk (p : List Byte) (size : Nat) : Bool :=
  let h := SampleHeader.ofBytes p
  fieldAt p 0 2 == 0x5350 && fieldAt p 2 1 == 1 && decide (fieldAt p 3 1 < 64) && decide (fieldAt p 4 1 < 4) &&
    fieldAt p 5 1 == 0 && h.count != 0 && fieldAt p 14 2 == 0 && fieldAt p 24 8 == 0 &&
    p.length == 32 + h.count * (size + if h.crc then 1 else 0)

/-- Whether a Clicker port reaches a ring: it is owned by the ring's partition, and a port that is not secure reaches no
secure ring (R356, R358). -/
def State.portReaches (s : State) (port n : Nat) : Bool :=
  (s.bar (ckown port)).getLsbD 63 && s.barField (ckown port) 59 56 == s.barField (rngown n) 59 56 &&
    ((s.bar (ckown port)).getLsbD 62 || !(s.bar (rngown n)).getLsbD 62)

/-- The INGEST ring that a datagram at a port is for (R248, R358). -/
def State.ringFor? (s : State) (port : Nat) (d : Datagram) : Option Nat :=
  (List.range 64).find? fun n =>
    let ctl := s.ring n 0
    (s.liveUnit? n).isSome && !s.rgProgram n && fieldOf ctl 40 38 == port && fieldOf ctl 31 16 == d.port &&
      fieldOf ctl 37 32 == (SampleHeader.ofBytes d.payload).stream && s.portReaches port n

/-! ### Samples from the wire (R252) -/

def subVal (a b : Val) : Val := (addVal false a (negVal b)).val

/-- The exact value of element k: the colour matrix, then the normalisation. -/
def wireValue (colour normalise : Bool) (m : List Nat) (norm : Word) (w : Nat → Val) (k : Nat) : Val :=
  let f (i : Nat) : Val := Fmt.f32.decode (m.getD i 0)
  let x :=
    if colour then
      let j := k / 3 * 3
      let c := k % 3
      (List.range 3).foldl (fun (x : Val) (i : Nat) => (addVal false x (mulVal (f (3 * c + i)) (w (j + i))).val).val) (f (9 + c))
    else w k
  if normalise then (mulVal (subVal x (Fmt.f32.decode (fieldOf norm 31 0))) (Fmt.f32.decode (fieldOf norm 63 32))).val
  else x

/-- The elements of a wire sample as stored, and how many saturated. -/
def State.storedSample (s : State) (n : Nat) (u : RingUnit) (wire : List Byte) : List Byte × Nat :=
  let ctl := s.ring n 0
  let wt := elemOf (fieldOf ctl 47 44)
  let ww := typeWidth (fieldOf ctl 47 44)
  let t := elemOf (s.rgType n)
  let tw := typeWidth (s.rgType n)
  let w (k : Nat) : Val := elemVal wt (packedElem wire ww k)
  let rs := (List.range (s.rgElems n)).map fun k =>
    convertTo t .rne true (isIntType wt) (wireValue (ctl.getLsbD 58) (ctl.getLsbD 59) u.colour (s.ring n 14) w k)
  let packed := rs.foldr (fun (r : Rounded) (acc : Nat) => acc * 2 ^ tw + r.code % 2 ^ tw) 0
  (bytesOf (s.rgSize n) packed, rs.countP (·.sat))

/-- The samples of a good frame: as stored, with the poison of a bad CRC-8; how many saturated. -/
def State.frameSamples (s : State) (n : Nat) (u : RingUnit) (p : List Byte) : List (Pending × Nat) :=
  let h := SampleHeader.ofBytes p
  let size := sampleBytes (fieldOf (s.ring n 0) 43 41)
  let step := size + if h.crc then 1 else 0
  (List.range h.count).map fun i =>
    let wire := (p.drop (32 + i * step)).take size
    let bad := h.crc && crc8 wire != (p.drop (32 + i * step + size)).headD 0
    let z := s.storedSample n u wire
    (.sample z.1 bad, z.2)

/-! ### FRAME_RECEIVED and FRAME_BUFFER_DROP -/

/-- What becomes of a frame: it is no datagram; it is for no ring; for ring n its checksum or FCS is wrong, its
header is wrong, it is stale, or it is good. -/
inductive FrameFate where
  | ignored | unmatched
  | damaged (n : Nat)
  | badHeader (n : Nat)
  | stale (n : Nat)
  | good (n : Nat) (p : List Byte)
  deriving DecidableEq, Repr

/-- Left open by the spec: log entry 30 (DESIGN CHOICE). -/
def State.frameFate (s : State) (port : Nat) (bs : List Byte) : FrameFate :=
  match datagram? bs with
  | none => .ignored
  | some d =>
    match s.ringFor? port d with
    | none => if fcsOk bs && d.checksumOk then .unmatched else .ignored
    | some n =>
      match s.unit? n with
      | none => .unmatched
      | some u =>
        if !(fcsOk bs && d.checksumOk) then .damaged n
        else if !headerOk d.payload (sampleBytes (fieldOf (s.ring n 0) 43 41)) then .badHeader n
        else if u.started && !idxLe u.expected (SampleHeader.ofBytes d.payload).first then .stale n
        else .good n d.payload

/-- A drop that the next gap of the ring names (R271). Left open by the spec: log entry 30 (DESIGN CHOICE). -/
def State.noteDrop (s : State) (n reason : Nat) : State :=
  match s.unit? n with
  | some u => s.setUnit n { u with reason := min u.reason reason }
  | none => s

/-- A gap of `g` samples from the next expected index, logged and to be written (R251).
Left open by the spec: log entry 30 (DESIGN CHOICE). -/
def State.openGap (s : State) (n g reason : Nat) : Except RingErr State :=
  match s.unit? n with
  | none => .ok s
  | some u =>
    if g = 0 then .ok s
    else
      (s.logGap n u.expected g reason).map fun s =>
        s.setUnit n { u with
          pending := u.pending ++ [.gap g reason]
          expected := idx ((u.expected : Int) + g)
          reason := 2 }

/-- START and HEAD at the first accepted frame of an INGEST ring (R247). -/
def State.firstFrame (s : State) (n first : Nat) : State :=
  match s.unit? n with
  | some u =>
    if u.started then s
    else
      (s.setRing n 4 (num first)).setUnit n { u with
        start := first, expected := first, started := true, block := first / max 1 (s.rgBlock n) }
  | none => s

/-- A good frame: its gap, its samples, its reference pair, and the counts (R250 to R252, R255). -/
def State.goodFrame (s : State) (n : Nat) (p : List Byte) : Except RingErr State := do
  let h := SampleHeader.ofBytes p
  let s := s.firstFrame n h.first
  let u := (s.unit? n).getD (.fresh ⟨0, 0⟩)
  let s ← s.openGap n (idxDiff h.first u.expected).toNat u.reason
  let xs := s.frameSamples n u p
  let bad := xs.countP fun x => match x.1 with
    | .sample _ b => b
    | .gap _ _ => false
  let s ← if bad = 0 then .ok s else s.ringCount n RingBlock.crcPoison bad
  let sat := xs.foldl (fun a x => a + x.2) 0
  let s ← if sat = 0 then .ok s else s.ringCount n RingBlock.saturated sat
  match s.unit? n with
  | none => .ok s
  | some u => .ok (s.setUnit n { u with
      pending := u.pending ++ xs.map (·.1)
      expected := idx ((u.expected : Int) + h.count)
      sref := if h.timed then h.first else u.sref
      tref := if h.timed then h.timecode else u.tref
      timed := u.timed || h.timed })

/-- Whether the writer of a ring waits for a claim (R254). -/
def State.writerStalled (s : State) (n : Nat) : Bool :=
  match s.unit? n with
  | none => false
  | some u =>
    match u.pending with
    | [] => false
    | .sample _ _ :: _ => s.stalls n u (s.rgHead n)
    | .gap g _ :: _ =>
      if g < s.rgN n then s.stalls n u (s.rgHead n)
      else s.rgPausable n && u.claims.any fun c => idxLe c.next c.last && !idxLe (s.rgHead n) c.next

/-- The bytes that a port's buffer holds: the samples, as they came, that its rings have yet to write (R254).
Left open by the spec: log entry 30 (DESIGN CHOICE). -/
def State.portUsed (s : State) (port : Nat) : Nat :=
  (List.range 64).foldl (fun a n => match s.liveUnit? n with
    | some u =>
      if s.rgProgram n || fieldOf (s.ring n 0) 40 38 != port then a
      else a + sampleBytes (fieldOf (s.ring n 0) 43 41) * u.pending.countP fun p => match p with
        | .sample _ _ => true
        | .gap _ _ => false
    | none => a) 0

/-- Whether a frame for a ring finds its port's 4 MiB full behind a stalled writer (R254). -/
def State.bufferFull (s : State) (port n : Nat) (bs : List Byte) : Bool :=
  s.writerStalled n && decide (2 ^ 22 < s.portUsed port + bs.length)

/-- FRAME_RECEIVED (R248, R250): a frame as it comes off the wire, and has room in the port's buffer. -/
def State.stepFrameReceived (s : State) (port : Nat) (bs : List Byte) : Option State :=
  if 8 ≤ port then none
  else
    match s.frameFate port bs with
    | .ignored => some s
    | .unmatched => some { s with unmatched := mapSet 0 port (mapGet 0 port s.unmatched + 1) s.unmatched }
    | .damaged n => s.settleRing n ((s.noteDrop n 0).ringCount n RingBlock.droppedFrames 1)
    | .badHeader n => s.settleRing n ((s.noteDrop n 1).ringCount n RingBlock.droppedFrames 1)
    | .stale n => s.settleRing n (s.ringCount n RingBlock.staleFrames 1)
    | .good n p => if s.bufferFull port n bs then none else s.settleRing n (s.goodFrame n p)

def execFrameReceived (port : Nat) (bs : List Byte) (s : State) : Res := taken (s.stepFrameReceived port bs)

/-- FRAME_BUFFER_DROP (R254): a frame finds the port's buffer full behind a stalled writer; its samples become a gap. -/
def State.stepFrameBufferDrop (s : State) (port : Nat) (bs : List Byte) : Option State :=
  match s.frameFate port bs with
  | .good n p =>
    (s.unit? n).bind fun u =>
      if !s.bufferFull port n bs then none
      else
        let h := SampleHeader.ofBytes p
        s.settleRing n do
          let s ← s.openGap n ((idxDiff h.first u.expected).toNat + h.count) 3
          s.ringCount n RingBlock.droppedFrames 1
  | .ignored | .unmatched | .damaged _ | .badHeader _ | .stale _ => none

def execFrameBufferDrop (port : Nat) (bs : List Byte) (s : State) : Res := taken (s.stepFrameBufferDrop port bs)

/-! ### The writer (R251, R253) -/

/-- Every position zero and poisoned, and HEAD moved over a gap of N samples or more (R251).
Left open by the spec: log entry 30 (DESIGN CHOICE). -/
def State.jumpHead (s : State) (n g : Nat) : Except RingErr State := do
  let size := s.rgSize n
  let s ← (List.range (s.rgN n)).foldlM (fun (s : State) (i : Nat) => do
    let s ← s.ringStore n (s.ring n 1 + num (i * size)) (List.replicate size 0) false
    if i % 8 = 0 then s.ringStore n (s.ring n 2 + num (i / 8)) [0xFF] false else .ok s) s
  let s := s.setRing n 4 (num (idx ((s.rgHead n : Int) + g)))
  match s.unit? n with
  | some u => .ok (if s.rgBlock n = 0 then s else s.passBlocks n u)
  | none => .ok s

/-- The first pending sample of a ring written. -/
def State.writeNext (s : State) (n : Nat) (u : RingUnit) : Option (Except RingErr State) :=
  if s.writerStalled n then none
  else
    match u.pending with
    | [] => none
    | .sample bs p :: rest => some ((s.setUnit n { u with pending := rest }).writeSample n bs p)
    | .gap g r :: rest =>
      if s.rgN n ≤ g then some ((s.setUnit n { u with pending := rest }).jumpHead n g)
      else
        let left := if g ≤ 1 then rest else .gap (g - 1) r :: rest
        some ((s.setUnit n { u with pending := left }).writeSample n (List.replicate (s.rgSize n) 0) true)

/-- A step of the unit that no fault meets, or what it waits for asked for; RING_FAULT has those that a fault meets. -/
def State.unfaulted (s : State) (n : Nat) (r : Except RingErr State) : Option State :=
  match r with
  | .ok t => some t
  | .error (.wait k ats) => s.askUnit (s.ringWho n) k ats
  | .error (.fault _) => none

/-- SAMPLE_WRITE. -/
def State.stepSampleWrite (s : State) (n : Nat) : Option State :=
  (s.liveUnit? n).bind fun u => (s.writeNext n u).bind (s.unfaulted n)

def execSampleWrite (ring : Nat) (s : State) : Res := taken (s.stepSampleWrite ring)

/-! ### Head delivery (R260, R261) -/

/-- A sample of a block as it was written; zero and poisoned where none was.
Left open by the spec: log entry 19 (DESIGN CHOICE). -/
def RingUnit.recentSample (u : RingUnit) (size x : Nat) : List Byte × Bool :=
  ((u.recent.find? fun r => r.1 == x).map (·.2)).getD (List.replicate size 0, true)

/-- The transfer of block `k`: the header at offset 0, the samples from offset 64. -/
def State.blockTransfer (s : State) (n : Nat) (u : RingUnit) (k : Nat) : List Byte × List Bool :=
  let size := s.rgSize n
  let count := s.rgBlock n
  let first := idx (k * count : Nat)
  let xs := (List.range count).map fun (i : Nat) => u.recentSample size (idx ((first : Int) + (i : Int)))
  let head := bytesOf 8 first ++ bytesOf 4 count ++ bytesOf 4 (xs.countP (·.2)) ++ bytesOf 8 u.skipped ++
    List.replicate 40 0
  let words := (count * size + 3) / 4
  (head ++ xs.flatMap (·.1),
   List.replicate 16 false ++ (List.range words).map fun w =>
     (List.range count).any fun i => (xs.getD i ([], false)).2 && decide (i * size < 4 * w + 4 ∧ 4 * w < (i + 1) * size))

/-- The next block that HEAD has passed is settled: sent, or counted as dead time. A tile that the ring may not reach
refuses it (R260), and its partition takes ACCESS (R356). -/
def State.deliverNext (s : State) (n : Nat) (u : RingUnit) : Option (Except RingErr State) :=
  match u.due with
  | [] => none
  | d :: rest =>
    let size := s.rgBlock n
    let fin := idx ((d.block + d.count) * size : Nat)
    let later := u.recent.filter fun r => idxLe fin r.1
    if d.send then
      let t := s.blockTransfer n u d.block
      let isB := d.block % 2 == 1
      let dst := s.ring n (if isB then 7 else 6)
      let w := s.ringWho n
      let mark : RingMark := ⟨n, isB, u.skipped⟩
      match s.targetDenied w.part w.secure dst with
      | some r =>
        let u := { u with
          due := rest, recent := later, skipped := u.skipped + size, vacA := u.vacA || !isB, vacB := u.vacB || isB }
        some (((s.setUnit n u).ringCount n (levelCounter 0 RingBlock.deadSamples) size).map fun t =>
          t.faultRecord w.part Cause.access (num (r * 2 ^ 12)) dst)
      | none =>
        let s := s.intoBag fun id =>
          ⟨id, [], none, dst, s.tileVia w.part dst, t.1, t.2, w.part, w.secure, some mark, none, .plain, .domain⟩
        some (.ok (s.setUnit n { u with due := rest, recent := later, skipped := 0 }))
    else
      let lost := d.count * size
      some ((s.setUnit n { u with due := rest, recent := later, skipped := u.skipped + lost }).ringCount n
        (levelCounter 0 RingBlock.deadSamples) lost)

/-- HEAD_DELIVERY. Left open by the spec: log entry 30 (DESIGN CHOICE). -/
def State.stepHeadDelivery (s : State) (n : Nat) : Option State :=
  (s.liveUnit? n).bind fun u => (s.deliverNext n u).bind (s.unfaulted n)

def execHeadDelivery (ring : Nat) (s : State) : Res := taken (s.stepHeadDelivery ring)

/-- VACANCY_NOTICE (R260, R293): the notice of a delivery tile on another package lands at the writer. -/
def State.stepVacancyNotice (s : State) (n : Nat) (isB : Bool) : Option State :=
  (s.liveUnit? n).bind fun u =>
    let gta := s.ring n (if isB then 7 else 6)
    if gta = 0 ∨ s.isOwnNode (gtNode gta) then none
    else some (s.setUnit n { u with vacA := u.vacA || !isB, vacB := u.vacB || isB })

def execVacancyNotice (ring : Nat) (tileB : Bool) (s : State) : Res := taken (s.stepVacancyNotice ring tileB)

/-! ### Claims closed (R266), and faults -/

/-- Whether a claim's copying and hold are done and its header has room. -/
def State.claimDone (s : State) (n : Nat) (c : Claim) : Bool :=
  let hold := min (fieldOf (s.ring n 3) 62 48) (s.rgN n)
  !c.busy && !idxLe c.next c.last && idxLe (idx ((c.last : Int) + 1 + hold)) (s.rgHead n) && s.headerRoom n

/-- CLAIM_CLOSE. -/
def State.stepClaimClose (s : State) (n id : Nat) : Option State :=
  (s.liveUnit? n).bind fun u => (u.claims.find? fun c => c.id == id).bind fun c =>
    if s.claimDone n c then s.unfaulted n (s.writeHeader n u c c.last) else none

def execClaimClose (ring claim : Nat) (s : State) : Res := taken (s.stepClaimClose ring claim)

/-- The address at which the unit's next write, delivery count or header faults.
Left open by the spec: log entry 30 (DESIGN CHOICE). -/
def State.ringFaultAt? (s : State) (n : Nat) (u : RingUnit) : Option Word :=
  let at? (r : Option (Except RingErr State)) : Option Word := match r with
    | some (.error (.fault a)) => some a
    | some (.error (.wait _ _)) | some (.ok _) | none => none
  ((at? (s.writeNext n u)).or (at? (s.deliverNext n u))).or
    ((u.claims.filter (s.claimDone n)).findSome? fun c => at? (some (s.writeHeader n u c c.last)))

/-- RING_FAULT (R246): the access is not made, the ring is disabled, and RING goes to its partition. -/
def State.stepRingFault (s : State) (n : Nat) : Option State :=
  (s.liveUnit? n).bind fun u => (s.ringFaultAt? n u).map fun a => s.ringFault n a

def execRingFault (ring : Nat) (s : State) : Res := taken (s.stepRingFault ring)

end Sys2Proof.Machine
end

