-- ==== Sys2Proof/Machine/Links.lean ====
section
/-!
DEFINITION. Links.lean: Preath ports (R360, R363), packets from other packages (R67, R362, R366, R367, R394), items that
time out (R367), CXL ports (R369) and the hot-page list (R370, R371).
-/

namespace Sys2Proof.Machine

/-! ### Ports -/

def State.port (s : State) (p : Nat) : LinkPort := mapGet ⟨0, false, false⟩ p s.links
def State.setPort (s : State) (p : Nat) (l : LinkPort) : State := { s with links := mapSet ⟨0, false, false⟩ p l s.links }

/-- The far end of a port has failed the eighth replay of a packet sent from here (R363). -/
def State.peerFails (s : State) (p : Nat) : State :=
  if p < 12 ∧ s.portUp p then s.setPort p { s.port p with peer := true } else s

/-- A 64-bit counter one higher. -/
def State.countReg (s : State) (off : Nat) : State := s.setBar off (s.bar off + 1)

/-- LINK_TRAINED (R360). -/
def State.stepLinkTrained (s : State) (p : Nat) : Option State :=
  let st := s.bar (portReg p 0)
  if p < 12 ∧ s.ready (18 + p) ∧ st.getLsbD 62 ∧ !st.getLsbD 63 then
    let lanes := if (s.port p).laneOut then 4 else 8
    some ((s.setBar (portReg p 0) (withField (withBit st 63 true) 61 58 lanes)).setPort p { s.port p with fails := 0 })
  else none

def execLinkTrained (p : Nat) (s : State) : Res := taken (s.stepLinkTrained p)

/-- PACKET_CRC_FAIL (R363): the packet is discarded and replayed; at most 8 replays fail before the link retrains. -/
def State.stepPacketCrcFail (s : State) (p : Nat) : Option State :=
  if p < 12 ∧ s.portUp p ∧ (s.port p).fails < 9 then
    some (((s.countReg (portReg p 8)).countReg (portReg p 0x10)).setPort p { s.port p with fails := (s.port p).fails + 1 })
  else none

def execPacketCrcFail (p : Nat) (s : State) : Res := taken (s.stepPacketCrcFail p)

/-- LINK_RETRAIN (R363): after 8 failed replays of a packet received here or at the far end; a lane that fails is
mapped out, with a record of kind 6 (R397) whose edge die is free. -/
def State.stepLinkRetrain (s : State) (p : Nat) (laneFails : Bool) : Option State :=
  if p < 12 ∧ s.portUp p ∧ ((s.port p).fails = 9 ∨ (s.port p).peer) then
    let s := s.countReg (portReg p 0x18)
    if laneFails && !(s.port p).laneOut then
      let w := s.freshWord
      some (((w.2.setBarField (portReg p 0) 61 58 4).setPort p ⟨0, true, false⟩).recordFree 6
        (8 + w.1.toNat % 2) 0xFF 0 (some (num p)))
    else some (s.setPort p { s.port p with fails := 0, peer := false })
  else none

def execLinkRetrain (p : Nat) (laneFails : Bool) (s : State) : Res := taken (s.stepLinkRetrain p laneFails)

/-! ### Packets in (R366) -/

/-- The voter's tag and arrival of a packet of a voted crew (R394): its source node, the partitions, its kind and vote
tag. -/
def packetArrival (p : Packet) (bs : List Byte) : VoteTag × Arrival :=
  let copy := p.vote / 2 ^ 30 - 1
  (⟨p.src, 16 * p.srcPart + p.dstPart, 2 ^ 32 + p.kind, p.vote % 2 ^ 30, 0⟩,
   ⟨copy, 0, ⟨2 ^ 32 + p.src, copy⟩, .packet bs⟩)

/-- Whether a marker is that of a release of a node. -/
def Marker.isOf (m : Marker) (node release : Nat) : Bool := m.node == node && m.release == release

/-- A copy of a marker has arrived (R67). -/
def State.noteMarker (s : State) (p : Packet) : State :=
  let release := p.opLo.toNat
  let old := ((s.markersFrom.find? fun m => m.isOf p.src release).map (·.arrived)).getD 0
  { s with markersFrom :=
      ⟨p.src, release, old + 1, p.opHi.toNat⟩ :: s.markersFrom.filter fun m => !m.isOf p.src release }

/-- Whether a release has to wait (R67): for the writes it counts, or for copies of its marker. Its path has brought one
copy before it, so that its marker is known when it comes. Left open by the spec: log entry 31 (DESIGN CHOICE). -/
def State.releaseHeld (s : State) (p : Packet) : Bool :=
  p.release && (decide (mapGet 0 p.src s.writesFrom < p.count) ||
    s.markersFrom.any fun m => m.isOf p.src p.tag && decide (m.arrived < m.copies))

/-- A request received: its tag is known from now on, and the marker of a release is done with. -/
def State.noteReceived (s : State) (p : Packet) : State :=
  { s with
    tagsSeen := (p.src, p.tag) :: s.tagsSeen
    markersFrom := if p.release then s.markersFrom.filter fun m => !m.isOf p.src p.tag else s.markersFrom }

/-- A write that is refused is not written, but its node has sent it, and a later release counts it (R67, R366): that of
the three copies of a voted crew once. Left open by the spec: log entry 31 (DESIGN CHOICE). -/
def State.refusedWrite (s : State) (p : Packet) (bs : List Byte) : State :=
  if p.kind ≠ Packet.write then s
  else if p.vote = 0 then s.countWrite p.src
  else
    let x := packetArrival p bs
    match s.votes.find? fun v => v.tag == x.1 with
    | none =>
      let others := [0, 1, 2].filter fun n => n != x.2.copy
      { s.countWrite p.src with votes := s.votes ++ [⟨x.1, [], true, 0, 0, some others⟩] }
    | some v =>
      match v.closed with
      | none => s
      | some late =>
        let rest := late.filter fun n => n != x.2.copy
        if rest.isEmpty then s.dropVote x.1 else s.putVote { v with closed := some rest }

/-- An intact packet for this package: a marker counts; a repeated request is discarded; a refused one is answered and
not performed; a release waits for what went before it; a vote goes to the voter; any other request is performed and
answered. What a response brings is part of the step of the item that sent the request. -/
def State.receive (s : State) (bs : List Byte) : Option State :=
  let p := Packet.ofBytes bs
  if p.kind = Packet.markerKind then some (s.noteMarker p)
  else if !(p.isMemory || p.isTile || p.kind == Packet.control) then some s
  else if s.tagsSeen.contains (p.src, p.tag) then some s
  else if s.releaseHeld p then none
  else if !s.accepts p then some (((s.refusedWrite p bs).noteReceived p).answer p [] [])
  else if p.vote ≠ 0 then
    let x := packetArrival p bs
    if p.kind = Packet.read then (s.readPacket p x.1 x.2.copy).map fun t => t.noteReceived p
    else s.orAsk ((s.arrive p.dstPart x.1 x.2 .none).map fun r => r.map fun t => t.noteReceived p)
  else
    match s.performPacket p with
    | .answer x => some ((x.1.noteReceived p).answer p x.2.1 x.2.2)
    | .ask w => s.askRingUnit w
    | .stay => none

/-- PACKET_RECEIVED: its CRC is right, it is for this node, and its port has not to retrain first (R363).
Left open by the spec: log entry 31 (DESIGN CHOICE). -/
def State.stepPacketReceived (s : State) (port : Nat) (bs : List Byte) : Option State :=
  if port < 12 ∧ s.portUp port ∧ (s.port port).fails < 9 ∧ packetIntact bs ∧ (Packet.ofBytes bs).dst = s.barField 0x2000 11 0 then
    (s.receive bs).map fun t => t.setPort port { t.port port with fails := 0 }
  else none

def execPacketReceived (port : Nat) (bs : List Byte) (s : State) : Res := taken (s.stepPacketReceived port bs)

/-! ### Timeouts (R367) -/

/-- REMOTE for an item by a way: the request, where a route let it leave; the count; the event. -/
def State.timedOut (s : State) (k : StrandKey) (v : Via) (a : Nat) (p : Packet) (cast : Cast) : State :=
  let s := if s.routed v.node then s.dispatch v p cast else s
  (s.countWindow v false).raiseRemote [k] (.remote v a)

/-- The head of a queue whose access has no answer, once it can be made (R57 to R59): a load's first far access binds
zero with poison, as an atomic's value does. Left open by the spec: log entry 10 (DEDUCED). -/
def State.headTimeout (s : State) (k : StrandKey) (h : HReg) : Option State :=
  match s.freshHead k h with
  | none => none
  | some (t, e) =>
    match e.body with
    | .load l =>
      (l.todo.findIdx? fun a => a.place.isRemote).bind fun i => l.todo[i]?.bind fun a =>
        match a.place with
        | .remote v x =>
          let cast := if a.asid.isSome then s.castOf k e.n a.lane else none
          let able : Bool := match copyServes t l a cast with
            | some o => (s.copy? o a.place.line).isNone
            | none => s.homeReady t a l.bytes cast
          let p := { s.header v x t.secure with
            kind := Packet.read, len := l.bytes, scope := l.scope.code, acquire := l.order.acquires }
          if able then some ((s.timedOut k v x p cast).gotOne t h e l i a (List.replicate l.bytes 0, true)) else none
        | .dev _ | .host _ | .tile _ => none
    | .atomic i =>
      (match i.access.place with
       | .remote v x =>
         let able := s.releaseOk k h i.order i.scope && s.homeClear t.cluster i.access.place (if i.w64 then 8 else 4)
         let p := { s.header v x t.secure with
           kind := Packet.atomic, len := (if i.w64 then 8 else 4), op := i.kind.code + (if i.w64 then 32 else 0),
           scope := i.scope.code, release := i.order.releases, acquire := i.order.acquires, poisoned := i.poison,
           opLo := i.b, opHi := i.c }
         if able then
           some (((s.dropLine t i.access.place).timedOut k v x p (s.castOf k e.n 0)).atomicResult t h i (0, true))
         else none
       | .dev _ | .host _ | .tile _ => none)
    | .ring i =>
      (match i.at with
       | .far v =>
         let u := if s.routed v.node then s.askRing t e.n v i else s
         if s.releaseOk k h i.order i.scope then
           some (((u.countWindow v false).raiseRemote [k] (.remote v i.ring.toNat)).ringResult k h i.dest 0 true)
         else none
       | .own _ => none)
    | .store _ | .transfer _ | .tag _ | .bar _ | .copy _ | .gate _ => none

/-- A fabric entry with no answer: no earlier one overlaps it (R52). -/
def State.fabricTimeout (s : State) (i : Nat) : Option State :=
  match s.fabric[i]?, s.fabric[i]?.bind fun e => e.pieces.head? with
  | some e, some p =>
    match p.access.place with
    | .remote v _ =>
      let k := e.ref.key
      let secure := ((s.strand? k).map (·.secure)).getD false
      let u := { s with fabric := s.fabric.eraseIdx i }
      let u := if s.routed v.node then u.sendEntry secure e else u
      if s.fabricClear i e then some (((u.countWindow v false).blame k Cause.remote p.access 0).settleSent e.ref) else none
    | .dev _ | .host _ | .tile _ => none
  | _, _ => none

/-- A transfer with no answer. -/
def State.bagTimeout (s : State) (id : Nat) : Option State :=
  match s.bag.find? fun e => e.id == id with
  | none => none
  | some e =>
    if s.isOwnNode (gtNode e.dst) then none
    else
      let out := { s with bag := s.bag.filter fun f => f.id != id }
      let sent := match e.via with
        | some v => if s.routed v.node then out.sendFar v e else out
        | none => out
      s.orAsk (some (((sent.countVia e.via false).settled e .gone).map fun t => e.refs.foldl State.settleSent t))

/-- A strand's wait for another package's ring, or for a record of SPAWN there, with no answer: zero with poison, and
REMOTE. An event or a trap that is due comes first (R185, R340). -/
def State.ringTimeout (s : State) (k : StrandKey) : Option State :=
  (s.ready? k).bind fun t =>
    if t.me.hasEvent || !t.me.deferred.isEmpty then none
    else
      match t.me.wait with
      | some (.ringUnit v fn ring d d2 dst scope) =>
        some (((((t.countWindow v false).raiseRemote [t.me.key] (.remote v ring.toNat)).farRing fn d d2 dst 0 true
          scope)).advance 8)
      | some (.record v a va d h scope) =>
        let u := (t.countWindow v false).raiseRemote [t.me.key] (.remote v a)
        some (u.settle 8 (u.spawnGot [] true va d h scope))
      | _ => none

/-- REMOTE_TIMEOUT (R367). -/
def State.stepRemoteTimeout (s : State) (i : FarItem) : Option State :=
  match i with
  | .head k h => s.headTimeout k h
  | .fabric n => s.fabricTimeout n
  | .bag id => s.bagTimeout id
  | .ring k => s.ringTimeout k

def execRemoteTimeout (i : FarItem) (s : State) : Res := taken (s.stepRemoteTimeout i)

/-! ### CXL ports (R369) -/

def State.stepCxlPortDown (s : State) (p : Nat) : Option State :=
  if p < 2 ∧ !s.cxlDown.contains p then some ({ s with cxlDown := p :: s.cxlDown }.setReady (30 + p) false) else none

/-- CXL_PORT_DOWN. -/
def execCxlPortDown (p : Nat) (s : State) : Res := taken (s.stepCxlPortDown p)

def State.stepCxlPortUp (s : State) (p : Nat) : Option State :=
  if p < 2 ∧ 8 ≤ s.boot.step ∧ s.cxlDown.contains p then
    some ({ s with cxlDown := s.cxlDown.filter fun q => q != p }.setReady (30 + p) true)
  else none

/-- CXL_PORT_UP, once bring-up has powered the ports (R402, R403). -/
def execCxlPortUp (p : Nat) (s : State) : Res := taken (s.stepCxlPortUp p)

/-! ### The hot-page list (R371) -/

/-- The pages of the second tier, rising: of each enabled decoder the first `most` at most (R369).
Left open by the spec: log entry 32 (DESIGN CHOICE). -/
def State.cxlPages (s : State) (most : Nat) : List Nat :=
  let ranges := ((List.range 8).filter fun i => (s.bar (decoderReg i 0)).getLsbD 63).map fun i =>
    ((s.bar (decoderReg i 8)).toNat / 2 ^ 21, (s.bar (decoderReg i 16)).toNat / 2 ^ 21)
  (ranges.flatMap fun r => (List.range (min most r.2)).map (r.1 + ·)).foldr natsInsert []

/-- The pages that can be listed, the counted ones before `n` of the others: pages of the second tier that no access has
met count 0 and are listed only where THRESH is 0; the ASID of their last access is free.
Left open by the spec: log entry 32 (DESIGN CHOICE). -/
def State.hotPages (s : State) (thresh n : Nat) : List HotPage :=
  let counted := s.hot.filter fun h => decide (thresh ≤ h.count)
  if thresh ≠ 0 then counted
  else
    let rest := (s.cxlPages (n + s.hot.length)).filter fun a => !(s.hot.any fun h => h.page == a)
    counted ++ (rest.take n).map fun a => (⟨a, 0, s.freshWord.1.toNat % 2 ^ 16, false⟩ : HotPage)

/-- Pages by falling count, then rising address. Left open by the spec: log entry 32 (DESIGN CHOICE). -/
def hotInsert (h : HotPage) : List HotPage → List HotPage
  | [] => [h]
  | g :: gs => if g.count < h.count ∨ (g.count = h.count ∧ h.page < g.page) then h :: g :: gs else g :: hotInsert h gs

/-- Left open by the spec: log entry 32 (DESIGN CHOICE). -/
def HotPage.entry (h : HotPage) : List Byte :=
  bytesOf 8 (h.page * 2 ^ 21) ++ bytesOf 4 h.count ++ bytesOf 2 h.asid ++ [if h.count = 0xFFFF then 1 else 0, 0]

/-- HOT_PAGE_PERIOD_END: entry 0 holds GEN as it is before it advances; the counters restart, and the last access of
each page stays known. Left open by the spec: log entry 32 (DESIGN CHOICE). -/
def State.stepHotPagePeriodEnd (s : State) : Option State :=
  let cfg := s.bar 0x340000
  if !cfg.getLsbD 63 then none
  else
    let room := 2 ^ fieldOf cfg 3 0 - 1
    let hot := (s.hotPages (fieldOf cfg 47 32) room).foldl (fun l h => hotInsert h l) []
    let listed := hot.take room
    let kept := listed.filter fun h => !h.pinned
    let gen := s.barField 0x340010 63 32
    let bytes := bytesOf 8 gen ++ bytesOf 4 kept.length ++ [0, 0, 0, 0] ++ kept.flatMap HotPage.entry
    let restarted := s.hot.map fun h => { h with count := 0, pinned := false }
    let s := { s.freshWord.2 with hot := restarted }.hostPut (s.bar 0x340008 &&& bitsMask 63 6).toNat bytes
    some (((s.setBarField 0x340010 31 0 (listed.length - kept.length)).setBarField 0x340010 63 32 (gen + 1)).send (.msix 0 1))

def execHotPagePeriodEnd (s : State) : Res := taken s.stepHotPagePeriodEnd

end Sys2Proof.Machine
end

