-- ==== Sys2Proof/Machine/Memory.lean ====
section
/-!
DEFINITION. Memory.lean: loads, stores and prefetches of global memory (R181 to R186, R189 to R193).
-/

namespace Sys2Proof.Machine

/-- What a .spec load makes of its checks: a failure gives 0 with poison, and so does a host page that its translation
does not permit (R186); one whose page has a request outstanding waits on that (R373). -/
def specEff (s : State) (d : XReg) (e : Eff) : Eff :=
  let fails : Eff := .ok (s.setX d 0 true)
  match e with
  | .trap _ _ _ | .trapAny _ _ => fails
  | .wait (.hostPage k a) => if s.pageAsked k && (s.atc? k.die (s.pasid k.asid) a.addr).isNone then e else fails
  | e => e

/-- LD (R186). -/
def execLd (g : Guard) (o : LdOp) (s : State) : Res :=
  frame g [o.d, o.a, o.b] [] (fun s =>
    let n := sizeOf_ o.size
    let spec := o.mode == .spec
    match s.checkAccess .load (s.indexed o.a o.b (sizeLog o.size) o.disp) n 0 (s.xPois o.a || s.xPois o.b)
        (if spec then .spec o.d else .plain) with
    | .stop e => if spec then specEff s o.d e else e
    | .pass a =>
      s.enqueue o.md.h (.load ⟨.x o.d o.sext, [a], n, [], o.mode == .ro, !spec, s.me.pc, o.md.order, o.md.scope⟩)) s

/-- ST (R186). -/
def execSt (g : Guard) (o : StOp) (s : State) : Res :=
  frame g [o.d, o.a, o.b] [] (fun s =>
    let n := sizeOf_ o.size
    match s.checkAccess .store (s.indexed o.a o.b (sizeLog o.size) o.disp) n 0 (s.xPois o.a || s.xPois o.b) .plain with
    | .stop e => e
    | .pass a =>
      s.enqueue o.md.h (.store ⟨[⟨a, bytesOf n (s.xr o.d).toNat, s.xPois o.d⟩], o.md.order, o.md.scope, []⟩)) s

/-! ### Vector forms (R189 to R191) -/

/-- The address of lane i: contiguous (VLD, VST), strided (VLDS, VSTS), indexed by a vector (VGS). -/
inductive LaneForm where
  | contiguous (b : XReg)
  | strided (b : XReg)
  | gathered (b : VReg)

def State.laneAddr (s : State) (a : XReg) (d : BitVec 16) (f : LaneForm) (i : Nat) : Word :=
  match f with
  | .contiguous b => s.indexed a b 2 d + num (4 * i)
  | .strided b => s.xr a + disp16 d + num i * s.xr b
  | .gathered b => s.xr a + disp16 d + 4 * (laneAt (s.me.vr b) i).signExtend 64

def State.lanePois (s : State) (a : XReg) (f : LaneForm) (i : Nat) : Bool :=
  s.xPois a || match f with
    | .contiguous b | .strided b => s.xPois b
    | .gathered b => (s.me.vPois b).getLsbD i

/-- The registers a form reads. -/
def LaneForm.xs : LaneForm → List XReg
  | .contiguous b | .strided b => [b]
  | .gathered _ => []
def LaneForm.vs : LaneForm → List VReg
  | .contiguous _ | .strided _ => []
  | .gathered b => [b]

/-- The accesses of the unmasked lanes, each checked. -/
def State.laneAccesses (s : State) (acc : Acc) (a : XReg) (d : BitVec 16) (f : LaneForm) (m : Word)
    (then_ : List Access → Eff) : Eff :=
  checkAll (fun i => s.checkAccess acc (s.laneAddr a d f i) 4 i (s.lanePois a f i) .plain) (lanesOf m) then_

def vecLoadItem (s : State) (dest : LoadDest) (as : List Access) (md : Md) : Body :=
  .load ⟨dest, as, 4, [], false, false, s.me.pc, md.order, md.scope⟩

/-- A vector load, by lanes. -/
def vecLoad (g : Guard) (d : VReg) (a : XReg) (disp : BitVec 16) (f : LaneForm) (m : KReg) (md : Md) (s : State) : Res :=
  frame g (a :: f.xs) (d :: f.vs) (fun s =>
    s.laneAccesses .load a disp f (s.kr m) fun as => s.enqueue md.h (vecLoadItem s (.v d) as md)) s

def execVld (g : Guard) (o : VMemOp) (s : State) : Res := vecLoad g o.d o.a o.disp (.contiguous o.b) o.m o.md s
def execVlds (g : Guard) (o : VMemOp) (s : State) : Res := vecLoad g o.d o.a o.disp (.strided o.b) o.m o.md s
def execVgather (g : Guard) (o : VgsOp) (s : State) : Res := vecLoad g o.d o.a o.disp (.gathered o.b) o.m o.md s

/-- VLDB: one word, checked as its lowest unmasked lane, to every unmasked lane (R182, R189). -/
def execVldb (g : Guard) (o : VMemOp) (s : State) : Res :=
  frame g [o.a, o.b] [o.d] (fun s =>
    let m := s.kr o.m
    checkAll (fun i => s.checkAccess .load (s.indexed o.a o.b 2 o.disp) 4 i (s.xPois o.a || s.xPois o.b) .plain)
      ((lanesOf m).take 1) fun as => s.enqueue o.md.h (vecLoadItem s (.all o.d m) as o.md)) s

/-- The pieces of a vector store; of two lanes on one word only the higher is kept (R191), so that a line has the place
of its lowest lane that is kept. Left open by the spec: log entry 43 (DESIGN CHOICE). -/
def State.vecPieces (s : State) (d : VReg) (as : List Access) : List Piece :=
  let keep := as.filter fun a => !(as.any fun b => decide (a.lane < b.lane) && b.place.bare == a.place.bare)
  keep.map fun a => ⟨a, bytesOf 4 (laneAt (s.me.vr d) a.lane).toNat, (s.me.vPois d).getLsbD a.lane⟩

def vecStore (g : Guard) (d : VReg) (a : XReg) (disp : BitVec 16) (f : LaneForm) (m : KReg) (md : Md) (s : State) : Res :=
  frame g (a :: f.xs) (d :: f.vs) (fun s =>
    s.laneAccesses .store a disp f (s.kr m) fun as =>
      s.enqueue md.h (.store ⟨s.vecPieces d as, md.order, md.scope, []⟩)) s

def execVst (g : Guard) (o : VMemOp) (s : State) : Res := vecStore g o.d o.a o.disp (.contiguous o.b) o.m o.md s
def execVsts (g : Guard) (o : VMemOp) (s : State) : Res := vecStore g o.d o.a o.disp (.strided o.b) o.m o.md s
def execVscatter (g : Guard) (o : VgsOp) (s : State) : Res := vecStore g o.d o.a o.disp (.gathered o.b) o.m o.md s

/-- Orders of the lanes of VSCADD: the first carries the release, the last the acquire (R192). -/
def laneOrder (o : Order) (first last : Bool) : Order :=
  let rel := first && (o == .release || o == .acqRel)
  let acq := last && (o == .acquire || o == .acqRel)
  if rel && acq then .acqRel else if rel then .release else if acq then .acquire else .plain

/-- The atomics of VSCADD, one a lane in rising order (R192). -/
def State.scaddItems (s : State) (d : VReg) (as : List Access) (md : Md) : List Body :=
  as.zipIdx.map fun x =>
    .atomic ⟨.fadd, x.1, false, (laneAt (s.me.vr d) x.1.lane).setWidth 64, 0, (s.me.vPois d).getLsbD x.1.lane, none,
      s.me.pc, laneOrder md.order (x.2 == 0) (x.2 + 1 == as.length), md.scope⟩

/-- VSCADD (R192); with every lane masked off it appends an item with no lanes (R204). -/
def execVscadd (g : Guard) (o : VgsOp) (s : State) : Res :=
  frame g [o.a] [o.d, o.b] (fun s =>
    s.laneAccesses (.atomic .fadd o.md.scope) o.a o.disp (.gathered o.b) (s.kr o.m) fun as =>
      if as.isEmpty then s.enqueue o.md.h (.store ⟨[], o.md.order, o.md.scope, []⟩)
      else s.enqueueAll o.md.h (s.scaddItems o.d as o.md)) s

/-! ### Prefetch (R193): no state of the ordering machine changes, and nothing waits or traps -/

def execPrefetchDc (g : Guard) (_o : PrefOp) (s : State) : Res := frame g [] [] (fun s => .ok s) s
def execPrefetchCs (g : Guard) (_o : PrefOp) (s : State) : Res := frame g [] [] (fun s => .ok s) s

end Sys2Proof.Machine
end

