-- ==== Sys2Proof/Machine/ScalarFloat.lean ====
section
/-!
DEFINITION. ScalarFloat.lean: FOP and FCMP, scalar floating point in x registers (R143 to R147).
-/

namespace Sys2Proof.Machine

/-- The format of a width (R143). -/
def fmtOf (w : FWidth) : Fmt :=
  match w with
  | .f32 => .f32
  | .f64 => .f64

/-- An operand's code: bits 31:0 for f32, the whole register for f64 (R143). -/
def State.fr (s : State) (w : FWidth) (r : XReg) : Nat := (s.xr r).toNat % 2 ^ (fmtOf w).width

/-- A result of FOP: the code, bits above it clear; its flags; the poison of its sources (R143). -/
def fResult (g : Guard) (d : XReg) (srcs : List XReg) (f : State → Rounded) (s : State) : Res :=
  frame g (d :: srcs) [] (fun s =>
    let r := f s
    .ok ((s.raise r.flags).setX d (num r.code) (srcs.any s.xPois))) s

def fop3 (g : Guard) (o : F3) (f : Fmt → RMode → Nat → Nat → Rounded) (s : State) : Res :=
  fResult g o.d [o.a, o.b] (fun s => f (fmtOf o.fw) (s.mode o.rnd) (s.fr o.fw o.a) (s.fr o.fw o.b)) s

def execFadd (g : Guard) (o : F3) (s : State) : Res := fop3 g o fAdd s
def execFsub (g : Guard) (o : F3) (s : State) : Res := fop3 g o fSub s
def execFmul (g : Guard) (o : F3) (s : State) : Res := fop3 g o fMul s

def execFfma (g : Guard) (o : F4) (s : State) : Res :=
  fResult g o.d [o.a, o.b, o.c]
    (fun s => fFma (fmtOf o.fw) (s.mode o.rnd) (s.fr o.fw o.a) (s.fr o.fw o.b) (s.fr o.fw o.c)) s

def execFdiv (g : Guard) (o : F3) (s : State) : Res := fop3 g o fDiv s

def execFsqrt (g : Guard) (o : F2) (s : State) : Res :=
  fResult g o.d [o.a] (fun s => fSqrt (fmtOf o.fw) (s.mode o.rnd) (s.fr o.fw o.a)) s

def execFmin (g : Guard) (o : F3n) (s : State) : Res :=
  fResult g o.d [o.a, o.b] (fun s => fMinMax (fmtOf o.fw) false (s.fr o.fw o.a) (s.fr o.fw o.b)) s

def execFmax (g : Guard) (o : F3n) (s : State) : Res :=
  fResult g o.d [o.a, o.b] (fun s => fMinMax (fmtOf o.fw) true (s.fr o.fw o.a) (s.fr o.fw o.b)) s

/-- FABS: the sign bit cleared, no flag (R85). -/
def execFabs (g : Guard) (o : F2n) (s : State) : Res :=
  fResult g o.d [o.a] (fun s => ⟨s.fr o.fw o.a % (fmtOf o.fw).signBit, .none, false⟩) s

/-- FNEG: the sign bit inverted, no flag (R85). -/
def execFneg (g : Guard) (o : F2n) (s : State) : Res :=
  fResult g o.d [o.a] (fun s => ⟨s.fr o.fw o.a ^^^ (fmtOf o.fw).signBit, .none, false⟩) s

/-- Width and sign of the integer types of R145. -/
def intWidthBits (t : IntWidth) : Nat :=
  match t with
  | .i32 | .n32 => 32
  | .i64 | .n64 => 64

def intWidthSigned (t : IntWidth) : Bool :=
  match t with
  | .i32 | .i64 => true
  | .n32 | .n64 => false

/-- An integer code as an x register holds it: .i32 sign-extended, .n32 zero-extended (R145). -/
def intToX (t : IntWidth) (code : Nat) : Word :=
  match t with
  | .i32 => inW (BitVec.ofNat 32 code)
  | .n32 | .i64 | .n64 => num code

/-- FCVTI: to an integer type (R91, R145). -/
def execFcvti (g : Guard) (o : FcvtOp) (s : State) : Res :=
  frame g [o.d, o.a] [] (fun s =>
    let r := toIntType (intWidthSigned o.it) (intWidthBits o.it) (s.mode o.rnd) false
      ((fmtOf o.fw).decode (s.fr o.fw o.a))
    .ok ((s.raise r.flags).setX o.d (intToX o.it r.code) (s.xPois o.a))) s

/-- FCVTF: from an integer type (R88, R89, R145). -/
def execFcvtf (g : Guard) (o : FcvtOp) (s : State) : Res :=
  fResult g o.d [o.a] (fun s =>
    roundTo (fmtOf o.fw) (s.mode o.rnd) false
      (.ofInt (intOf (intWidthSigned o.it) (intWidthBits o.it) (s.xr o.a).toNat))) s

/-- FCVTW: from the other width (R88, R89, R145). -/
def execFcvtw (g : Guard) (o : F2) (s : State) : Res :=
  fResult g o.d [o.a] (fun s =>
    let src : FWidth := match o.fw with | .f32 => .f64 | .f64 => .f32
    roundTo (fmtOf o.fw) (s.mode o.rnd) false ((fmtOf src).decode (s.fr src o.a))) s

/-- FCLASS: the class mask of R146. -/
def execFclass (g : Guard) (o : F2n) (s : State) : Res :=
  fResult g o.d [o.a] (fun s => ⟨fClass (fmtOf o.fw) (s.fr o.fw o.a), .none, false⟩) s

/-- FCMP: a poisoned operand raises POISON; otherwise cD takes the combined truth, and INVALID is set as R147
states. -/
def fcmpOp (g : Guard) (o : FcmpOp) (c : FCond) (s : State) : Res :=
  frame g [o.a, o.b] [] (fun s =>
    if s.xPois o.a || s.xPois o.b then .trap Cause.poison 0 0
    else
      let r := fCompare (fmtOf o.fw) c (s.fr o.fw o.a) (s.fr o.fw o.b)
      .ok ((s.raise r.2).setC o.d (combine o.comb (s.cr o.d) r.1))) s

def execFeq (g : Guard) (o : FcmpOp) (s : State) : Res := fcmpOp g o .feq s
def execFlt (g : Guard) (o : FcmpOp) (s : State) : Res := fcmpOp g o .flt s
def execFle (g : Guard) (o : FcmpOp) (s : State) : Res := fcmpOp g o .fle s
def execFun (g : Guard) (o : FcmpOp) (s : State) : Res := fcmpOp g o .fun s

end Sys2Proof.Machine
end

