-- ==== Sys2Proof/Machine/Scratch.lean ====
section
/-!
DEFINITION. Scratch.lean: TLD and TST, loads and stores of the crew's own tiles by local address (R194, R195).
-/

namespace Sys2Proof.Machine

/-- TLD, scalar: a checked load of a tile (R195). -/
def execTld (g : Guard) (o : TldOp) (s : State) : Res :=
  frame g [o.d, o.a, o.b] [] (fun s =>
    let n := sizeOf_ o.size
    match s.checkLocal (s.indexed o.a o.b (sizeLog o.size) o.disp) n 0 (s.xPois o.a || s.xPois o.b) false with
    | .stop e => e
    | .pass a => s.enqueue o.md.h (.load ⟨.x o.d o.sext, [a], n, [], false, true, s.me.pc, o.md.order, o.md.scope⟩)) s

/-- TST, scalar. -/
def execTst (g : Guard) (o : StOp) (s : State) : Res :=
  frame g [o.d, o.a, o.b] [] (fun s =>
    let n := sizeOf_ o.size
    match s.checkLocal (s.indexed o.a o.b (sizeLog o.size) o.disp) n 0 (s.xPois o.a || s.xPois o.b) false with
    | .stop e => e
    | .pass a =>
      s.enqueue o.md.h (.store ⟨[⟨a, bytesOf n (s.xr o.d).toNat, s.xPois o.d⟩], o.md.order, o.md.scope, []⟩)) s

/-- Whether lane i of a contiguous form lies beyond the end of the tile that holds the base address (R194). -/
def State.beyondTile (s : State) (a : XReg) (d : BitVec 16) (f : LaneForm) (i : Nat) : Bool :=
  match f with
  | .contiguous b => decide (4096 ≤ (s.indexed a b 2 d).toNat % 4096 + 4 * i)
  | .strided _ | .gathered _ => false

/-- The accesses of the unmasked lanes of a local form, each checked. -/
def State.localLanes (s : State) (a : XReg) (d : BitVec 16) (f : LaneForm) (m : Word) (then_ : List Access → Eff) : Eff :=
  checkAll (fun i => s.checkLocal (s.laneAddr a d f i) 4 i (s.lanePois a f i) (s.beyondTile a d f i)) (lanesOf m) then_

def localLoad (g : Guard) (o : VMemOp) (f : LaneForm) (s : State) : Res :=
  frame g (o.a :: f.xs) [o.d] (fun s =>
    s.localLanes o.a o.disp f (s.kr o.m) fun as => s.enqueue o.md.h (vecLoadItem s (.v o.d) as o.md)) s

def localStore (g : Guard) (o : VMemOp) (f : LaneForm) (s : State) : Res :=
  frame g (o.a :: f.xs) [o.d] (fun s =>
    s.localLanes o.a o.disp f (s.kr o.m) fun as =>
      s.enqueue o.md.h (.store ⟨s.vecPieces o.d as, o.md.order, o.md.scope, []⟩)) s

def execTldv (g : Guard) (o : VMemOp) (s : State) : Res := localLoad g o (.contiguous o.b) s
def execTldvs (g : Guard) (o : VMemOp) (s : State) : Res := localLoad g o (.strided o.b) s
def execTstv (g : Guard) (o : VMemOp) (s : State) : Res := localStore g o (.contiguous o.b) s
def execTstvs (g : Guard) (o : VMemOp) (s : State) : Res := localStore g o (.strided o.b) s

end Sys2Proof.Machine
end

