-- ==== Sys2Proof/Machine/VectorInt.lean ====
section
/-!
DEFINITION. VectorInt.lean: the rules every vector instruction shares (R162 to R164) and VIOP, the integer vector
operations of R165.
-/

namespace Sys2Proof.Machine

/-- Element j of width w of a lane (R80). -/
def elemAt (w : Nat) (l : Lane) (j : Nat) : Nat := (l.toNat >>> (j * w)) % 2 ^ w

/-- The lane whose element j of width w is f j. -/
def packLane (w : Nat) (f : Nat → Nat) : Lane :=
  BitVec.ofNat 32 ((List.range (32 / w)).foldr (fun j acc => acc + (f j % 2 ^ w) <<< (j * w)) 0)

/-- A vector result under a write mask: lane i from the sources' lanes i, its poison theirs joined with `xp`, the
poison of the x registers read (R164). -/
def vResult (g : Guard) (d : VReg) (srcs : List VReg) (xs : List XReg) (m : KReg)
    (lane : State → Nat → Lane) (s : State) : Res :=
  frame g xs (d :: srcs) (fun s =>
    let f := lane s
    let xp := xs.any s.xPois
    .ok (s.onMe fun t =>
      t.setVMasked d (s.kr m) f fun i => xp || srcs.any fun r => (s.vPois r).getLsbD i)) s

/-- Width and sign of an integer element (R165). -/
def ieWidth (t : IntElem) : Nat :=
  match t with
  | .i8 | .n8 => 8
  | .i16 | .n16 => 16
  | .i32 | .n32 => 32

def ieSigned (t : IntElem) : Bool :=
  match t with
  | .i8 | .i16 | .i32 => true
  | .n8 | .n16 | .n32 => false

/-- An element function of two sources applied to every element of two lanes. -/
def mapLane2 (w : Nat) (f : BitVec w → BitVec w → BitVec w) (a b : Lane) : Lane :=
  packLane w fun j => (f (BitVec.ofNat w (elemAt w a j)) (BitVec.ofNat w (elemAt w b j))).toNat

def viop3 (g : Guard) (o : V3i) (f : (w : Nat) → BitVec w → BitVec w → BitVec w) (s : State) : Res :=
  vResult g o.d [o.a, o.b] [] o.m
    (fun s i => mapLane2 (ieWidth o.t) (f (ieWidth o.t)) (laneAt (s.vr o.a) i) (laneAt (s.vr o.b) i)) s

def viop2 (g : Guard) (o : V2i) (f : (w : Nat) → BitVec w → BitVec w) (s : State) : Res :=
  vResult g o.d [o.a] [] o.m
    (fun s i => mapLane2 (ieWidth o.t) (fun a _ => f (ieWidth o.t) a) (laneAt (s.vr o.a) i) 0) s

/-- A sum or difference saturated to the range of the type (R165). -/
def satFn (signed : Bool) (w : Nat) (f : Int → Int → Int) (a b : BitVec w) : BitVec w :=
  let z := if signed then f a.toInt b.toInt else f a.toNat b.toNat
  let lo : Int := if signed then -((2 ^ (w - 1) : Nat) : Int) else 0
  let hi : Int := if signed then ((2 ^ (w - 1) : Nat) : Int) - 1 else ((2 ^ w : Nat) : Int) - 1
  BitVec.ofInt w (max lo (min hi z))

def execVadd (g : Guard) (o : V3i) (s : State) : Res := viop3 g o (fun _ => addFn) s
def execVsub (g : Guard) (o : V3i) (s : State) : Res := viop3 g o (fun _ => subFn) s
def execVmul (g : Guard) (o : V3i) (s : State) : Res := viop3 g o (fun _ => mulFn) s
def execVmulh (g : Guard) (o : V3i) (s : State) : Res :=
  viop3 g o (fun _ a b => if ieSigned o.t then mulhFn a b else mulhnFn a b) s

/-- VMADD: a × b + d, d the old element of vD, whose poison joins (R165). -/
def execVmadd (g : Guard) (o : V3i) (s : State) : Res :=
  vResult g o.d [o.a, o.b, o.d] [] o.m
    (fun s i =>
      let w := ieWidth o.t
      let p := mapLane2 w (fun a b => a * b) (laneAt (s.vr o.a) i) (laneAt (s.vr o.b) i)
      mapLane2 w (fun a b => a + b) p (laneAt (s.vr o.d) i)) s

def execVand (g : Guard) (o : V3i) (s : State) : Res := viop3 g o (fun _ a b => a &&& b) s
def execVor (g : Guard) (o : V3i) (s : State) : Res := viop3 g o (fun _ a b => a ||| b) s
def execVxor (g : Guard) (o : V3i) (s : State) : Res := viop3 g o (fun _ a b => a ^^^ b) s
def execVshl (g : Guard) (o : V3i) (s : State) : Res := viop3 g o (fun _ => shlFn) s
def execVshr (g : Guard) (o : V3i) (s : State) : Res := viop3 g o (fun _ => shrFn) s
def execVsar (g : Guard) (o : V3i) (s : State) : Res := viop3 g o (fun _ => sarFn) s
def execVmin (g : Guard) (o : V3i) (s : State) : Res :=
  viop3 g o (fun _ a b => if ieSigned o.t then minFn a b else minnFn a b) s
def execVmax (g : Guard) (o : V3i) (s : State) : Res :=
  viop3 g o (fun _ a b => if ieSigned o.t then maxFn a b else maxnFn a b) s
def execVabs (g : Guard) (o : V2i) (s : State) : Res := viop2 g o (fun _ a => if a.slt 0 then -a else a) s
def execVneg (g : Guard) (o : V2i) (s : State) : Res := viop2 g o (fun _ a => -a) s
def execVadds (g : Guard) (o : V3i) (s : State) : Res :=
  viop3 g o (fun w => satFn (ieSigned o.t) w (fun a b => a + b)) s
def execVsubs (g : Guard) (o : V3i) (s : State) : Res :=
  viop3 g o (fun w => satFn (ieSigned o.t) w (fun a b => a - b)) s
def execVpop (g : Guard) (o : V2i) (s : State) : Res := viop2 g o (fun _ => popFn) s
def execVclz (g : Guard) (o : V2i) (s : State) : Res := viop2 g o (fun _ => clzFn) s

/-- VDOT4: the old lane of vD and the four byte products, modulo 2^32 (R165). -/
def execVdot4 (g : Guard) (o : V3i) (s : State) : Res :=
  vResult g o.d [o.a, o.b, o.d] [] o.m
    (fun s i =>
      let a := laneAt (s.vr o.a) i
      let b := laneAt (s.vr o.b) i
      let sg := ieSigned o.t
      let z := (List.range 4).foldl
        (fun acc j => acc + intOf sg 8 (elemAt 8 a j) * intOf sg 8 (elemAt 8 b j)) (0 : Int)
      BitVec.ofInt 32 ((laneAt (s.vr o.d) i).toNat + z)) s

/-- VSEL: kS selects, and every lane is written (R165). -/
def execVsel (g : Guard) (o : V3i) (s : State) : Res :=
  frame g [] [o.d, o.a, o.b] (fun s =>
    let k := s.kr o.m
    .ok (s.onMe fun t =>
      t.setVMasked o.d (BitVec.allOnes 64)
        (fun i => laneAt (s.vr (if k.getLsbD i then o.a else o.b)) i)
        (fun i => (s.vPois (if k.getLsbD i then o.a else o.b)).getLsbD i))) s

end Sys2Proof.Machine
end

