-- ==== Sys2Proof/Machine/VectorFloat.lean ====
section
/-!
DEFINITION. VectorFloat.lean: VFOP, the floating-point vector operations of R166 and R167.
-/

namespace Sys2Proof.Machine

/-- The format of a floating-point element. -/
def feFmt (t : FloatElem) : Fmt :=
  match t with
  | .f16 => .f16
  | .bf16 => .bf16
  | .f32 => .f32

/-- The elements of a lane rounded one by one, and the flags they raise joined. -/
def roundLane (t : Fmt) (f : Nat → Rounded) : Lane × Flags :=
  let rs := (List.range (32 / t.width)).map f
  (packLane t.width fun j => (rs.getD j ⟨0, 0, false⟩).code,
   rs.foldl (fun acc r => acc ||| r.flags) 0)

/-- A floating-point vector result: FPFLAGS takes the flags of the unmasked lanes (R167). -/
def vfResult (g : Guard) (d : VReg) (srcs : List VReg) (m : KReg)
    (lane : State → Nat → Lane × Flags) (s : State) : Res :=
  frame g [] (d :: srcs) (fun s =>
    let k := s.kr m
    let rs : Vector (Lane × Flags) 64 :=
      Vector.ofFn fun i : Fin 64 => if k.getLsbD i then lane s i else (0, 0)
    let fl := rs.toList.foldl (fun acc r => acc ||| r.2) (0 : Flags)
    .ok ((s.raise fl).onMe fun t =>
      t.setVMasked d k (fun i => (rs[i % 64]'(Nat.mod_lt _ (by decide))).1)
        fun i => srcs.any fun r => (s.vPois r).getLsbD i)) s

/-- Element j of lane i of a vector register, as a code. -/
def State.ve (s : State) (t : Fmt) (r : VReg) (i j : Nat) : Nat := elemAt t.width (laneAt (s.vr r) i) j

def vf3 (g : Guard) (o : V3f) (f : Fmt → RMode → Nat → Nat → Rounded) (s : State) : Res :=
  let t := feFmt o.t
  vfResult g o.d [o.a, o.b] o.m
    (fun s i => roundLane t fun j => f t (s.mode o.rnd) (s.ve t o.a i j) (s.ve t o.b i j)) s

/-- The forms that also read vD. -/
def vf4 (g : Guard) (o : V3f) (f : Fmt → RMode → Nat → Nat → Nat → Rounded) (s : State) : Res :=
  let t := feFmt o.t
  vfResult g o.d [o.a, o.b, o.d] o.m
    (fun s i => roundLane t fun j =>
      f t (s.mode o.rnd) (s.ve t o.a i j) (s.ve t o.b i j) (s.ve t o.d i j)) s

def vf2 (g : Guard) (o : V2f) (f : Fmt → RMode → Nat → Rounded) (s : State) : Res :=
  let t := feFmt o.t
  vfResult g o.d [o.a] o.m (fun s i => roundLane t fun j => f t (s.mode o.rnd) (s.ve t o.a i j)) s

def vfMinMax (g : Guard) (o : V3fn) (isMax : Bool) (s : State) : Res :=
  let t := feFmt o.t
  vfResult g o.d [o.a, o.b] o.m
    (fun s i => roundLane t fun j => fMinMax t isMax (s.ve t o.a i j) (s.ve t o.b i j)) s

def execVfadd (g : Guard) (o : V3f) (s : State) : Res := vf3 g o fAdd s
def execVfsub (g : Guard) (o : V3f) (s : State) : Res := vf3 g o fSub s
def execVfmul (g : Guard) (o : V3f) (s : State) : Res := vf3 g o fMul s
def execVffma (g : Guard) (o : V3f) (s : State) : Res := vf4 g o fFma s
def execVffms (g : Guard) (o : V3f) (s : State) : Res := vf4 g o fFms s
def execVfmin (g : Guard) (o : V3fn) (s : State) : Res := vfMinMax g o false s
def execVfmax (g : Guard) (o : V3fn) (s : State) : Res := vfMinMax g o true s

/-- VFABS: sign bits cleared, no flag (R85). -/
def execVfabs (g : Guard) (o : V2fn) (s : State) : Res :=
  let t := feFmt o.t
  vfResult g o.d [o.a] o.m
    (fun s i => roundLane t fun j => ⟨s.ve t o.a i j % t.signBit, .none, false⟩) s

/-- VFNEG: sign bits inverted, no flag (R85). -/
def execVfneg (g : Guard) (o : V2fn) (s : State) : Res :=
  let t := feFmt o.t
  vfResult g o.d [o.a] o.m
    (fun s i => roundLane t fun j => ⟨s.ve t o.a i j ^^^ t.signBit, .none, false⟩) s

def execVfdiv (g : Guard) (o : V3f) (s : State) : Res := vf3 g o fDiv s
def execVfsqrt (g : Guard) (o : V2f) (s : State) : Res := vf2 g o fSqrt s
def execVfrcp (g : Guard) (o : V2f) (s : State) : Res := vf2 g o fRcp s
def execVfrsq (g : Guard) (o : V2f) (s : State) : Res := vf2 g o fRsq s
def execVfexp2 (g : Guard) (o : V2f) (s : State) : Res := vf2 g o fExp2 s
def execVflog2 (g : Guard) (o : V2f) (s : State) : Res := vf2 g o fLog2 s

/-- VFSCL: a × 2^n, n the matching element of vB as a signed integer of the element's width (R166). -/
def execVfscl (g : Guard) (o : V3f) (s : State) : Res :=
  vf3 g o (fun t mode a b => fScale t mode a (intOf true t.width b)) s

end Sys2Proof.Machine
end

