-- ==== Sys2Proof/Machine/VectorConvert.lean ====
section
/-!
DEFINITION. VectorConvert.lean: VCVT and VCVTSC (R168 to R170).
-/

namespace Sys2Proof.Machine

/-- The 24 random bits of source element n under .rs (R169). -/
def randomBits (v : Vector Lane 64) (n : Nat) : Nat :=
  ((laneAt v n).rotateRight (8 * (n / 64 % 4))).toNat % 2 ^ 24

/-- Where a conversion's elements lie (R169): s0 and the first and last + 1 destination lanes. -/
structure CvtPlan where
  s0 : Nat
  d0 : Nat
  lane0 : Nat
  lanes : Nat
  deriving DecidableEq, Repr

def cvtPlan (dt st : ElemType) (part : Nat) : CvtPlan :=
  let ns := 32 / st.width
  let nd := 32 / dt.width
  if dt.width ≤ st.width then
    let cnt := 64 * ns
    ⟨0, part * cnt, part * cnt / nd, cnt / nd⟩
  else ⟨part * (64 * nd), 0, 0, 64⟩

/-- One destination lane: its value, flags, whether an element saturated, its poison. -/
structure CvtLane where
  value : Lane
  flags : Flags
  sat : Bool
  poison : Bool
  deriving DecidableEq, Repr

/-- Lane L of a conversion, inside the block (R169). `conv` converts the code of a source element. -/
def cvtLane (dt st : ElemType) (p : CvtPlan) (src : Vector Lane 64) (srcP : BitVec 64)
    (conv : Nat → Nat → Rounded) (extraP : Nat → Bool) (l : Nat) : CvtLane :=
  let ns := 32 / st.width
  let nd := 32 / dt.width
  let els := (List.range nd).map fun q => p.s0 + (l * nd + q - p.d0)
  let rs := els.map fun n => conv n (elemAt st.width (laneAt src (n / ns)) (n % ns))
  ⟨packLane dt.width fun j => (rs.getD j ⟨0, 0, false⟩).code,
   rs.foldl (fun acc r => acc ||| r.flags) 0,
   rs.any fun r => r.sat,
   els.any fun n => srcP.getLsbD (n / ns) || extraP n⟩

/-- VCVT and VCVTSC: the block's unmasked lanes are written whole, flags are joined, and the report mask is written
whole when one is named (R169, R170). -/
def cvtOp (g : Guard) (d a : VReg) (xs : List XReg) (m kr : KReg) (dt st : ElemType) (rnd : CvtRnd)
    (part : BitVec 3) (conv : State → RMode → Nat → Rounded) (s : State) : Res :=
  let rv : List VReg := match rnd with | .fixed _ => [] | .rs v => [v]
  frame g xs (d :: a :: rv) (fun s =>
    let p := cvtPlan dt st part.toNat
    let k := s.kr m
    let xp := xs.any s.xPois
    let mode : Nat → RMode := fun n =>
      match rnd with
      | .fixed r => s.mode r
      | .rs v => .rs (randomBits (s.vr v) n)
    let extra : Nat → Bool := fun n => xp || rv.any fun v => (s.vPois v).getLsbD (n % 64)
    let on : Nat → Bool := fun l => k.getLsbD l && decide (p.lane0 ≤ l) && decide (l < p.lane0 + p.lanes)
    let rs : Vector CvtLane 64 := Vector.ofFn fun l : Fin 64 =>
      if on l then cvtLane dt st p (s.vr a) (s.vPois a) (fun n c => conv s (mode n) c) extra l
      else ⟨0, 0, false, false⟩
    let at' : Nat → CvtLane := fun l => rs[l % 64]'(Nat.mod_lt _ (by decide))
    let fl := rs.toList.foldl (fun acc r => acc ||| r.flags) (0 : Flags)
    let t := (s.raise fl).onMe fun t =>
      t.setVMasked d (maskOf on) (fun l => (at' l).value) fun l => (at' l).poison
    .ok (if kr = 0 then t else t.setK kr (maskOf fun l => (at' l).sat))) s

def execVcvt (g : Guard) (o : VcvtOp) (s : State) : Res :=
  cvtOp g o.d o.a [] o.m o.kr o.dt o.st o.rnd o.part (fun _ mode c => convertElem o.dt o.st mode o.sat c) s

/-- VCVTSC divides by the SC20 in xB first (R93, R168). -/
def execVcvtsc (g : Guard) (o : VcvtscOp) (s : State) : Res :=
  cvtOp g o.d o.a [o.b] o.m o.kr o.dt o.st o.rnd o.part
    (fun s mode c => quantise o.dt o.st mode o.sat ((s.xr o.b).toNat % 2 ^ 20) c) s

end Sys2Proof.Machine
end

