-- ==== Sys2Proof/Machine/VectorDot.lean ====
section
/-!
DEFINITION. VectorDot.lean: VDOT, the block-scaled dot products (R178, R179, R100, R101).
-/

namespace Sys2Proof.Machine

/-- The contribution of one lane: its eight E2M1 elements of each operand, and its two scales (R178). -/
def laneContribution (st : ScaleType) (a b c : Lane) : Nat :=
  blockContribution st .e2m1 .e2m1 (elemAt 8 c 0) (elemAt 8 c 1)
    ((List.range 8).map (elemAt 4 a)) ((List.range 8).map (elemAt 4 b))

def execVbdot (g : Guard) (o : VdotOp) (s : State) : Res :=
  vResult g o.d [o.a, o.b, o.c] [] o.m
    (fun s i => BitVec.ofNat 32
      (laneContribution o.st (laneAt (s.vr o.a) i) (laneAt (s.vr o.b) i) (laneAt (s.vr o.c) i))) s

/-- VBDOTS: the two-chain sum over the unmasked lanes, whose poison joins (R101, R179). -/
def execVbdots (g : Guard) (o : VdotsOp) (s : State) : Res :=
  frame g [o.d] [o.a, o.b, o.c] (fun s =>
    let k := s.kr o.m
    let lanes := (List.range 64).map fun i =>
      if k.getLsbD i then
        some (laneContribution o.st (laneAt (s.vr o.a) i) (laneAt (s.vr o.b) i) (laneAt (s.vr o.c) i))
      else none
    .ok (s.setX o.d (num (vbdotsSum lanes))
      (((s.vPois o.a ||| s.vPois o.b ||| s.vPois o.c) &&& k) != 0))) s

end Sys2Proof.Machine
end

