-- ==== Sys2Proof/Machine/VectorMove.lean ====
section
/-!
DEFINITION. VectorMove.lean: VPRM, VCMP and VMSC: lane moves, reductions, scans, compares into masks, moves and
mask logic (R171 to R177).
-/

namespace Sys2Proof.Machine

/-! ### VPRM (R171) -/

def execVperm (g : Guard) (o : V3m) (s : State) : Res :=
  frame g [] [o.d, o.a, o.b] (fun s =>
    let idx : Nat → Nat := fun i => (laneAt (s.vr o.b) i).toNat % 64
    .ok (s.onMe fun t =>
      t.setVMasked o.d (s.kr o.m) (fun i => laneAt (s.vr o.a) (idx i))
        fun i => (s.vPois o.b).getLsbD i || (s.vPois o.a).getLsbD (idx i))) s

def execVbcast (g : Guard) (o : VxOp) (s : State) : Res :=
  vResult g o.d [] [o.a] o.m (fun s _ => low32 (s.xr o.a)) s

/-- VINS: one lane, by index, with no mask. -/
def execVins (g : Guard) (o : VinsOp) (s : State) : Res :=
  frame g [o.a, o.b] [o.d] (fun s =>
    .ok (s.onMe fun t =>
      t.setVMasked o.d (1#64 <<< low6 (s.xr o.b)) (fun _ => low32 (s.xr o.a))
        fun _ => s.xPois o.a || s.xPois o.b)) s

def execVext (g : Guard) (o : VextOp) (s : State) : Res :=
  frame g [o.d, o.b] [o.a] (fun s =>
    let i := low6 (s.xr o.b)
    .ok (s.setX o.d ((laneAt (s.vr o.a) i).setWidth 64) ((s.vPois o.a).getLsbD i || s.xPois o.b))) s

/-! ### VRED and VSCAN (R172, R103) -/

/-- What a masked-off lane enters as (R172, R86). Left open by the spec: log entry 19 (DESIGN CHOICE). -/
def redIdentity (op : RedOp) (t : RedElem) : Nat :=
  match op, t with
  | .add, .f32 => 0x80000000
  | .min, .f32 => 0x7F800000
  | .max, .f32 => 0xFF800000
  | .add, _ => 0
  | .min, .i32 => 0x7FFFFFFF
  | .max, .i32 => 0x80000000
  | .min, .n32 => 0xFFFFFFFF
  | .max, .n32 => 0

/-- One step of a reduction or scan, with its flags (R172). -/
def redStep (op : RedOp) (t : RedElem) (mode : RMode) (a b : Nat × Flags) : Nat × Flags :=
  let r : Rounded :=
    match op, t with
    | .add, .f32 => fAdd .f32 mode a.1 b.1
    | .min, .f32 => fMinMax .f32 false a.1 b.1
    | .max, .f32 => fMinMax .f32 true a.1 b.1
    | .add, _ => ⟨(a.1 + b.1) % 2 ^ 32, .none, false⟩
    | .min, .i32 => ⟨if intOf true 32 a.1 < intOf true 32 b.1 then a.1 else b.1, .none, false⟩
    | .max, .i32 => ⟨if intOf true 32 a.1 < intOf true 32 b.1 then b.1 else a.1, .none, false⟩
    | .min, .n32 => ⟨min a.1 b.1, .none, false⟩
    | .max, .n32 => ⟨max a.1 b.1, .none, false⟩
  (r.code, a.2 ||| b.2 ||| r.flags)

/-- One level of the tree: adjacent results combined, the lower index on the left. -/
def pairUp {α : Type} (f : α → α → α) : List α → List α
  | a :: b :: rest => f a b :: pairUp f rest
  | l => l

/-- The tree of n levels (R103). -/
def redTree {α : Type} (f : α → α → α) : Nat → List α → List α
  | 0, l => l
  | n + 1, l => redTree f n (pairUp f l)

/-- The lanes of vA with the identity in the masked-off ones. -/
def redLanes (v : Vector Lane 64) (k : Word) (id : Nat) : List (Nat × Flags) :=
  (List.range 64).map fun i => (if k.getLsbD i then (laneAt v i).toNat else id, 0)

def execVred (g : Guard) (o : VredOp) (s : State) : Res :=
  frame g [o.d] [o.a] (fun s =>
    let k := s.kr o.m
    let r := (redTree (redStep o.op o.t (s.mode o.rnd)) 6
      (redLanes (s.vr o.a) k (redIdentity o.op o.t))).headD (0, 0)
    let w : Word := match o.t with | .i32 => inW (BitVec.ofNat 32 r.1) | .n32 | .f32 => num r.1
    .ok ((s.raise r.2).setX o.d w (s.vPois o.a &&& k != 0))) s

/-- VSCAN in lane order: each unmasked lane's value and poison, and the flags raised (R172). -/
def scanLanes (step : Nat × Flags → Nat × Flags → Nat × Flags) (v : Vector Lane 64) (p k : Word) :
    List Nat → Nat × Flags → Bool → List (Nat × Bool) × Flags
  | [], acc, _ => ([], acc.2)
  | i :: is, acc, ap =>
    if k.getLsbD i then
      let acc' := step acc ((laneAt v i).toNat, 0)
      let ap' := ap || p.getLsbD i
      let r := scanLanes step v p k is acc' ap'
      ((acc'.1, ap') :: r.1, r.2)
    else
      let r := scanLanes step v p k is acc ap
      ((acc.1, ap) :: r.1, r.2)

def execVscan (g : Guard) (o : VscanOp) (s : State) : Res :=
  frame g [] [o.d, o.a] (fun s =>
    let k := s.kr o.m
    let r := scanLanes (redStep o.op o.t (s.mode o.rnd)) (s.vr o.a) (s.vPois o.a) k (List.range 64)
      (redIdentity o.op o.t, 0) false
    let at' : Nat → Nat × Bool := fun i => r.1.getD i (0, false)
    .ok ((s.raise r.2).onMe fun t =>
      t.setVMasked o.d k (fun i => BitVec.ofNat 32 (at' i).1) fun i => (at' i).2)) s

/-! ### Compress, expand, slide (R173) -/

/-- The set bits of a mask, rising. -/
def setBits (k : Word) : List Nat := (List.range 64).filter k.getLsbD

def execVcomp (g : Guard) (o : V2m) (s : State) : Res :=
  frame g [] [o.d, o.a] (fun s =>
    let sel := setBits (s.kr o.m)
    .ok (s.onMe fun t =>
      t.setVMasked o.d (lowOnes sel.length) (fun i => laneAt (s.vr o.a) (sel.getD i 0))
        fun i => (s.vPois o.a).getLsbD (sel.getD i 0))) s

def execVexpd (g : Guard) (o : V2m) (s : State) : Res :=
  frame g [] [o.d, o.a] (fun s =>
    let k := s.kr o.m
    let src : Nat → Nat := fun i => (setBits k).countP fun j => decide (j < i)
    .ok (s.onMe fun t =>
      t.setVMasked o.d k (fun i => laneAt (s.vr o.a) (src i)) fun i => (s.vPois o.a).getLsbD (src i))) s

def execVslide (g : Guard) (o : VslideOp) (s : State) : Res :=
  frame g [o.b] [o.d, o.a] (fun s =>
    let sh := (s.xr o.b).toInt
    let src : Nat → Int := fun i => i + sh
    let inRange : Nat → Bool := fun i => decide (0 ≤ src i) && decide (src i ≤ 63)
    .ok (s.onMe fun t =>
      t.setVMasked o.d (s.kr o.m) (fun i => if inRange i then laneAt (s.vr o.a) (src i).toNat else 0)
        fun i => s.xPois o.b || (inRange i && (s.vPois o.a).getLsbD (src i).toNat))) s

/-! ### VCMP (R174) -/

/-- The lowest set bit. -/
def lowestBit (k : Word) : Nat := (setBits k).headD 0

/-- A compare into a mask: a poisoned unmasked lane raises POISON with its number; the masked-off bits of kD keep
their values (R174). -/
def vcmpOp (g : Guard) (o : VcmpOp) (f : Lane → Lane → Bool × Flags) (s : State) : Res :=
  frame g [] [o.a, o.b] (fun s =>
    let k := s.kr o.m
    let bad := (s.vPois o.a ||| s.vPois o.b) &&& k
    if bad != 0 then .trap Cause.poison 0 (num (lowestBit bad))
    else
      let r : Nat → Bool × Flags := fun i => f (laneAt (s.vr o.a) i) (laneAt (s.vr o.b) i)
      let fl := (setBits k).foldl (fun acc i => acc ||| (r i).2) (0 : Flags)
      let old := s.kr o.d
      .ok ((s.raise fl).setK o.d (maskOf fun i => if k.getLsbD i then (r i).1 else old.getLsbD i))) s

def vcmpInt (g : Guard) (o : VcmpOp) (c : ICond) (s : State) : Res :=
  vcmpOp g o (fun a b => (c.holds a b, 0)) s

def vcmpFloat (g : Guard) (o : VcmpOp) (c : FCond) (s : State) : Res :=
  vcmpOp g o (fun a b => fCompare .f32 c a.toNat b.toNat) s

def execVcmpEq (g : Guard) (o : VcmpOp) (s : State) : Res := vcmpInt g o .eq s
def execVcmpNe (g : Guard) (o : VcmpOp) (s : State) : Res := vcmpInt g o .ne s
def execVcmpLt (g : Guard) (o : VcmpOp) (s : State) : Res := vcmpInt g o .lt s
def execVcmpGe (g : Guard) (o : VcmpOp) (s : State) : Res := vcmpInt g o .ge s
def execVcmpLe (g : Guard) (o : VcmpOp) (s : State) : Res := vcmpInt g o .le s
def execVcmpGt (g : Guard) (o : VcmpOp) (s : State) : Res := vcmpInt g o .gt s
def execVcmpLtn (g : Guard) (o : VcmpOp) (s : State) : Res := vcmpInt g o .ltn s
def execVcmpGen (g : Guard) (o : VcmpOp) (s : State) : Res := vcmpInt g o .gen s
def execVcmpLen (g : Guard) (o : VcmpOp) (s : State) : Res := vcmpInt g o .len s
def execVcmpGtn (g : Guard) (o : VcmpOp) (s : State) : Res := vcmpInt g o .gtn s
def execVcmpTst (g : Guard) (o : VcmpOp) (s : State) : Res := vcmpInt g o .tst s
def execVcmpNtst (g : Guard) (o : VcmpOp) (s : State) : Res := vcmpInt g o .ntst s
def execVcmpFeq (g : Guard) (o : VcmpOp) (s : State) : Res := vcmpFloat g o .feq s
def execVcmpFlt (g : Guard) (o : VcmpOp) (s : State) : Res := vcmpFloat g o .flt s
def execVcmpFle (g : Guard) (o : VcmpOp) (s : State) : Res := vcmpFloat g o .fle s
def execVcmpFun (g : Guard) (o : VcmpOp) (s : State) : Res := vcmpFloat g o .fun s

/-! ### VMSC (R175 to R177) -/

/-- VRAND's 32 bits of a seed and an index (R177). -/
def vrandFn (seed : Word) (index : Lane) : Lane :=
  let z := seed + index.setWidth 64 * 0x9E3779B97F4A7C15#64
  let z := (z ^^^ (z >>> 30)) * 0xBF58476D1CE4E5B9#64
  let z := (z ^^^ (z >>> 27)) * 0x94D049BB133111EB#64
  let z := z ^^^ (z >>> 31)
  z.extractLsb' 32 32

def execVrand (g : Guard) (o : VrandOp) (s : State) : Res :=
  vResult g o.d [o.b] [o.a] o.m (fun s i => vrandFn (s.xr o.a) (laneAt (s.vr o.b) i)) s

def execVmov (g : Guard) (o : V2m) (s : State) : Res :=
  vResult g o.d [o.a] [] o.m (fun s i => laneAt (s.vr o.a) i) s

/-- The lane VMOVI's immediate stands for (R176). -/
def vmoviLane (t : RedElem) (imm : BitVec 21) : Lane :=
  match t with
  | .i32 => imm.signExtend 32
  | .n32 => imm.setWidth 32
  | .f32 => imm.setWidth 32 <<< 11

def execVmovi (g : Guard) (o : VmoviOp) (s : State) : Res :=
  vResult g o.d [] [] o.m (fun _ _ => vmoviLane o.t o.imm) s

def execViota (g : Guard) (o : VxOp) (s : State) : Res :=
  vResult g o.d [] [o.a] o.m (fun s i => low32 (s.xr o.a + num i)) s

def kOp (g : Guard) (o : K3) (f : Word → Word → Word) (s : State) : Res :=
  frame g [] [] (fun s => .ok (s.setK o.d (f (s.kr o.a) (s.kr o.b)))) s

def execKand (g : Guard) (o : K3) (s : State) : Res := kOp g o (fun a b => a &&& b) s
def execKor (g : Guard) (o : K3) (s : State) : Res := kOp g o (fun a b => a ||| b) s
def execKxor (g : Guard) (o : K3) (s : State) : Res := kOp g o (fun a b => a ^^^ b) s
def execKnot (g : Guard) (o : K2) (s : State) : Res :=
  frame g [] [] (fun s => .ok (s.setK o.d (~~~s.kr o.a))) s

/-- KSETX: a poisoned source raises POISON (R175). -/
def execKsetx (g : Guard) (o : KsetxOp) (s : State) : Res :=
  frame g [o.a] [] (fun s =>
    if s.xPois o.a then .trap Cause.poison 0 0 else .ok (s.setK o.d (s.xr o.a))) s

def execKgetx (g : Guard) (o : KgetxOp) (s : State) : Res :=
  frame g [o.d] [] (fun s => .ok (s.setX o.d (s.kr o.a) false)) s

def execKpop (g : Guard) (o : KgetxOp) (s : State) : Res :=
  frame g [o.d] [] (fun s => .ok (s.setX o.d (popFn (s.kr o.a)) false)) s

end Sys2Proof.Machine
end

