-- ==== Sys2Proof/Machine/Dispatch.lean ====
section
/-!
DEFINITION. Dispatch.lean: the meaning of every row of the opcode table.
-/

namespace Sys2Proof.Machine

def exec (i : Instr) (s : State) : Host.Outcome State Fault Refusal :=
  match i with
  | .nop g => Sys2Proof.Machine.execNop g s
  | .trap g o => Sys2Proof.Machine.execTrap g o s
  | .brk g => Sys2Proof.Machine.execBrk g s
  | .eret g => Sys2Proof.Machine.execEret g s
  | .srd g o => Sys2Proof.Machine.execSrd g o s
  | .swr g o => Sys2Proof.Machine.execSwr g o s
  | .fence g o => Sys2Proof.Machine.execFence g o s
  | .fencer g o => Sys2Proof.Machine.execFencer g o s
  | .chk g o => Sys2Proof.Machine.execChk g o s
  | .chkv g o => Sys2Proof.Machine.execChkv g o s
  | .roinv g => Sys2Proof.Machine.execRoinv g s
  | .tlbi g o => Sys2Proof.Machine.execTlbi g o s
  | .waiti g o => Sys2Proof.Machine.execWaiti g o s
  | .jmp g o => Sys2Proof.Machine.execJmp g o s
  | .call g o => Sys2Proof.Machine.execCall g o s
  | .jr g o => Sys2Proof.Machine.execJr g o s
  | .callr g o => Sys2Proof.Machine.execCallr g o s
  | .ret g o => Sys2Proof.Machine.execRet g o s
  | .movl g o => Sys2Proof.Machine.execMovl g o s
  | .add g o => Sys2Proof.Machine.execAdd g o s
  | .sub g o => Sys2Proof.Machine.execSub g o s
  | .and g o => Sys2Proof.Machine.execAnd g o s
  | .or g o => Sys2Proof.Machine.execOr g o s
  | .xor g o => Sys2Proof.Machine.execXor g o s
  | .andn g o => Sys2Proof.Machine.execAndn g o s
  | .orn g o => Sys2Proof.Machine.execOrn g o s
  | .shl g o => Sys2Proof.Machine.execShl g o s
  | .shr g o => Sys2Proof.Machine.execShr g o s
  | .sar g o => Sys2Proof.Machine.execSar g o s
  | .rol g o => Sys2Proof.Machine.execRol g o s
  | .ror g o => Sys2Proof.Machine.execRor g o s
  | .mul g o => Sys2Proof.Machine.execMul g o s
  | .mulh g o => Sys2Proof.Machine.execMulh g o s
  | .mulhn g o => Sys2Proof.Machine.execMulhn g o s
  | .madd g o => Sys2Proof.Machine.execMadd g o s
  | .div g o => Sys2Proof.Machine.execDiv g o s
  | .divn g o => Sys2Proof.Machine.execDivn g o s
  | .rem g o => Sys2Proof.Machine.execRem g o s
  | .remn g o => Sys2Proof.Machine.execRemn g o s
  | .min g o => Sys2Proof.Machine.execMin g o s
  | .max g o => Sys2Proof.Machine.execMax g o s
  | .minn g o => Sys2Proof.Machine.execMinn g o s
  | .maxn g o => Sys2Proof.Machine.execMaxn g o s
  | .sel g o => Sys2Proof.Machine.execSel g o s
  | .clz g o => Sys2Proof.Machine.execClz g o s
  | .ctz g o => Sys2Proof.Machine.execCtz g o s
  | .pop g o => Sys2Proof.Machine.execPop g o s
  | .brev g o => Sys2Proof.Machine.execBrev g o s
  | .bswap g o => Sys2Proof.Machine.execBswap g o s
  | .sext g o => Sys2Proof.Machine.execSext g o s
  | .zext g o => Sys2Proof.Machine.execZext g o s
  | .bfx g o => Sys2Proof.Machine.execBfx g o s
  | .bfi g o => Sys2Proof.Machine.execBfi g o s
  | .iopiAdd g o => Sys2Proof.Machine.execIopiAdd g o s
  | .iopiAnd g o => Sys2Proof.Machine.execIopiAnd g o s
  | .iopiOr g o => Sys2Proof.Machine.execIopiOr g o s
  | .iopiXor g o => Sys2Proof.Machine.execIopiXor g o s
  | .iopiShl g o => Sys2Proof.Machine.execIopiShl g o s
  | .iopiShr g o => Sys2Proof.Machine.execIopiShr g o s
  | .iopiSar g o => Sys2Proof.Machine.execIopiSar g o s
  | .iopiRol g o => Sys2Proof.Machine.execIopiRol g o s
  | .iopiRor g o => Sys2Proof.Machine.execIopiRor g o s
  | .iopiMul g o => Sys2Proof.Machine.execIopiMul g o s
  | .iopiMin g o => Sys2Proof.Machine.execIopiMin g o s
  | .iopiMax g o => Sys2Proof.Machine.execIopiMax g o s
  | .iopiMinn g o => Sys2Proof.Machine.execIopiMinn g o s
  | .iopiMaxn g o => Sys2Proof.Machine.execIopiMaxn g o s
  | .iopiSext g o => Sys2Proof.Machine.execIopiSext g o s
  | .iopiZext g o => Sys2Proof.Machine.execIopiZext g o s
  | .iopiBfx g o => Sys2Proof.Machine.execIopiBfx g o s
  | .iopiBfi g o => Sys2Proof.Machine.execIopiBfi g o s
  | .cmpEq g o => Sys2Proof.Machine.execCmpEq g o s
  | .cmpNe g o => Sys2Proof.Machine.execCmpNe g o s
  | .cmpLt g o => Sys2Proof.Machine.execCmpLt g o s
  | .cmpGe g o => Sys2Proof.Machine.execCmpGe g o s
  | .cmpLe g o => Sys2Proof.Machine.execCmpLe g o s
  | .cmpGt g o => Sys2Proof.Machine.execCmpGt g o s
  | .cmpLtn g o => Sys2Proof.Machine.execCmpLtn g o s
  | .cmpGen g o => Sys2Proof.Machine.execCmpGen g o s
  | .cmpLen g o => Sys2Proof.Machine.execCmpLen g o s
  | .cmpGtn g o => Sys2Proof.Machine.execCmpGtn g o s
  | .cmpTst g o => Sys2Proof.Machine.execCmpTst g o s
  | .cmpNtst g o => Sys2Proof.Machine.execCmpNtst g o s
  | .cmpiEq g o => Sys2Proof.Machine.execCmpiEq g o s
  | .cmpiNe g o => Sys2Proof.Machine.execCmpiNe g o s
  | .cmpiLt g o => Sys2Proof.Machine.execCmpiLt g o s
  | .cmpiGe g o => Sys2Proof.Machine.execCmpiGe g o s
  | .cmpiLe g o => Sys2Proof.Machine.execCmpiLe g o s
  | .cmpiGt g o => Sys2Proof.Machine.execCmpiGt g o s
  | .cmpiLtn g o => Sys2Proof.Machine.execCmpiLtn g o s
  | .cmpiGen g o => Sys2Proof.Machine.execCmpiGen g o s
  | .cmpiLen g o => Sys2Proof.Machine.execCmpiLen g o s
  | .cmpiGtn g o => Sys2Proof.Machine.execCmpiGtn g o s
  | .cmpiTst g o => Sys2Proof.Machine.execCmpiTst g o s
  | .cmpiNtst g o => Sys2Proof.Machine.execCmpiNtst g o s
  | .movw g o => Sys2Proof.Machine.execMovw g o s
  | .movk g o => Sys2Proof.Machine.execMovk g o s
  | .lea g o => Sys2Proof.Machine.execLea g o s
  | .pand g o => Sys2Proof.Machine.execPand g o s
  | .por g o => Sys2Proof.Machine.execPor g o s
  | .pxor g o => Sys2Proof.Machine.execPxor g o s
  | .pandn g o => Sys2Proof.Machine.execPandn g o s
  | .pnot g o => Sys2Proof.Machine.execPnot g o s
  | .psetx g o => Sys2Proof.Machine.execPsetx g o s
  | .xgetp g o => Sys2Proof.Machine.execXgetp g o s
  | .fadd g o => Sys2Proof.Machine.execFadd g o s
  | .fsub g o => Sys2Proof.Machine.execFsub g o s
  | .fmul g o => Sys2Proof.Machine.execFmul g o s
  | .ffma g o => Sys2Proof.Machine.execFfma g o s
  | .fdiv g o => Sys2Proof.Machine.execFdiv g o s
  | .fsqrt g o => Sys2Proof.Machine.execFsqrt g o s
  | .fmin g o => Sys2Proof.Machine.execFmin g o s
  | .fmax g o => Sys2Proof.Machine.execFmax g o s
  | .fabs g o => Sys2Proof.Machine.execFabs g o s
  | .fneg g o => Sys2Proof.Machine.execFneg g o s
  | .fcvti g o => Sys2Proof.Machine.execFcvti g o s
  | .fcvtf g o => Sys2Proof.Machine.execFcvtf g o s
  | .fcvtw g o => Sys2Proof.Machine.execFcvtw g o s
  | .fclass g o => Sys2Proof.Machine.execFclass g o s
  | .feq g o => Sys2Proof.Machine.execFeq g o s
  | .flt g o => Sys2Proof.Machine.execFlt g o s
  | .fle g o => Sys2Proof.Machine.execFle g o s
  | .fun_ g o => Sys2Proof.Machine.execFun g o s
  | .ld g o => Sys2Proof.Machine.execLd g o s
  | .st g o => Sys2Proof.Machine.execSt g o s
  | .atomXchg g o => Sys2Proof.Machine.execAtomXchg g o s
  | .atomCas g o => Sys2Proof.Machine.execAtomCas g o s
  | .atomAdd g o => Sys2Proof.Machine.execAtomAdd g o s
  | .atomAnd g o => Sys2Proof.Machine.execAtomAnd g o s
  | .atomOr g o => Sys2Proof.Machine.execAtomOr g o s
  | .atomXor g o => Sys2Proof.Machine.execAtomXor g o s
  | .atomMin g o => Sys2Proof.Machine.execAtomMin g o s
  | .atomMax g o => Sys2Proof.Machine.execAtomMax g o s
  | .atomMinn g o => Sys2Proof.Machine.execAtomMinn g o s
  | .atomMaxn g o => Sys2Proof.Machine.execAtomMaxn g o s
  | .atomFadd g o => Sys2Proof.Machine.execAtomFadd g o s
  | .atomFmin g o => Sys2Proof.Machine.execAtomFmin g o s
  | .atomFmax g o => Sys2Proof.Machine.execAtomFmax g o s
  | .atomIncw g o => Sys2Proof.Machine.execAtomIncw g o s
  | .atomDecw g o => Sys2Proof.Machine.execAtomDecw g o s
  | .vld g o => Sys2Proof.Machine.execVld g o s
  | .vlds g o => Sys2Proof.Machine.execVlds g o s
  | .vldb g o => Sys2Proof.Machine.execVldb g o s
  | .vst g o => Sys2Proof.Machine.execVst g o s
  | .vsts g o => Sys2Proof.Machine.execVsts g o s
  | .vgather g o => Sys2Proof.Machine.execVgather g o s
  | .vscatter g o => Sys2Proof.Machine.execVscatter g o s
  | .vscadd g o => Sys2Proof.Machine.execVscadd g o s
  | .prefetchDc g o => Sys2Proof.Machine.execPrefetchDc g o s
  | .prefetchCs g o => Sys2Proof.Machine.execPrefetchCs g o s
  | .tld g o => Sys2Proof.Machine.execTld g o s
  | .tldv g o => Sys2Proof.Machine.execTldv g o s
  | .tldvs g o => Sys2Proof.Machine.execTldvs g o s
  | .tst g o => Sys2Proof.Machine.execTst g o s
  | .tstv g o => Sys2Proof.Machine.execTstv g o s
  | .tstvs g o => Sys2Proof.Machine.execTstvs g o s
  | .mma g o => Sys2Proof.Machine.execMma g o s
  | .mmaReg g o => Sys2Proof.Machine.execMmaReg g o s
  | .mmas g o => Sys2Proof.Machine.execMmas g o s
  | .mmasReg g o => Sys2Proof.Machine.execMmasReg g o s
  | .zzero g o => Sys2Proof.Machine.execZzero g o s
  | .zld g o => Sys2Proof.Machine.execZld g o s
  | .zst g o => Sys2Proof.Machine.execZst g o s
  | .zsts g o => Sys2Proof.Machine.execZsts g o s
  | .zbias g o => Sys2Proof.Machine.execZbias g o s
  | .tarm g o => Sys2Proof.Machine.execTarm g o s
  | .twait g o => Sys2Proof.Machine.execTwait g o s
  | .ttake g o => Sys2Proof.Machine.execTtake g o s
  | .tstat g o => Sys2Proof.Machine.execTstat g o s
  | .tmark g o => Sys2Proof.Machine.execTmark g o s
  | .tpois g o => Sys2Proof.Machine.execTpois g o s
  | .tscls g o => Sys2Proof.Machine.execTscls g o s
  | .tsclg g o => Sys2Proof.Machine.execTsclg g o s
  | .tzero g o => Sys2Proof.Machine.execTzero g o s
  | .tsend g o => Sys2Proof.Machine.execTsend g o s
  | .tsendv g o => Sys2Proof.Machine.execTsendv g o s
  | .tsendx g o => Sys2Proof.Machine.execTsendx g o s
  | .tnote g o => Sys2Proof.Machine.execTnote g o s
  | .hfork g o => Sys2Proof.Machine.execHfork g o s
  | .hjoin g o => Sys2Proof.Machine.execHjoin g o s
  | .hjoina g o => Sys2Proof.Machine.execHjoina g o s
  | .hwait g o => Sys2Proof.Machine.execHwait g o s
  | .hpass g o => Sys2Proof.Machine.execHpass g o s
  | .hrecv g o => Sys2Proof.Machine.execHrecv g o s
  | .hcnt g o => Sys2Proof.Machine.execHcnt g o s
  | .barinit g o => Sys2Proof.Machine.execBarinit g o s
  | .bararr g o => Sys2Proof.Machine.execBararr g o s
  | .bararx g o => Sys2Proof.Machine.execBararx g o s
  | .barexp g o => Sys2Proof.Machine.execBarexp g o s
  | .barwait g o => Sys2Proof.Machine.execBarwait g o s
  | .bartry g o => Sys2Proof.Machine.execBartry g o s
  | .barinv g o => Sys2Proof.Machine.execBarinv g o s
  | .spawn g o => Sys2Proof.Machine.execSpawn g o s
  | .exit g => Sys2Proof.Machine.execExit g s
  | .yield g => Sys2Proof.Machine.execYield g s
  | .park g o => Sys2Proof.Machine.execPark g o s
  | .cpygo g o => Sys2Proof.Machine.execCpygo g o s
  | .cpystat g o => Sys2Proof.Machine.execCpystat g o s
  | .cpyabort g o => Sys2Proof.Machine.execCpyabort g o s
  | .layset g o => Sys2Proof.Machine.execLayset g o s
  | .layget g o => Sys2Proof.Machine.execLayget g o s
  | .rgput g o => Sys2Proof.Machine.execRgput g o s
  | .rgread g o => Sys2Proof.Machine.execRgread g o s
  | .rgpos g o => Sys2Proof.Machine.execRgpos g o s
  | .trgnext g o => Sys2Proof.Machine.execTrgnext g o s
  | .trgfwd g o => Sys2Proof.Machine.execTrgfwd g o s
  | .trgacc g o => Sys2Proof.Machine.execTrgacc g o s
  | .trgrej g o => Sys2Proof.Machine.execTrgrej g o s
  | .trgmark g o => Sys2Proof.Machine.execTrgmark g o s
  | .vadd g o => Sys2Proof.Machine.execVadd g o s
  | .vsub g o => Sys2Proof.Machine.execVsub g o s
  | .vmul g o => Sys2Proof.Machine.execVmul g o s
  | .vmulh g o => Sys2Proof.Machine.execVmulh g o s
  | .vmadd g o => Sys2Proof.Machine.execVmadd g o s
  | .vand g o => Sys2Proof.Machine.execVand g o s
  | .vor g o => Sys2Proof.Machine.execVor g o s
  | .vxor g o => Sys2Proof.Machine.execVxor g o s
  | .vshl g o => Sys2Proof.Machine.execVshl g o s
  | .vshr g o => Sys2Proof.Machine.execVshr g o s
  | .vsar g o => Sys2Proof.Machine.execVsar g o s
  | .vmin g o => Sys2Proof.Machine.execVmin g o s
  | .vmax g o => Sys2Proof.Machine.execVmax g o s
  | .vabs g o => Sys2Proof.Machine.execVabs g o s
  | .vneg g o => Sys2Proof.Machine.execVneg g o s
  | .vadds g o => Sys2Proof.Machine.execVadds g o s
  | .vsubs g o => Sys2Proof.Machine.execVsubs g o s
  | .vpop g o => Sys2Proof.Machine.execVpop g o s
  | .vclz g o => Sys2Proof.Machine.execVclz g o s
  | .vdot4 g o => Sys2Proof.Machine.execVdot4 g o s
  | .vsel g o => Sys2Proof.Machine.execVsel g o s
  | .vfadd g o => Sys2Proof.Machine.execVfadd g o s
  | .vfsub g o => Sys2Proof.Machine.execVfsub g o s
  | .vfmul g o => Sys2Proof.Machine.execVfmul g o s
  | .vffma g o => Sys2Proof.Machine.execVffma g o s
  | .vffms g o => Sys2Proof.Machine.execVffms g o s
  | .vfmin g o => Sys2Proof.Machine.execVfmin g o s
  | .vfmax g o => Sys2Proof.Machine.execVfmax g o s
  | .vfabs g o => Sys2Proof.Machine.execVfabs g o s
  | .vfneg g o => Sys2Proof.Machine.execVfneg g o s
  | .vfdiv g o => Sys2Proof.Machine.execVfdiv g o s
  | .vfsqrt g o => Sys2Proof.Machine.execVfsqrt g o s
  | .vfrcp g o => Sys2Proof.Machine.execVfrcp g o s
  | .vfrsq g o => Sys2Proof.Machine.execVfrsq g o s
  | .vfexp2 g o => Sys2Proof.Machine.execVfexp2 g o s
  | .vflog2 g o => Sys2Proof.Machine.execVflog2 g o s
  | .vfscl g o => Sys2Proof.Machine.execVfscl g o s
  | .vcvt g o => Sys2Proof.Machine.execVcvt g o s
  | .vcvtsc g o => Sys2Proof.Machine.execVcvtsc g o s
  | .vperm g o => Sys2Proof.Machine.execVperm g o s
  | .vbcast g o => Sys2Proof.Machine.execVbcast g o s
  | .vins g o => Sys2Proof.Machine.execVins g o s
  | .vext g o => Sys2Proof.Machine.execVext g o s
  | .vred g o => Sys2Proof.Machine.execVred g o s
  | .vscan g o => Sys2Proof.Machine.execVscan g o s
  | .vcomp g o => Sys2Proof.Machine.execVcomp g o s
  | .vexpd g o => Sys2Proof.Machine.execVexpd g o s
  | .vslide g o => Sys2Proof.Machine.execVslide g o s
  | .vcmpEq g o => Sys2Proof.Machine.execVcmpEq g o s
  | .vcmpNe g o => Sys2Proof.Machine.execVcmpNe g o s
  | .vcmpLt g o => Sys2Proof.Machine.execVcmpLt g o s
  | .vcmpGe g o => Sys2Proof.Machine.execVcmpGe g o s
  | .vcmpLe g o => Sys2Proof.Machine.execVcmpLe g o s
  | .vcmpGt g o => Sys2Proof.Machine.execVcmpGt g o s
  | .vcmpLtn g o => Sys2Proof.Machine.execVcmpLtn g o s
  | .vcmpGen g o => Sys2Proof.Machine.execVcmpGen g o s
  | .vcmpLen g o => Sys2Proof.Machine.execVcmpLen g o s
  | .vcmpGtn g o => Sys2Proof.Machine.execVcmpGtn g o s
  | .vcmpTst g o => Sys2Proof.Machine.execVcmpTst g o s
  | .vcmpNtst g o => Sys2Proof.Machine.execVcmpNtst g o s
  | .vcmpFeq g o => Sys2Proof.Machine.execVcmpFeq g o s
  | .vcmpFlt g o => Sys2Proof.Machine.execVcmpFlt g o s
  | .vcmpFle g o => Sys2Proof.Machine.execVcmpFle g o s
  | .vcmpFun g o => Sys2Proof.Machine.execVcmpFun g o s
  | .vrand g o => Sys2Proof.Machine.execVrand g o s
  | .vmov g o => Sys2Proof.Machine.execVmov g o s
  | .vmovi g o => Sys2Proof.Machine.execVmovi g o s
  | .viota g o => Sys2Proof.Machine.execViota g o s
  | .kand g o => Sys2Proof.Machine.execKand g o s
  | .kor g o => Sys2Proof.Machine.execKor g o s
  | .kxor g o => Sys2Proof.Machine.execKxor g o s
  | .knot g o => Sys2Proof.Machine.execKnot g o s
  | .ksetx g o => Sys2Proof.Machine.execKsetx g o s
  | .kgetx g o => Sys2Proof.Machine.execKgetx g o s
  | .kpop g o => Sys2Proof.Machine.execKpop g o s
  | .vbdot g o => Sys2Proof.Machine.execVbdot g o s
  | .vbdots g o => Sys2Proof.Machine.execVbdots g o s
  | .storePerform k h => Sys2Proof.Machine.execStorePerform k h s
  | .loadPerform k h ix r => Sys2Proof.Machine.execLoadPerform k h ix r s
  | .atomicPerform k h r => Sys2Proof.Machine.execAtomicPerform k h r s
  | .transferPerform k h => Sys2Proof.Machine.execTransferPerform k h s
  | .tagItemPerform k h => Sys2Proof.Machine.execTagItemPerform k h s
  | .barrierItemPerform k x => Sys2Proof.Machine.execBarrierItemPerform k x s
  | .copyCommandPerform k h => Sys2Proof.Machine.execCopyCommandPerform k h s
  | .ringItemPerform k h r => Sys2Proof.Machine.execRingItemPerform k h r s
  | .gate k h => Sys2Proof.Machine.execGate k h s
  | .uplink cluster => Sys2Proof.Machine.execUplink cluster s
  | .fabric ix r => Sys2Proof.Machine.execFabric ix r s
  | .fill o p => Sys2Proof.Machine.execFill o p s
  | .drop o p => Sys2Proof.Machine.execDrop o p s
  | .deliver id l => Sys2Proof.Machine.execDeliver id l s
  | .waitEnd k r => Sys2Proof.Machine.execWaitEnd k r s
  | .timedWaitExpiry k => Sys2Proof.Machine.execTimedWaitExpiry k s
  | .voteWindowExpiry ix => Sys2Proof.Machine.execVoteWindowExpiry ix s
  | .voteBufferDiscard ix => Sys2Proof.Machine.execVoteBufferDiscard ix s
  | .eventTaken k => Sys2Proof.Machine.execEventTaken k s
  | .deferredPoison k => Sys2Proof.Machine.execDeferredPoison k s
  | .instructionFetchFault k => Sys2Proof.Machine.execInstructionFetchFault k s
  | .pageWalkEnd k f => Sys2Proof.Machine.execPageWalkEnd k f s
  | .crewPlacement launch spots => Sys2Proof.Machine.execCrewPlacement launch spots s
  | .crewRetirement crew => Sys2Proof.Machine.execCrewRetirement crew s
  | .doneIncrement launch r => Sys2Proof.Machine.execDoneIncrement launch r s
  | .waitCounterCheck launch r => Sys2Proof.Machine.execWaitCounterCheck launch r s
  | .agingStep launch => Sys2Proof.Machine.execAgingStep launch s
  | .preempt e => Sys2Proof.Machine.execPreempt e s
  | .quantumExpiry launch => Sys2Proof.Machine.execQuantumExpiry launch s
  | .crewRestore launch spots => Sys2Proof.Machine.execCrewRestore launch spots s
  | .hang crew slots => Sys2Proof.Machine.execHang crew slots s
  | .resume by_ p slot => Sys2Proof.Machine.execResume by_ p slot s
  | .kill by_ p slot => Sys2Proof.Machine.execKill by_ p slot s
  | .teardown by_ p => Sys2Proof.Machine.execTeardown by_ p s
  | .teardownDone p => Sys2Proof.Machine.execTeardownDone p s
  | .dmwrSubmission o => Sys2Proof.Machine.execDmwrSubmission o s
  | .seqWrite by_ q off bs => Sys2Proof.Machine.execSeqWrite by_ q off bs s
  | .bar4Access fn off op r => Sys2Proof.Machine.execBar4Access fn off op r s
  | .wqcfgWrite by_ q w => Sys2Proof.Machine.execWqcfgWrite by_ q w s
  | .pdcfgWrite by_ p w => Sys2Proof.Machine.execPdcfgWrite by_ p w s
  | .registerWrite by_ off w => Sys2Proof.Machine.execRegisterWrite by_ off w s
  | .xlinv by_ asid => Sys2Proof.Machine.execXlinv by_ asid s
  | .xlinvDone => Sys2Proof.Machine.execXlinvDone s
  | .assign by_ c p => Sys2Proof.Machine.execAssign by_ c p s
  | .release by_ c => Sys2Proof.Machine.execRelease by_ c s
  | .releaseEvictDone c => Sys2Proof.Machine.execReleaseEvictDone c s
  | .releaseEngineTimeout c => Sys2Proof.Machine.execReleaseEngineTimeout c s
  | .releaseDrainDone c => Sys2Proof.Machine.execReleaseDrainDone c s
  | .mrbaseWrite by_ r w => Sys2Proof.Machine.execMrbaseWrite by_ r w s
  | .wncfgWrite by_ p n w => Sys2Proof.Machine.execWncfgWrite by_ p n w s
  | .cxdcfgWrite by_ ix w => Sys2Proof.Machine.execCxdcfgWrite by_ ix w s
  | .linkTrained p => Sys2Proof.Machine.execLinkTrained p s
  | .packetReceived port bs => Sys2Proof.Machine.execPacketReceived port bs s
  | .packetCrcFail p => Sys2Proof.Machine.execPacketCrcFail p s
  | .linkRetrain p laneFails => Sys2Proof.Machine.execLinkRetrain p laneFails s
  | .remoteTimeout ix => Sys2Proof.Machine.execRemoteTimeout ix s
  | .cxlPortDown p => Sys2Proof.Machine.execCxlPortDown p s
  | .hpcfgWrite by_ w => Sys2Proof.Machine.execHpcfgWrite by_ w s
  | .hotPagePeriodEnd => Sys2Proof.Machine.execHotPagePeriodEnd s
  | .atsTranslationCompletion k a => Sys2Proof.Machine.execAtsTranslationCompletion k a s
  | .pageRequestResponse k a => Sys2Proof.Machine.execPageRequestResponse k a s
  | .atsInvalidateRequest pasid va size itag => Sys2Proof.Machine.execAtsInvalidateRequest pasid va size itag s
  | .invalidateCompletion itag => Sys2Proof.Machine.execInvalidateCompletion itag s
  | .hostAtomicopError k h => Sys2Proof.Machine.execHostAtomicopError k h s
  | .jobStart engine slot => Sys2Proof.Machine.execJobStart engine slot s
  | .elementOperation engine slot n x => Sys2Proof.Machine.execElementOperation engine slot n x s
  | .completionAction engine slot r => Sys2Proof.Machine.execCompletionAction engine slot r s
  | .rowstreamReservation engine slot => Sys2Proof.Machine.execRowstreamReservation engine slot s
  | .rowstreamIdleRelease ix => Sys2Proof.Machine.execRowstreamIdleRelease ix s
  | .slotTableWrite by_ d slice e w => Sys2Proof.Machine.execSlotTableWrite by_ d slice e w s
  | .ringEnable ring => Sys2Proof.Machine.execRingEnable ring s
  | .ringDisable ring => Sys2Proof.Machine.execRingDisable ring s
  | .ringFault ring => Sys2Proof.Machine.execRingFault ring s
  | .frameReceived port bs => Sys2Proof.Machine.execFrameReceived port bs s
  | .frameBufferDrop port bs => Sys2Proof.Machine.execFrameBufferDrop port bs s
  | .sampleWrite ring => Sys2Proof.Machine.execSampleWrite ring s
  | .headDelivery ring => Sys2Proof.Machine.execHeadDelivery ring s
  | .vacancyNotice ring tileB => Sys2Proof.Machine.execVacancyNotice ring tileB s
  | .claimClose ring claim => Sys2Proof.Machine.execClaimClose ring claim s
  | .keepCopySubmit ring claim slot => Sys2Proof.Machine.execKeepCopySubmit ring claim slot s
  | .keepCopyFault engine slot => Sys2Proof.Machine.execKeepCopyFault engine slot s
  | .qreqRise c => Sys2Proof.Machine.execQreqRise c s
  | .qreqClear c => Sys2Proof.Machine.execQreqClear c s
  | .save c => Sys2Proof.Machine.execSave c s
  | .restore c => Sys2Proof.Machine.execRestore c s
  | .clkenClear c => Sys2Proof.Machine.execClkenClear c s
  | .clkenSet c => Sys2Proof.Machine.execClkenSet c s
  | .railOff c => Sys2Proof.Machine.execRailOff c s
  | .railOn c => Sys2Proof.Machine.execRailOn c s
  | .wake by_ c => Sys2Proof.Machine.execWake by_ c s
  | .wakeClr by_ c => Sys2Proof.Machine.execWakeClr by_ c s
  | .quiesceDrainComplete c => Sys2Proof.Machine.execQuiesceDrainComplete c s
  | .quiesceJobLimit c slot => Sys2Proof.Machine.execQuiesceJobLimit c slot s
  | .saveDone c => Sys2Proof.Machine.execSaveDone c s
  | .restoreDone c => Sys2Proof.Machine.execRestoreDone c s
  | .powerGood c => Sys2Proof.Machine.execPowerGood c s
  | .rampTimeout c => Sys2Proof.Machine.execRampTimeout c s
  | .initDone c => Sys2Proof.Machine.execInitDone c s
  | .railFault c => Sys2Proof.Machine.execRailFault c s
  | .controlFault site => Sys2Proof.Machine.execControlFault site s
  | .errcfgWrite by_ w => Sys2Proof.Machine.execErrcfgWrite by_ w s
  | .mapoutGo by_ d range => Sys2Proof.Machine.execMapoutGo by_ d range s
  | .vacated by_ d => Sys2Proof.Machine.execVacated by_ d s
  | .mapoutSwitch d => Sys2Proof.Machine.execMapoutSwitch d s
  | .patrolScrub d a last r => Sys2Proof.Machine.execPatrolScrub d a last r s
  | .powerUp => Sys2Proof.Machine.execPowerUp s
  | .bringupStepDone p ok => Sys2Proof.Machine.execBringupStepDone p ok s
  | .getVersion req => Sys2Proof.Machine.execGetVersion req s
  | .getCapabilities req => Sys2Proof.Machine.execGetCapabilities req s
  | .negotiateAlgorithms req => Sys2Proof.Machine.execNegotiateAlgorithms req s
  | .getDigests req => Sys2Proof.Machine.execGetDigests req s
  | .getCertificate req => Sys2Proof.Machine.execGetCertificate req s
  | .challenge req => Sys2Proof.Machine.execChallenge req s
  | .getMeasurements req => Sys2Proof.Machine.execGetMeasurements req s
  | .powerSample watts tmax => Sys2Proof.Machine.execPowerSample watts tmax s
  | .thermalShutdown => Sys2Proof.Machine.execThermalShutdown s
  | .matrixInstructionComplete core => Sys2Proof.Machine.execMatrixInstructionComplete core s
  | .controllerEvaluation c => Sys2Proof.Machine.execControllerEvaluation c s
  | .weltReplay d e fails => Sys2Proof.Machine.execWeltReplay d e fails s
  | .cxlPortUp p => Sys2Proof.Machine.execCxlPortUp p s
  | .dieRailFault p => Sys2Proof.Machine.execDieRailFault p s

end Sys2Proof.Machine
end

