-- ==== Sys2Proof/Machine/Step.lean ====
section
/-!
DEFINITION. Step.lean: one step of the machine. The head of the agenda says which step it is; with an empty agenda
the executing strand issues, and where it cannot, nothing changes.
-/

namespace Sys2Proof.Machine

/-- The next instruction of the executing strand: fetched, decoded and executed (R105, R113).
Left open by the spec: log entry 2 (DESIGN CHOICE). -/
noncomputable def issueMe (s : State) : Host.Outcome State Fault Refusal :=
  match s.fetch with
  | .stop t e => .next (t.fetchStop e)
  | .bytes bs t =>
    match decode bs with
    | .error e => .next (t.illegal e.info)
    | .ok (i, _) => exec i t.tick

/-- The choice at the head of the agenda, or with an empty one the next issue.
Left open by the spec: log entry 2 (DESIGN CHOICE). -/
noncomputable def choose (s : State) : Host.Outcome State Fault Refusal :=
  match s.agenda with
  | [] => if s.issuable then issueMe s else .next s
  | .issue k :: rest =>
    if (State.select { s with agenda := rest } k).issuable && (State.select { s with agenda := rest } k).me.key == k then
      issueMe (State.select { s with agenda := rest } k)
    else .fault .notEnabled
  | .event i :: rest => exec i { s with agenda := rest }
  | .hostWrite a bs poison :: rest => .next (State.hostWrites { s with agenda := rest } a bs poison)
  | .priEnable fn :: rest => .next (State.priEnabled { s with agenda := rest } fn)
  | .priLimit fn n :: rest => .next (State.priGranted { s with agenda := rest } fn n)
  | .fnWorld fn b :: rest => .next (State.fnWorlds { s with agenda := rest } fn b)
  | .upset u b :: rest => .next (State.upset { s with agenda := rest } u b)
  | .portAddress k mac ip4 ip6 :: rest => .next (State.setPortAddress { s with agenda := rest } k mac ip4 ip6)
  | .linkPeer p :: rest => .next (State.peerFails { s with agenda := rest } p)
  | .bar2Read n :: rest => .next (State.bar2Read { s with agenda := rest } n)
  | .forget c :: rest => .next (State.forget { s with agenda := rest } c)
  | .cxlAnswer p off w :: rest => .next (State.cxlAnswer { s with agenda := rest } p off w)
  | .flash bs :: rest => .next (State.writeFlash { s with agenda := rest } bs)

/-- One step: after it, the wait words that it has written at their homes are read again (R314). -/
noncomputable def step (s : State) : Host.Outcome State Fault Refusal :=
  match choose s with
  | .next t => .next (t.rereadWaits s)
  | .fault f => .fault f
  | .refused r => .refused r

/-! ### A machine about to run one instruction -/

/-- Where `withFetchWord` stores its instruction. Left open by the spec: log entry 3 (DESIGN CHOICE). -/
def fetchBase : Nat := 0x10000

/-- Identity registers of a crew of one strand that has core 0 to itself.
Left open by the spec: log entry 3 (DESIGN CHOICE). -/
def fetchIds : Ids := ⟨0, 0, 1, launchId 0 0, 0, 0, 0, 0, 0, 0, 0, 256, 0, 128, 8⟩

/-- The crew of that strand. Left open by the spec: log entry 3 (DESIGN CHOICE). -/
def fetchCrew : Crew :=
  ⟨1, 1, 0, 0, false, 0, 0, [0], 0, 256, 0, 128, 8, 1, [], Vector.replicate 8 ⟨Vector.replicate 1024 0, 0⟩,
    List.replicate 4 (List.replicate 64 0), .placed, false, false, 0, 0, 0, []⟩

/-- `s` with a package in service, one strand of partition 0 at program level on core 0 whose address space maps
device memory onto itself, and the instruction with bits `w` where that strand fetches next.
Left open by the spec: log entry 3 (DESIGN CHOICE). -/
def State.withFetchWord (s : State) (nbits w : Nat) : State :=
  { s with
    me := { Strand.zero ⟨1, 0⟩ fetchIds with pc := num fetchBase, asid := 1 }
    others := []
    crews := [fetchCrew]
    dev := s.dev.writeBytes fetchBase (bytesOf 16 (w % 2 ^ nbits))
    copies := []
    layers := []
    cpRegs := []
    tlb := [⟨0, 1, 0, 2 ^ 42, 0x3F⟩]
    bar0 := [(0x100, 0x401), (0x300000, 0x4000000000000000), (0x310000, 0x8000000000000000),
      (0x310008, num (2 ^ 36 - 2 ^ 21)), (0x400010, 0x8000000000000000)]
    agenda := [] }

end Sys2Proof.Machine
end

