-- ==== Sys2Proof/Safety.lean ====
section
/-!
DEFINITION. Safety.lean: the vocabulary of the claims: what holds of every state a run can be in, and the shapes in
which an instruction completes, each saying what it changes and that it changes nothing else.
-/

namespace Sys2Proof.Machine

/-! ### Invariants -/

/-- The three memories are in canonical form: equal memories are equal data. -/
def State.memWf (s : State) : Prop := s.dev.wf = true ∧ s.host.wf = true ∧ s.tiles.wf = true

/-! ### When an instruction runs -/

/-- The strand may use system register `n` (steps 1 to 4 of R154): it is assigned, its level is high enough, it is not
read-only where it is written, and a ring's is of a ring of its partition, which is not secure where the strand is not
(R22, R356). -/
def State.mayUse (s : State) (n : Nat) (write : Bool) : Prop :=
  sysAssigned s.me.isInsole n = true ∧ (sysLevel n write).rank ≤ s.me.level.rank ∧
    (write = true → sysReadOnly n = false) ∧
    (0x800 ≤ n → s.me.isInsole = false → s.ownsRing s.me.part ((n - 0x800) / 16) = true ∧
      ((s.bar (rngown ((n - 0x800) / 16))).getLsbD 62 = true → s.me.secure = true))

/-- The guard is 1 and no register that the instruction reads or writes is pending (R29, R106). -/
def State.cleared (s : State) (g : Guard) (xs : List XReg) (vs : List VReg) : Prop :=
  s.guardOn g = true ∧ s.me.pending xs vs = false

/-! ### What an instruction leaves unchanged -/

/-- The instruction has ended: it counts in ISSUED once (R18), PC has moved `len` bytes on, and no wait is left. -/
def Ended (s t : State) (len : Word) : Prop :=
  t.me.issued = (if s.me.counted then s.me.issued else s.me.issued + 1) ∧ t.me.pc = s.me.pc + len ∧
    t.me.wait = none ∧ t.me.counted = false

/-- A strand with the registers, FPFLAGS, PC, ISSUED and wait of another. -/
def Strand.withRegs (t u : Strand) : Strand :=
  { t with
    x := u.x, xp := u.xp, v := u.v, vp := u.vp, c := u.c, k := u.k, fpflags := u.fpflags
    pc := u.pc, issued := u.issued, wait := u.wait, counted := u.counted }

/-- Outside PC, ISSUED and the wait, only the listed registers and FPFLAGS of the executing strand may differ;
FPFLAGS has gained exactly `fl`; every byte of every memory reads as before. -/
structure OnlyRegs (s t : State) (xs : List XReg) (vs : List VReg) (cs : List CReg) (ks : List KReg) (fl : Flags) :
    Prop where
  rest : t = { s with me := t.me }
  strand : t.me = s.me.withRegs t.me
  x : ∀ r, r ∉ xs → t.xr r = s.xr r ∧ t.xPois r = s.xPois r
  v : ∀ r, r ∉ vs → t.vr r = s.vr r ∧ t.vPois r = s.vPois r
  c : ∀ r, r ∉ cs → t.cr r = s.cr r
  k : ∀ r, r ∉ ks → t.kr r = s.kr r
  flags : t.me.fpflags = s.me.fpflags ||| fl
  mem : ∀ a, t.dev.read a = s.dev.read a ∧ t.host.read a = s.host.read a ∧ t.tiles.read a = s.tiles.read a

/-! ### How an instruction completes -/

/-- It completes and changes no register. -/
def Nothing (i : Instr) (s : State) : Prop := ∃ t, exec i s = .next t ∧ Ended s t 8 ∧ OnlyRegs s t [] [] [] [] 0

/-- It completes with `w` and poison `p` in x register `d`; x0 keeps reading 0 without poison (R11). -/
def XDone (i : Instr) (s : State) (len : Word) (d : XReg) (w : Word) (p : Bool) (fl : Flags) : Prop :=
  ∃ t, exec i s = .next t ∧ Ended s t len ∧ OnlyRegs s t [d] [] [] [] fl ∧
    t.xr d = (if d = 0 then 0 else w) ∧ t.xPois d = (d != 0 && p)

/-- It completes with `b` in condition register `d`; c0 keeps reading 1 (R11). -/
def CDone (i : Instr) (s : State) (d : CReg) (b : Prop) (fl : Flags) : Prop :=
  ∃ t, exec i s = .next t ∧ Ended s t 8 ∧ OnlyRegs s t [] [] [d] [] fl ∧ (t.cr d = true ↔ d = 0 ∨ b)

/-- It completes with lane mask `d` written bit by bit; k0 keeps reading all ones (R11). -/
def KDone (i : Instr) (s : State) (d : KReg) (bit : Nat → Bool) (fl : Flags) : Prop :=
  ∃ t, exec i s = .next t ∧ Ended s t 8 ∧ OnlyRegs s t [] [] [] [d] fl ∧
    ∀ n, n < 64 → (t.kr d).getLsbD n = (d == 0 || bit n)

/-- It completes with the lanes of v register `d` that `m` names written, value and poison; the others keep both
(R164). -/
def VDone (i : Instr) (s : State) (d : VReg) (m : Word) (lane : Nat → Lane) (p : Nat → Bool) (fl : Flags) : Prop :=
  ∃ t, exec i s = .next t ∧ Ended s t 8 ∧ OnlyRegs s t [] [d] [] [] fl ∧
    ∀ n : Fin 64, (t.vr d)[n] = (if m.getLsbD n then lane n else (s.vr d)[n]) ∧
      (t.vPois d).getLsbD n = (if m.getLsbD n then p n else (s.vPois d).getLsbD n)

/-- It completes by appending the items `bs`, in order, to the queue of handle `h`; no register, no other queue and no
byte of memory changes. -/
def Appends (i : Instr) (s : State) (h : HReg) (bs : List Body) : Prop :=
  ∃ t, exec i s = .next t ∧ Ended s t 8 ∧
    t = { s with me := { s.me with
      queues := t.me.queues, appended := t.me.appended, pc := t.me.pc, issued := t.me.issued, wait := none
      counted := false } } ∧
    t.me.queue h = s.me.queue h ++ bs.mapIdx (fun n b => ⟨s.me.appended + n, b, false⟩) ∧
    t.me.appended = s.me.appended + bs.length ∧ (∀ h', h' ≠ h → t.me.queue h' = s.me.queue h') ∧
    ∀ a, t.dev.read a = s.dev.read a ∧ t.host.read a = s.host.read a ∧ t.tiles.read a = s.tiles.read a

/-- It completes and control goes to `pc`; `link` names the register that takes PC + 8, x0 discarding it (R149). -/
def Jumps (i : Instr) (s : State) (pc : Word) (link : Option XReg) : Prop :=
  ∃ t, exec i s = .next t ∧ t.me.pc = pc ∧
    t.me.issued = (if s.me.counted then s.me.issued else s.me.issued + 1) ∧ t.me.wait = none ∧ t.me.counted = false ∧
    OnlyRegs s t link.toList [] [] [] 0 ∧
    ∀ d, link = some d → t.xr d = (if d = 0 then 0 else s.me.pc + 8) ∧ t.xPois d = false

/-- It traps with no effect of its own (R105): it counts in ISSUED, and the strand enters its handler. -/
def Traps (i : Instr) (s : State) (cause : Nat) (addr info : Word) : Prop :=
  exec i s = .next (s.countIssue.takeTrap cause addr info)

/-- It waits with PC at the instruction (R29). -/
def Waits (i : Instr) (s : State) (w : Wait) : Prop := exec i s = .next (s.countIssue.await w)

/-- It completes with the effect `f`: it counts in ISSUED, and PC moves past its word. -/
def Completes (i : Instr) (s : State) (f : State → State) : Prop := exec i s = .next ((f s.countIssue).advance 8)

/-- The strand has entered its handler for a precise trap (R336): the cause, address and detail, the PC of the
instruction and the level are saved, INHANDLER is set, x63 holds TRAP_SCRATCH without poison, and the strand goes to
TRAP_VEC at supervisor level, Insole's at machine level (R409). Nothing else changes, but that the instruction counts
in ISSUED. -/
structure InHandler (s t : State) (cause : Nat) (addr info : Word) : Prop where
  cause : t.me.trapCause = .ofNat 64 cause
  addr : t.me.trapAddr = addr
  info : t.me.trapInfo = info
  pcSaved : t.me.trapPc = s.me.pc
  prev : t.me.prev = s.me.level.code
  async : t.me.async = false
  inHandler : t.me.inHandler = true
  pc : t.me.pc = s.trapVec
  level : t.me.level = if s.me.isInsole then .machine else .supervisor
  x63 : t.xr 63 = s.trapScratch ∧ t.xPois 63 = false
  x : ∀ r, r ≠ 63 → t.xr r = s.xr r ∧ t.xPois r = s.xPois r
  issued : t.me.issued = if s.me.counted then s.me.issued else s.me.issued + 1
  strand : t.me = { s.me with
    x := t.me.x, xp := t.me.xp, trapCause := t.me.trapCause, trapAddr := t.me.trapAddr, trapInfo := t.me.trapInfo
    trapPc := t.me.trapPc, prev := t.me.prev, async := false, inHandler := true, level := t.me.level, pc := t.me.pc
    issued := t.me.issued, wait := none, counted := false }
  rest : t = { s with me := t.me }
  mem : ∀ a, t.dev.read a = s.dev.read a ∧ t.host.read a = s.host.read a ∧ t.tiles.read a = s.tiles.read a

/-! ### Shapes of claim: an operation on x registers, given as a function of its operands -/

/-- A form with two sources and .w: the 32-bit form works on bits 31:0 and sign-extends its result (R135, R137). -/
def Alu3w (mk : Guard → X3w → Instr) (f : (n : Nat) → BitVec n → BitVec n → BitVec n) : Prop :=
  ∀ (s : State) (g : Guard) (o : X3w), s.cleared g [o.d, o.a, o.b] [] →
    XDone (mk g o) s 8 o.d
      (if o.w then (f 32 ((s.xr o.a).setWidth 32) ((s.xr o.b).setWidth 32)).signExtend 64
       else f 64 (s.xr o.a) (s.xr o.b))
      (s.xPois o.a || s.xPois o.b) 0

/-- A form with two sources and no .w. -/
def Alu3 (mk : Guard → X3 → Instr) (f : Word → Word → Word) : Prop :=
  ∀ (s : State) (g : Guard) (o : X3), s.cleared g [o.d, o.a, o.b] [] →
    XDone (mk g o) s 8 o.d (f (s.xr o.a) (s.xr o.b)) (s.xPois o.a || s.xPois o.b) 0

/-- A form with one source and .w, whose result is any that `f` relates to the operand. -/
def Alu2w (mk : Guard → X2w → Instr) (f : (n : Nat) → BitVec n → BitVec n → Prop) : Prop :=
  ∀ (s : State) (g : Guard) (o : X2w), s.cleared g [o.d, o.a] [] →
    (o.w = true → ∀ r : BitVec 32, f 32 ((s.xr o.a).setWidth 32) r →
      XDone (mk g o) s 8 o.d (r.signExtend 64) (s.xPois o.a) 0) ∧
    (o.w = false → ∀ r : Word, f 64 (s.xr o.a) r → XDone (mk g o) s 8 o.d r (s.xPois o.a) 0)

/-- A form with an immediate in place of the second source, sign-extended from 22 bits (R109, R136). -/
def AluIw (mk : Guard → XIw → Instr) (f : (n : Nat) → BitVec n → BitVec n → BitVec n) : Prop :=
  ∀ (s : State) (g : Guard) (o : XIw), s.cleared g [o.d, o.a] [] →
    XDone (mk g o) s 8 o.d
      (if o.w then (f 32 ((s.xr o.a).setWidth 32) (o.imm.signExtend 32)).signExtend 64
       else f 64 (s.xr o.a) (o.imm.signExtend 64))
      (s.xPois o.a) 0

def AluI (mk : Guard → XI → Instr) (f : Word → Word → Word) : Prop :=
  ∀ (s : State) (g : Guard) (o : XI), s.cleared g [o.d, o.a] [] →
    XDone (mk g o) s 8 o.d (f (s.xr o.a) (o.imm.signExtend 64)) (s.xPois o.a) 0

/-- The combine operation of a compare on truths (R138). -/
def combHolds (k : Comb) (old new : Prop) : Prop :=
  match k with
  | .set => new
  | .and => old ∧ new
  | .or => old ∨ new

/-- A compare of unpoisoned registers, whole or (.w) in bits 31:0 (R138). -/
def Compares (mk : Guard → CmpOp → Instr) (f : (n : Nat) → BitVec n → BitVec n → Prop) : Prop :=
  ∀ (s : State) (g : Guard) (o : CmpOp), s.cleared g [o.a, o.b] [] → s.xPois o.a = false → s.xPois o.b = false →
    CDone (mk g o) s o.d
      (combHolds o.comb (s.cr o.d = true)
        (if o.w then f 32 ((s.xr o.a).setWidth 32) ((s.xr o.b).setWidth 32) else f 64 (s.xr o.a) (s.xr o.b))) 0

/-- A compare with an immediate. -/
def ComparesI (mk : Guard → CmpIOp → Instr) (f : (n : Nat) → BitVec n → BitVec n → Prop) : Prop :=
  ∀ (s : State) (g : Guard) (o : CmpIOp), s.cleared g [o.a] [] → s.xPois o.a = false →
    CDone (mk g o) s o.d
      (combHolds o.comb (s.cr o.d = true)
        (if o.w then f 32 ((s.xr o.a).setWidth 32) (o.imm.signExtend 32)
         else f 64 (s.xr o.a) (o.imm.signExtend 64))) 0

/-! ### Accesses (R181, R182, R194) -/

/-- An access at `addr` passes the checks of R182, as `a`: it translates, and a voted load finds room in its home's
vote buffer (R43). -/
def State.reaches (s : State) (acc : Acc) (addr : Word) (lane : Nat) (a : Access) : Prop :=
  ∃ p pin, s.xlate (s.who s.me) acc addr = .at p pin ∧ a = ⟨lane, addr, some (s.who s.me).asid, p, pin⟩ ∧
    (∀ d, p = .dev d → s.isVoted s.me = true → acc = .load → s.voteBufferFull d = false)

/-- The queue of `h` has room for `n` more entries (R11). -/
def State.room (s : State) (h : HReg) (n : Nat) : Prop := (s.me.queue h).length + n ≤ 64

/-- The accesses of the lanes that `m` leaves unmasked, in rising order, each passing the checks of R182. -/
def State.lanesReach (s : State) (acc : Acc) (addr : Nat → Word) (pois : Nat → Bool) (m : Word) (as : List Access) :
    Prop :=
  as.map (·.lane) = (List.range 64).filter m.getLsbD ∧
    ∀ a ∈ as, pois a.lane = false ∧ (addr a.lane).toNat % 4 = 0 ∧ s.reaches acc (addr a.lane) a.lane a

/-- A local access at `addr` (R194): aligned, inside the crew's tiles, at its absolute place. -/
def State.reachesLocal (s : State) (addr : Word) (n lane : Nat) (a : Access) : Prop :=
  addr.toNat % n = 0 ∧ s.inTiles addr n = true ∧ a = ⟨lane, addr, none, s.localPlace addr.toNat, false⟩

/-- The accesses of the unmasked lanes of a local form, in rising order; `inside` says of a lane that it lies before the
end that the form sets it. -/
def State.lanesReachLocal (s : State) (addr : Nat → Word) (pois : Nat → Bool) (inside : Nat → Prop) (m : Word)
    (as : List Access) : Prop :=
  as.map (·.lane) = (List.range 64).filter m.getLsbD ∧
    ∀ a ∈ as, pois a.lane = false ∧ inside a.lane ∧ s.reachesLocal (addr a.lane) 4 a.lane a

/-! ### Accumulators (R196 to R203) -/

/-- The unit takes the instruction at once (R197): it has room, the accumulator is not being written, and no earlier
local access of the strand touches the tiles. -/
def State.matFree (s : State) (tiles : List Nat) (acc : Nat) : Prop :=
  s.matrixReady [acc] = true ∧
    ∀ t ∈ tiles, s.ownScratch false (tileAddr s.me.core (s.me.ids.tileBase.toNat + t) 0) 4096 = []

/-- A tile number is in range (R205). -/
def State.tileOk (s : State) (n : Word) : Prop := n.toNat ≤ 255 ∧ n.toNat < s.me.ids.tileCount.toNat

/-- The instruction has completed with accumulator `z` of the crew written element by element; no other accumulator,
no register and no byte of memory changes, and the instruction has its place in the matrix unit. -/
structure ZWritten (s t : State) (z : Nat) (e : Nat → Nat → Lane) (p : Nat → Nat → Bool) : Prop where
  ended : Ended s t 8
  rest : t = { s with
    me := t.me, crews := t.crews, matrix := s.matrix ++ [(s.me.core, s.me.key.crew, z)] }
  strand : t.me = { s.me with pc := t.me.pc, issued := t.me.issued, wait := none, counted := false }
  crews : ∀ uid, uid ≠ s.me.key.crew → t.crew? uid = s.crew? uid
  others : ∀ y, y < 8 → y ≠ z → t.zr y = s.zr y
  elem : ∀ m n, m < 32 → n < 32 → (t.zr z).elem m n = e m n ∧ (t.zr z).pois m n = p m n
  mem : ∀ a, t.dev.read a = s.dev.read a ∧ t.host.read a = s.host.read a ∧ t.tiles.read a = s.tiles.read a

/-! ### Tile, barrier, target and ring operands (R205, R206, R235) -/

/-- An operand names number `n`, below `count`. -/
def State.names (s : State) (r : TileRef) (n count : Nat) : Prop :=
  n ≤ 255 ∧ n < count ∧
    match r with
    | .imm i => i.toNat = n
    | .reg x => s.xPois x = false ∧ (s.xr x).toNat = n

/-- The operand names crew-relative tile `n`. -/
def State.namesTileNo (s : State) (r : TileRef) (n : Nat) : Prop := s.names r n s.me.ids.tileCount.toNat

/-- The operand names crew-relative barrier `n`. -/
def State.namesBar (s : State) (r : TileRef) (n : Nat) : Prop := s.names r n s.me.ids.barCount.toNat

/-- A target tile passes the check at issue (R206, R22, R365). -/
def State.targetOk (s : State) (w : Word) : Prop :=
  s.me.isInsole = false ∧ s.targetDenied s.me.part s.me.secure w = none

/-- X[B] names ring `n` of the package, which the strand's partition owns, or any for Insole's, and which is not secure
where the strand is not (R235, R356, R409). -/
def State.ownRing (s : State) (b : XReg) (n : Nat) : Prop :=
  s.xPois b = false ∧ fieldOf (s.xr b) 51 8 = 0 ∧ s.isOwnNode (fieldOf (s.xr b) 63 52) = true ∧
    fieldOf (s.xr b) 5 0 = n ∧ (s.me.isInsole = true ∨ s.ownsRing s.me.part n = true) ∧
    ((s.bar (rngown n)).getLsbD 62 = true → s.me.secure = true)

/-- X[B] names a ring of another node, to which window `v` of the strand's partition leads (R235, R356, R365). -/
def State.farRing? (s : State) (b : XReg) (v : Via) : Prop :=
  s.me.isInsole = false ∧ s.xPois b = false ∧ fieldOf (s.xr b) 51 8 = 0 ∧
    s.isOwnNode (fieldOf (s.xr b) 63 52) = false ∧ s.viaNode? s.me.part (fieldOf (s.xr b) 63 52) = some v ∧
    ((s.bar (windowReg v.part v.win 0)).getLsbD 61 = true → s.me.secure = true)

/-- The way that an item takes to ring `n` of the package, or through a window to another node's. -/
def State.ringVia (s : State) (b : XReg) (via : Option Via) : Prop :=
  s.me.isInsole = false ∧
    match via with
    | none => s.ownRing b (fieldOf (s.xr b) 5 0)
    | some v => s.farRing? b v

/-- A 64-byte block of the crew's tiles at X[A] (R228, R230), with no earlier store of the strand to it outstanding. -/
def State.blockOk (s : State) (a : XReg) : Prop :=
  s.xPois a = false ∧ (s.xr a).toNat % 64 = 0 ∧ s.inTiles (s.xr a) 64 = true

/-- A layout-entry operand names entry `n` of the crew's (R225). -/
def State.namesEntry (s : State) (r : EntryRef) (n : Nat) : Prop :=
  s.me.isInsole = false ∧ n < 4 * s.me.ids.crewSize.toNat ∧
    match r with
    | .imm i => i.toNat = n
    | .reg x => s.xPois x = false ∧ (s.xr x).toNat = n

/-- A ticket names an engine of the partition (R233). -/
def State.ticketOk (s : State) (t : Word) : Prop :=
  fieldOf t 31 15 = 0 ∧ fieldOf t 7 6 = 0 ∧ fieldOf t 11 8 ≤ 11 ∧ s.me.isInsole = false ∧
    s.clusterPart (12 * fieldOf t 14 12 + fieldOf t 11 8) = some s.me.part

/-! ### Shapes of claim: scalar floating point (R143 to R147) -/

/-- A form with two sources and a rounding mode: the code, the flags and the joined poison. -/
def Fop3 (mk : Guard → F3 → Instr) (f : Fmt → RMode → Nat → Nat → Rounded) : Prop :=
  ∀ (s : State) (g : Guard) (o : F3), s.cleared g [o.d, o.a, o.b] [] →
    let r := f (fmtOf o.fw) (s.mode o.rnd) (s.fr o.fw o.a) (s.fr o.fw o.b)
    XDone (mk g o) s 8 o.d (.ofNat 64 r.code) (s.xPois o.a || s.xPois o.b) r.flags

/-- A form with one source and a rounding mode. -/
def Fop2 (mk : Guard → F2 → Instr) (f : FWidth → RMode → State → XReg → Rounded) : Prop :=
  ∀ (s : State) (g : Guard) (o : F2), s.cleared g [o.d, o.a] [] →
    let r := f o.fw (s.mode o.rnd) s o.a
    XDone (mk g o) s 8 o.d (.ofNat 64 r.code) (s.xPois o.a) r.flags

/-- A compare of unpoisoned registers; FPFLAGS gains INVALID where the compare raises it (R147). -/
def FCompares (mk : Guard → FcmpOp → Instr) (holds : Val → Val → Prop) (quiet : Bool) : Prop :=
  ∀ (s : State) (g : Guard) (o : FcmpOp), s.cleared g [o.a, o.b] [] → s.xPois o.a = false → s.xPois o.b = false →
    let x := (fmtOf o.fw).decode (s.fr o.fw o.a)
    let y := (fmtOf o.fw).decode (s.fr o.fw o.b)
    CDone (mk g o) s o.d (combHolds o.comb (s.cr o.d = true) (holds x y))
      (if (x.isSig || y.isSig) && !quiet then .invalid else 0)

/-! ### Shapes of claim: vectors (R162 to R170) -/

/-- Element `j` of width `w` of lane `n` (R80). -/
def laneElem (w : Nat) (v : Vector Lane 64) (n j : Nat) : BitVec w := (laneAt v n).extractLsb' (w * j) w

/-- Every element of a vector of lanes is given by a function of lane and place. -/
def ElemsAre (w : Nat) (lanes : Nat → Lane) (f : Nat → Nat → BitVec w) : Prop :=
  ∀ n j, n < 64 → j < 32 / w → (lanes n).extractLsb' (w * j) w = f n j

/-- An integer form: each element of an unmasked lane is `f` of the elements at its place (R165). -/
def Viop3 (mk : Guard → V3i → Instr) (f : Bool → (w : Nat) → BitVec w → BitVec w → BitVec w) : Prop :=
  ∀ (s : State) (g : Guard) (o : V3i) (lanes : Nat → Lane), s.cleared g [] [o.d, o.a, o.b] →
    ElemsAre (ieWidth o.t) lanes (fun n j => f (ieSigned o.t) (ieWidth o.t)
      (laneElem (ieWidth o.t) (s.vr o.a) n j) (laneElem (ieWidth o.t) (s.vr o.b) n j)) →
    VDone (mk g o) s o.d (s.kr o.m) lanes (fun n => (s.vPois o.a).getLsbD n || (s.vPois o.b).getLsbD n) 0

def Viop2 (mk : Guard → V2i → Instr) (f : (w : Nat) → BitVec w → BitVec w → Prop) : Prop :=
  ∀ (s : State) (g : Guard) (o : V2i) (lanes : Nat → Lane), s.cleared g [] [o.d, o.a] →
    (∀ n j, n < 64 → j < 32 / ieWidth o.t → f (ieWidth o.t) (laneElem (ieWidth o.t) (s.vr o.a) n j)
      ((lanes n).extractLsb' (ieWidth o.t * j) (ieWidth o.t))) →
    VDone (mk g o) s o.d (s.kr o.m) lanes (fun n => (s.vPois o.a).getLsbD n) 0

/-- A floating-point form with element results `r` (R166, R167): the codes in their places, and in FPFLAGS the flags of
the elements of unmasked lanes. -/
def VFloat (i : Instr) (s : State) (d : VReg) (srcs : List VReg) (m : KReg) (w : Nat) (r : Nat → Nat → Rounded) : Prop :=
  ∀ (lanes : Nat → Lane) (fl : Flags), ElemsAre w lanes (fun n j => .ofNat w (r n j).code) →
    (∀ b, b < 5 → (fl.getLsbD b = true ↔
      ∃ n j, n < 64 ∧ j < 32 / w ∧ (s.kr m).getLsbD n = true ∧ (r n j).flags.getLsbD b = true)) →
    VDone i s d (s.kr m) lanes (fun n => srcs.any fun v => (s.vPois v).getLsbD n) fl

def Vfop3 (mk : Guard → V3f → Instr) (f : Fmt → RMode → Nat → Nat → Rounded) : Prop :=
  ∀ (s : State) (g : Guard) (o : V3f), s.cleared g [] [o.d, o.a, o.b] →
    let t := feFmt o.t
    VFloat (mk g o) s o.d [o.a, o.b] o.m t.width fun n j =>
      f t (s.mode o.rnd) (laneElem t.width (s.vr o.a) n j).toNat (laneElem t.width (s.vr o.b) n j).toNat

/-- The forms that also read vD. -/
def Vfop4 (mk : Guard → V3f → Instr) (f : Fmt → RMode → Nat → Nat → Nat → Rounded) : Prop :=
  ∀ (s : State) (g : Guard) (o : V3f), s.cleared g [] [o.d, o.a, o.b, o.d] →
    let t := feFmt o.t
    VFloat (mk g o) s o.d [o.a, o.b, o.d] o.m t.width fun n j =>
      f t (s.mode o.rnd) (laneElem t.width (s.vr o.a) n j).toNat (laneElem t.width (s.vr o.b) n j).toNat
        (laneElem t.width (s.vr o.d) n j).toNat

def Vfop2 (mk : Guard → V2f → Instr) (f : Fmt → RMode → Nat → Rounded) : Prop :=
  ∀ (s : State) (g : Guard) (o : V2f), s.cleared g [] [o.d, o.a] →
    let t := feFmt o.t
    VFloat (mk g o) s o.d [o.a] o.m t.width fun n j => f t (s.mode o.rnd) (laneElem t.width (s.vr o.a) n j).toNat

/-- A conversion (R168 to R170): element s0 + k of vA is converted into element d0 + k of vD, for the elements that
fit; only unmasked lanes of that block are written; FPFLAGS gains what they raise; where a report mask is named it
tells, bit by bit, which of those lanes hold an element that saturated. -/
def Converts (i : Instr) (s : State) (d a : VReg) (m kr : KReg) (dt st : ElemType) (part : Nat)
    (conv : Nat → Nat → Rounded) (pois : Nat → Bool) : Prop :=
  let ns := 32 / st.width
  let nd := 32 / dt.width
  let cnt := if dt.width ≤ st.width then 64 * ns else 64 * nd
  let s0 := if dt.width ≤ st.width then 0 else part * cnt
  let d0 := if dt.width ≤ st.width then part * cnt else 0
  let r := fun k => conv (s0 + k) (laneElem st.width (s.vr a) ((s0 + k) / ns) ((s0 + k) % ns)).toNat
  let on := fun n => (s.kr m).getLsbD n && decide (d0 ≤ n * nd ∧ n * nd < d0 + cnt)
  ∃ t, exec i s = .next t ∧ Ended s t 8 ∧
    (∀ fl, t.me.fpflags = s.me.fpflags ||| fl → OnlyRegs s t [] [d] [] (if kr = 0 then [] else [kr]) fl) ∧
    (∀ k, k < cnt → on ((d0 + k) / nd) = true →
      laneElem dt.width (t.vr d) ((d0 + k) / nd) ((d0 + k) % nd) = .ofNat dt.width (r k).code) ∧
    (∀ n : Fin 64, (on n = false → (t.vr d)[n] = (s.vr d)[n] ∧ (t.vPois d).getLsbD n = (s.vPois d).getLsbD n) ∧
      (on n = true → ((t.vPois d).getLsbD n = true ↔
        ∃ k, k < cnt ∧ (d0 + k) / nd = n ∧ ((s.vPois a).getLsbD ((s0 + k) / ns) = true ∨ pois (s0 + k) = true)))) ∧
    (∀ b, b < 5 → (t.me.fpflags.getLsbD b = true ↔ s.me.fpflags.getLsbD b = true ∨
      ∃ k, k < cnt ∧ on ((d0 + k) / nd) = true ∧ (r k).flags.getLsbD b = true)) ∧
    (kr ≠ 0 → ∀ n, n < 64 → ((t.kr kr).getLsbD n = true ↔
      on n = true ∧ ∃ k, k < cnt ∧ (d0 + k) / nd = n ∧ (r k).sat = true))

/-! ### Steps of the machine -/

/-- No byte of memory and no poison has changed. -/
def SameMem (s t : State) : Prop := t.dev = s.dev ∧ t.host = s.host ∧ t.tiles = s.tiles

/-- A home in this package, or the host, that answers (R366, R369, R383). -/
def State.homeUp (s : State) (p : Place) : Prop :=
  match p with
  | .dev a => s.cxlLost a = false
  | .host _ => True
  | .tile a => s.scratchUp (a / 2 ^ 24) = true
  | .remote _ _ => False

/-! ### Steps of a ring's unit (R246 to R271) -/

/-- The unit of ring `n` reaches virtual address `va` at address `a` of device memory, which answers, where device
memory holds `d` (R246, R329). -/
def State.ringReaches (s : State) (n : Nat) (acc : Acc) (va : Word) (a : Nat) (d : Mem) : Prop :=
  s.cxlLost a = false ∧ ∃ pin, ({ s with dev := d } : State).ringPlace n acc va = .ok (.dev a, pin)

/-- The ring block of ring `n` lies in device memory, its bytes at `k` on (R270). -/
def State.blockAt (s : State) (n k : Nat) : Prop :=
  ∀ off, off < 0x380 → ∃ a, s.storeAddr a = k + off ∧ ∀ d,
    s.ringReaches n .load (s.ringBlock n off) a d ∧ s.ringReaches n .store (s.ringBlock n off) a d

/-- The header slot that a ring's next header takes (R266). -/
def State.headerSlot (s : State) (n : Nat) : Word :=
  (s.ring n 10 &&& bitsMask 63 6) + num (64 * (fieldOf (s.ring n 11) 31 0 % 2 ^ fieldOf (s.ring n 10) 5 0))

/-- A step of ring `n`'s unit, which leaves it as `v`: device memory, the rings' registers and the counts of the model's
own fields `hot` (R370) and `free` aside, nothing else has changed. -/
structure RingStep (s t : State) (n : Nat) (regs : List (Nat × Word)) (d : Mem) (v : RingUnit) : Prop where
  rest : t = { s with dev := d, ringRegs := regs, rings := t.rings, hot := t.hot, free := t.free }
  unit : t.unit? n = some v
  units : ∀ m, m ≠ n → t.unit? m = s.unit? m

/-- An 8-byte counter at `a` that has gone up (R270). -/
def Mem.counted (d : Mem) (a by_ : Nat) : Mem := d.store a (bytesOf 8 (((d.readWord a 8).toNat + by_) % 2 ^ 64)) false

/-- A gap of `g` samples from `first` in the gap log and in the counts of the ring block at `k` (R251, R270, R271). -/
def Mem.gapLogged (d : Mem) (k first g reason : Nat) : Mem :=
  let log := (d.readWord (k + 0x178) 8).toNat
  let entry := d.store (k + 0x280 + 16 * (log / 2 ^ 32 % 16)) (bytesOf 8 (first + 2 ^ 48 * reason) ++ bytesOf 8 g) false
  ((entry.store (k + 0x178) (bytesOf 8 (log % 2 ^ 32 + (log / 2 ^ 32 + 1) % 2 ^ 32 * 2 ^ 32)) false).counted
    (k + 0x140) 1).counted (k + 0x148) g

/-- Claim `c` of ring `n` closed as a record that ends at `last`: its header stands at `a` in device memory and nothing
else there has changed, PROD has advanced, and the record is among the closed ones (R266). -/
structure HeaderWritten (s t : State) (n : Nat) (u : RingUnit) (c : Claim) (last a : Nat) : Prop where
  step : RingStep s t n (s.setRing n 11 (withField (s.ring n 11) 31 0 (fieldOf (s.ring n 11) 31 0 + 1))).ringRegs
    (s.dev.store a (c.header n last u.seq (s.rgSize n) (2 ^ fieldOf (s.ring n 9) 5 0) (s.rgSplit n)) false)
    { u with
      seq := u.seq + 1
      claims := u.claims.filter fun d => d.id != c.id
      closed := ⟨c.first, last, u.seq, c.poisoned, c.truncated⟩ :: u.closed }
  mem : ∀ y, y < a ∨ a + 64 ≤ y → t.dev.read y = s.dev.read y

/-- The next sample that a ring's writer writes: a pending one, or zero and poisoned one of a gap of fewer than N
(R251); `left` stays pending. -/
def State.nextSample (s : State) (n : Nat) (u : RingUnit) (bs : List Byte) (p : Bool) (left : List Pending) : Prop :=
  u.pending = .sample bs p :: left ∨ ∃ g r rest, u.pending = .gap g r :: rest ∧ g < s.rgN n ∧
    bs = List.replicate (s.rgSize n) 0 ∧ p = true ∧ left = if g ≤ 1 then rest else .gap (g - 1) r :: rest

/-- RING_FAULT of ring `n` at `a` (R246): EN is cleared, the unit stops with nothing queued, held or pending, its
keep-copies end, and RING goes to the ring's partition; HEAD, PROD and memory stay. -/
def RingFaults (s : State) (n : Nat) (u : RingUnit) (a : Word) : Prop :=
  ∃ t : State, exec (.ringFault n) s = .next (t.faultRecord (s.barField (rngown n) 59 56) Cause.ring 0 a) ∧
    t = { s with
      rings := t.rings
      pageFailed := t.pageFailed
      ringRegs := (s.setRing n 0 (withBit (s.ring n 0) 63 false)).ringRegs
      jobs := s.jobs.map fun j => if j.keepsFor n then { j with abort := true } else j } ∧
    t.unit? n = some { u with stopping := true, holds := [], queues := [[], [], [], []], pending := [], due := [] } ∧
    ∀ m, m ≠ n → t.unit? m = s.unit? m

end Sys2Proof.Machine
end

