-- ==== Sys2Proof/WellFormed.lean ====
section
/-!
DEFINITION. WellFormed.lean: what an instruction must satisfy beyond its types for some word to hold it: the
limits of R106, R108, R128 to R130 and of each instruction's own description.
-/

namespace Sys2Proof

/-- Orders of a load (R54). -/
def Order.loadOk : Order → Bool
  | .plain | .acquire => true
  | .release | .acqRel => false

/-- Orders of a store, a transfer, a copy command or a ring item (R54). -/
def Order.storeOk : Order → Bool
  | .plain | .release => true
  | .acquire | .acqRel => false

/-- Orders of an atomic: all four (R54). -/
def Order.atomOk : Order → Bool := fun _ => true

/-- No load sign-extends 64 bits (R127). -/
def LdOp.wf (o : LdOp) : Bool := o.md.order.loadOk && !(o.sext && o.size == .s64)
def TldOp.wf (o : TldOp) : Bool := o.md.order.loadOk && !(o.sext && o.size == .s64)

/-- FCVTW to f64 is exact and names no rounding (R143, R145). -/
def F2.widensExactly (o : F2) : Bool := o.fw == .f32 || o.rnd == .rne

def matPairOk (ta tb : MatType) : Bool := ta.group == tb.group
def scaledPairOk (ta tb : MatType) : Bool := matPairOk ta tb && (ta.group == 1 || ta.group == 2)

/-- The type pairs, .sat and COL of ZST (R202). -/
def ZstOp.wf (o : ZstOp) : Bool :=
  (zstDests o.st.toBits).getLsbD o.dt.toBits.toNat && (!o.sat || zstSat o.st.toBits o.dt.toBits) &&
    colOk o.dt.toBits o.col

/-- The destinations, .sat and COL of ZSTS (R203). -/
def ZstsOp.wf (o : ZstsOp) : Bool :=
  zstsDests.getLsbD o.dt.toBits.toNat && (!o.sat || zstSat 0x8#4 o.dt.toBits) && colOk o.dt.toBits o.col

/-- ZBIAS takes .f32, or .i32 with no rounding (R201). -/
def ZbiasOp.wf (o : ZbiasOp) : Bool := o.t == .f32 || (o.t == .i32 && o.rnd == .rne)

def SendOp.wf (o : SendOp) : Bool := o.md.order.storeOk && sendLenOk o.n

/-- A record pair begins at an even register (R237). -/
def pairOk (r : XReg) : Bool := !r[0]
def TrgOp.wf (o : TrgOp) : Bool := o.md.order.storeOk && pairOk o.a
def TrgrejOp.wf (o : TrgrejOp) : Bool := o.md.order.storeOk && pairOk o.a

/-- Only the f32 sum rounds (R172). -/
def redRndOk (op : RedOp) (t : RedElem) (r : Rnd) : Bool := (op == .add && t == .f32) || r == .rne

/-- The limits of VCVT and VCVTSC (R168, R169). -/
def cvtWf (dt st : ElemType) (sat : Bool) (part : BitVec 3) : Bool :=
  (!sat || satDest dt.toBits) && decide (part.toNat < cvtRatio dt st)

/-- The types a vector integer function accepts (R165). -/
def IntElem.inMask (t : IntElem) (m : BitVec 16) : Bool := m.getLsbD t.toBits.toNat

/-- Well-formed: the guard can execute, and the operands are within the limits of the instruction. A step of
the machine carries nothing to check here; whether it may be taken is decided when it is. -/
def Instr.wf : Instr → Bool
  | .nop g => g.ok
  | .trap g _ => g.ok
  | .brk g => g.ok
  | .eret g => g.ok
  | .srd g _ => g.ok
  | .swr g _ => g.ok
  | .fence g _ => g.ok
  | .fencer g _ => g.ok
  | .chk g _ => g.ok
  | .chkv g _ => g.ok
  | .roinv g => g.ok
  | .tlbi g _ => g.ok
  | .waiti g _ => g.ok
  | .jmp g _ => g.ok
  | .call g _ => g.ok
  | .jr g _ => g.ok
  | .callr g _ => g.ok
  | .ret g _ => g.ok
  | .movl g _ => g.ok
  | .add g _ => g.ok
  | .sub g _ => g.ok
  | .and g _ => g.ok
  | .or g _ => g.ok
  | .xor g _ => g.ok
  | .andn g _ => g.ok
  | .orn g _ => g.ok
  | .shl g _ => g.ok
  | .shr g _ => g.ok
  | .sar g _ => g.ok
  | .rol g _ => g.ok
  | .ror g _ => g.ok
  | .mul g _ => g.ok
  | .mulh g _ => g.ok
  | .mulhn g _ => g.ok
  | .madd g _ => g.ok
  | .div g _ => g.ok
  | .divn g _ => g.ok
  | .rem g _ => g.ok
  | .remn g _ => g.ok
  | .min g _ => g.ok
  | .max g _ => g.ok
  | .minn g _ => g.ok
  | .maxn g _ => g.ok
  | .sel g _ => g.ok
  | .clz g _ => g.ok
  | .ctz g _ => g.ok
  | .pop g _ => g.ok
  | .brev g _ => g.ok
  | .bswap g _ => g.ok
  | .sext g _ => g.ok
  | .zext g _ => g.ok
  | .bfx g _ => g.ok
  | .bfi g _ => g.ok
  | .iopiAdd g _ => g.ok
  | .iopiAnd g _ => g.ok
  | .iopiOr g _ => g.ok
  | .iopiXor g _ => g.ok
  | .iopiShl g _ => g.ok
  | .iopiShr g _ => g.ok
  | .iopiSar g _ => g.ok
  | .iopiRol g _ => g.ok
  | .iopiRor g _ => g.ok
  | .iopiMul g _ => g.ok
  | .iopiMin g _ => g.ok
  | .iopiMax g _ => g.ok
  | .iopiMinn g _ => g.ok
  | .iopiMaxn g _ => g.ok
  | .iopiSext g _ => g.ok
  | .iopiZext g _ => g.ok
  | .iopiBfx g o => g.ok && decide (o.n ≤ 64#7)
  | .iopiBfi g o => g.ok && decide (o.n ≤ 64#7)
  | .cmpEq g o => g.ok && (o.d != 0)
  | .cmpNe g o => g.ok && (o.d != 0)
  | .cmpLt g o => g.ok && (o.d != 0)
  | .cmpGe g o => g.ok && (o.d != 0)
  | .cmpLe g o => g.ok && (o.d != 0)
  | .cmpGt g o => g.ok && (o.d != 0)
  | .cmpLtn g o => g.ok && (o.d != 0)
  | .cmpGen g o => g.ok && (o.d != 0)
  | .cmpLen g o => g.ok && (o.d != 0)
  | .cmpGtn g o => g.ok && (o.d != 0)
  | .cmpTst g o => g.ok && (o.d != 0)
  | .cmpNtst g o => g.ok && (o.d != 0)
  | .cmpiEq g o => g.ok && (o.d != 0)
  | .cmpiNe g o => g.ok && (o.d != 0)
  | .cmpiLt g o => g.ok && (o.d != 0)
  | .cmpiGe g o => g.ok && (o.d != 0)
  | .cmpiLe g o => g.ok && (o.d != 0)
  | .cmpiGt g o => g.ok && (o.d != 0)
  | .cmpiLtn g o => g.ok && (o.d != 0)
  | .cmpiGen g o => g.ok && (o.d != 0)
  | .cmpiLen g o => g.ok && (o.d != 0)
  | .cmpiGtn g o => g.ok && (o.d != 0)
  | .cmpiTst g o => g.ok && (o.d != 0)
  | .cmpiNtst g o => g.ok && (o.d != 0)
  | .movw g _ => g.ok
  | .movk g _ => g.ok
  | .lea g _ => g.ok
  | .pand g o => g.ok && (o.d != 0)
  | .por g o => g.ok && (o.d != 0)
  | .pxor g o => g.ok && (o.d != 0)
  | .pandn g o => g.ok && (o.d != 0)
  | .pnot g o => g.ok && (o.d != 0)
  | .psetx g _ => g.ok
  | .xgetp g _ => g.ok
  | .fadd g _ => g.ok
  | .fsub g _ => g.ok
  | .fmul g _ => g.ok
  | .ffma g _ => g.ok
  | .fdiv g _ => g.ok
  | .fsqrt g _ => g.ok
  | .fmin g _ => g.ok
  | .fmax g _ => g.ok
  | .fabs g _ => g.ok
  | .fneg g _ => g.ok
  | .fcvti g _ => g.ok
  | .fcvtf g _ => g.ok
  | .fcvtw g o => g.ok && o.widensExactly
  | .fclass g _ => g.ok
  | .feq g o => g.ok && (o.d != 0)
  | .flt g o => g.ok && (o.d != 0)
  | .fle g o => g.ok && (o.d != 0)
  | .fun_ g o => g.ok && (o.d != 0)
  | .ld g o => g.ok && o.wf
  | .st g o => g.ok && o.md.order.storeOk
  | .atomXchg g _ => g.ok
  | .atomCas g _ => g.ok
  | .atomAdd g _ => g.ok
  | .atomAnd g _ => g.ok
  | .atomOr g _ => g.ok
  | .atomXor g _ => g.ok
  | .atomMin g _ => g.ok
  | .atomMax g _ => g.ok
  | .atomMinn g _ => g.ok
  | .atomMaxn g _ => g.ok
  | .atomFadd g _ => g.ok
  | .atomFmin g _ => g.ok
  | .atomFmax g _ => g.ok
  | .atomIncw g _ => g.ok
  | .atomDecw g _ => g.ok
  | .vld g o => g.ok && o.md.order.loadOk
  | .vlds g o => g.ok && o.md.order.loadOk
  | .vldb g o => g.ok && o.md.order.loadOk
  | .vst g o => g.ok && o.md.order.storeOk
  | .vsts g o => g.ok && o.md.order.storeOk
  | .vgather g o => g.ok && o.md.order.loadOk
  | .vscatter g o => g.ok && o.md.order.storeOk
  | .vscadd g o => g.ok && o.md.order.atomOk
  | .prefetchDc g _ => g.ok
  | .prefetchCs g _ => g.ok
  | .tld g o => g.ok && o.wf
  | .tldv g o => g.ok && o.md.order.loadOk
  | .tldvs g o => g.ok && o.md.order.loadOk
  | .tst g o => g.ok && o.md.order.storeOk
  | .tstv g o => g.ok && o.md.order.storeOk
  | .tstvs g o => g.ok && o.md.order.storeOk
  | .mma g o => g.ok && (matPairOk o.ta o.tb)
  | .mmaReg g o => g.ok && (matPairOk o.ta o.tb)
  | .mmas g o => g.ok && (scaledPairOk o.ta o.tb)
  | .mmasReg g o => g.ok && (scaledPairOk o.ta o.tb)
  | .zzero g _ => g.ok
  | .zld g _ => g.ok
  | .zst g o => g.ok && o.wf
  | .zsts g o => g.ok && o.wf
  | .zbias g o => g.ok && o.wf
  | .tarm g o => g.ok && (o.n != 0)
  | .twait g o => g.ok && (o.d != 0)
  | .ttake g _ => g.ok
  | .tstat g _ => g.ok
  | .tmark g _ => g.ok
  | .tpois g _ => g.ok
  | .tscls g _ => g.ok
  | .tsclg g _ => g.ok
  | .tzero g _ => g.ok
  | .tsend g o => g.ok && o.wf
  | .tsendv g o => g.ok && o.md.order.storeOk
  | .tsendx g o => g.ok && o.md.order.storeOk
  | .tnote g o => g.ok && o.md.order.storeOk
  | .hfork g _ => g.ok
  | .hjoin g _ => g.ok
  | .hjoina g _ => g.ok
  | .hwait g _ => g.ok
  | .hpass g _ => g.ok
  | .hrecv g _ => g.ok
  | .hcnt g _ => g.ok
  | .barinit g _ => g.ok
  | .bararr g _ => g.ok
  | .bararx g _ => g.ok
  | .barexp g _ => g.ok
  | .barwait g _ => g.ok
  | .bartry g o => g.ok && (o.d != 0)
  | .barinv g _ => g.ok
  | .spawn g o => g.ok && (o.d != 0)
  | .exit g => g.ok
  | .yield g => g.ok
  | .park g _ => g.ok
  | .cpygo g o => g.ok && o.md.order.storeOk
  | .cpystat g _ => g.ok
  | .cpyabort g _ => g.ok
  | .layset g _ => g.ok
  | .layget g _ => g.ok
  | .rgput g o => g.ok && o.md.order.storeOk
  | .rgread g o => g.ok && (o.n != 0)
  | .rgpos g _ => g.ok
  | .trgnext g o => g.ok && (pairOk o.d && o.d != 0)
  | .trgfwd g o => g.ok && o.wf
  | .trgacc g o => g.ok && o.wf
  | .trgrej g o => g.ok && o.wf
  | .trgmark g o => g.ok && o.md.order.storeOk
  | .vadd g _ => g.ok
  | .vsub g _ => g.ok
  | .vmul g _ => g.ok
  | .vmulh g _ => g.ok
  | .vmadd g _ => g.ok
  | .vand g _ => g.ok
  | .vor g _ => g.ok
  | .vxor g _ => g.ok
  | .vshl g _ => g.ok
  | .vshr g _ => g.ok
  | .vsar g _ => g.ok
  | .vmin g _ => g.ok
  | .vmax g _ => g.ok
  | .vabs g o => g.ok && (o.t.inMask 0x15#16)
  | .vneg g o => g.ok && (o.t.inMask 0x15#16)
  | .vadds g _ => g.ok
  | .vsubs g _ => g.ok
  | .vpop g _ => g.ok
  | .vclz g _ => g.ok
  | .vdot4 g o => g.ok && (o.t.inMask 0x3#16)
  | .vsel g _ => g.ok
  | .vfadd g _ => g.ok
  | .vfsub g _ => g.ok
  | .vfmul g _ => g.ok
  | .vffma g _ => g.ok
  | .vffms g _ => g.ok
  | .vfmin g _ => g.ok
  | .vfmax g _ => g.ok
  | .vfabs g _ => g.ok
  | .vfneg g _ => g.ok
  | .vfdiv g _ => g.ok
  | .vfsqrt g _ => g.ok
  | .vfrcp g _ => g.ok
  | .vfrsq g _ => g.ok
  | .vfexp2 g _ => g.ok
  | .vflog2 g _ => g.ok
  | .vfscl g _ => g.ok
  | .vcvt g o => g.ok && (cvtWf o.dt o.st o.sat o.part)
  | .vcvtsc g o => g.ok && (cvtWf o.dt o.st o.sat o.part)
  | .vperm g _ => g.ok
  | .vbcast g _ => g.ok
  | .vins g _ => g.ok
  | .vext g _ => g.ok
  | .vred g o => g.ok && (redRndOk o.op o.t o.rnd)
  | .vscan g o => g.ok && (redRndOk o.op o.t o.rnd)
  | .vcomp g _ => g.ok
  | .vexpd g _ => g.ok
  | .vslide g _ => g.ok
  | .vcmpEq g o => g.ok && (o.d != 0)
  | .vcmpNe g o => g.ok && (o.d != 0)
  | .vcmpLt g o => g.ok && (o.d != 0)
  | .vcmpGe g o => g.ok && (o.d != 0)
  | .vcmpLe g o => g.ok && (o.d != 0)
  | .vcmpGt g o => g.ok && (o.d != 0)
  | .vcmpLtn g o => g.ok && (o.d != 0)
  | .vcmpGen g o => g.ok && (o.d != 0)
  | .vcmpLen g o => g.ok && (o.d != 0)
  | .vcmpGtn g o => g.ok && (o.d != 0)
  | .vcmpTst g o => g.ok && (o.d != 0)
  | .vcmpNtst g o => g.ok && (o.d != 0)
  | .vcmpFeq g o => g.ok && (o.d != 0)
  | .vcmpFlt g o => g.ok && (o.d != 0)
  | .vcmpFle g o => g.ok && (o.d != 0)
  | .vcmpFun g o => g.ok && (o.d != 0)
  | .vrand g _ => g.ok
  | .vmov g _ => g.ok
  | .vmovi g _ => g.ok
  | .viota g _ => g.ok
  | .kand g o => g.ok && (o.d != 0)
  | .kor g o => g.ok && (o.d != 0)
  | .kxor g o => g.ok && (o.d != 0)
  | .knot g o => g.ok && (o.d != 0)
  | .ksetx g o => g.ok && (o.d != 0)
  | .kgetx g _ => g.ok
  | .kpop g _ => g.ok
  | .vbdot g _ => g.ok
  | .vbdots g _ => g.ok
  | .storePerform _ _ => true
  | .loadPerform _ _ _ _ => true
  | .atomicPerform _ _ _ => true
  | .transferPerform _ _ => true
  | .tagItemPerform _ _ => true
  | .barrierItemPerform _ _ => true
  | .copyCommandPerform _ _ => true
  | .ringItemPerform _ _ _ => true
  | .gate _ _ => true
  | .uplink _ => true
  | .fabric _ _ => true
  | .fill _ _ => true
  | .drop _ _ => true
  | .deliver _ _ => true
  | .waitEnd _ _ => true
  | .timedWaitExpiry _ => true
  | .voteWindowExpiry _ => true
  | .voteBufferDiscard _ => true
  | .eventTaken _ => true
  | .deferredPoison _ => true
  | .instructionFetchFault _ => true
  | .pageWalkEnd _ _ => true
  | .crewPlacement _ _ => true
  | .crewRetirement _ => true
  | .doneIncrement _ _ => true
  | .waitCounterCheck _ _ => true
  | .agingStep _ => true
  | .preempt _ => true
  | .quantumExpiry _ => true
  | .crewRestore _ _ => true
  | .hang _ _ => true
  | .resume _ _ _ => true
  | .kill _ _ _ => true
  | .teardown _ _ => true
  | .teardownDone _ => true
  | .dmwrSubmission _ => true
  | .seqWrite _ _ _ _ => true
  | .bar4Access _ _ _ _ => true
  | .wqcfgWrite _ _ _ => true
  | .pdcfgWrite _ _ _ => true
  | .registerWrite _ _ _ => true
  | .xlinv _ _ => true
  | .xlinvDone => true
  | .assign _ _ _ => true
  | .release _ _ => true
  | .releaseEvictDone _ => true
  | .releaseEngineTimeout _ => true
  | .releaseDrainDone _ => true
  | .mrbaseWrite _ _ _ => true
  | .wncfgWrite _ _ _ _ => true
  | .cxdcfgWrite _ _ _ => true
  | .linkTrained _ => true
  | .packetReceived _ _ => true
  | .packetCrcFail _ => true
  | .linkRetrain _ _ => true
  | .remoteTimeout _ => true
  | .cxlPortDown _ => true
  | .hpcfgWrite _ _ => true
  | .hotPagePeriodEnd => true
  | .atsTranslationCompletion _ _ => true
  | .pageRequestResponse _ _ => true
  | .atsInvalidateRequest _ _ _ _ => true
  | .invalidateCompletion _ => true
  | .hostAtomicopError _ _ => true
  | .jobStart _ _ => true
  | .elementOperation _ _ _ _ => true
  | .completionAction _ _ _ => true
  | .rowstreamReservation _ _ => true
  | .rowstreamIdleRelease _ => true
  | .slotTableWrite _ _ _ _ _ => true
  | .ringEnable _ => true
  | .ringDisable _ => true
  | .ringFault _ => true
  | .frameReceived _ _ => true
  | .frameBufferDrop _ _ => true
  | .sampleWrite _ => true
  | .headDelivery _ => true
  | .vacancyNotice _ _ => true
  | .claimClose _ _ => true
  | .keepCopySubmit _ _ _ => true
  | .keepCopyFault _ _ => true
  | .qreqRise _ => true
  | .qreqClear _ => true
  | .save _ => true
  | .restore _ => true
  | .clkenClear _ => true
  | .clkenSet _ => true
  | .railOff _ => true
  | .railOn _ => true
  | .wake _ _ => true
  | .wakeClr _ _ => true
  | .quiesceDrainComplete _ => true
  | .quiesceJobLimit _ _ => true
  | .saveDone _ => true
  | .restoreDone _ => true
  | .powerGood _ => true
  | .rampTimeout _ => true
  | .initDone _ => true
  | .railFault _ => true
  | .controlFault _ => true
  | .errcfgWrite _ _ => true
  | .mapoutGo _ _ _ => true
  | .vacated _ _ => true
  | .mapoutSwitch _ => true
  | .patrolScrub _ _ _ _ => true
  | .powerUp => true
  | .bringupStepDone _ _ => true
  | .getVersion _ => true
  | .getCapabilities _ => true
  | .negotiateAlgorithms _ => true
  | .getDigests _ => true
  | .getCertificate _ => true
  | .challenge _ => true
  | .getMeasurements _ => true
  | .powerSample _ _ => true
  | .thermalShutdown => true
  | .matrixInstructionComplete _ => true
  | .controllerEvaluation _ => true
  | .weltReplay _ _ _ => true
  | .cxlPortUp _ => true
  | .dieRailFault _ => true

end Sys2Proof
end

