-- ==== Sys2Proof/Certificates/Slice0/Obligations.lean ====
section
/-!
DEFINITION. Obligations.lean: the claims about the machine, for the provers.
-/

open Sys2Proof
open Sys2Proof.Machine

/-! ### Integer instructions (06) -/

/-- R134 to R137: IOP's arithmetic, each result given by integer arithmetic on the operands. -/
def Obligations.IntegerArithmetic : Prop :=
  Alu3w .add (fun n a b => .ofInt n (a.toInt + b.toInt)) ∧
  Alu3w .sub (fun n a b => .ofInt n (a.toInt - b.toInt)) ∧
  Alu3w .mul (fun n a b => .ofInt n (a.toInt * b.toInt)) ∧
  Alu3w .mulh (fun n a b => .ofInt n (a.toInt * b.toInt / 2 ^ n)) ∧
  Alu3w .mulhn (fun n a b => .ofNat n (a.toNat * b.toNat / 2 ^ n)) ∧
  Alu3w .div (fun n a b => if b = 0 then .ofInt n (-1) else .ofInt n (a.toInt.tdiv b.toInt)) ∧
  Alu3w .divn (fun n a b => if b = 0 then .ofInt n (-1) else .ofNat n (a.toNat / b.toNat)) ∧
  Alu3w .rem (fun n a b => if b = 0 then a else .ofInt n (a.toInt.tmod b.toInt)) ∧
  Alu3w .remn (fun n a b => if b = 0 then a else .ofNat n (a.toNat % b.toNat)) ∧
  Alu3w .min (fun n a b => .ofInt n (min a.toInt b.toInt)) ∧
  Alu3w .max (fun n a b => .ofInt n (max a.toInt b.toInt)) ∧
  Alu3w .minn (fun n a b => .ofNat n (min a.toNat b.toNat)) ∧
  Alu3w .maxn (fun n a b => .ofNat n (max a.toNat b.toNat)) ∧
  (∀ (s : State) (g : Guard) (o : X4w), s.cleared g [o.d, o.a, o.b, o.c] [] →
    let z := (s.xr o.a).toInt * (s.xr o.b).toInt + (s.xr o.c).toInt
    XDone (.madd g o) s 8 o.d (if o.w then (BitVec.ofInt 32 z).signExtend 64 else .ofInt 64 z)
      (s.xPois o.a || s.xPois o.b || s.xPois o.c) 0)

/-- R134 to R137: logic, shifts and rotations, the count taken modulo the width. -/
def Obligations.LogicAndShifts : Prop :=
  Alu3 .and (fun a b => a &&& b) ∧ Alu3 .or (fun a b => a ||| b) ∧ Alu3 .xor (fun a b => a ^^^ b) ∧
  Alu3 .andn (fun a b => a &&& ~~~b) ∧ Alu3 .orn (fun a b => a ||| ~~~b) ∧
  Alu3w .shl (fun n a b => .ofNat n (a.toNat * 2 ^ (b.toNat % n))) ∧
  Alu3w .shr (fun n a b => .ofNat n (a.toNat / 2 ^ (b.toNat % n))) ∧
  Alu3w .sar (fun n a b => .ofInt n (a.toInt / 2 ^ (b.toNat % n))) ∧
  Alu3w .rol (fun n a b => .ofNat n (a.toNat * 2 ^ (b.toNat % n) % 2 ^ n + a.toNat * 2 ^ (b.toNat % n) / 2 ^ n)) ∧
  Alu3w .ror (fun n a b =>
    .ofNat n (a.toNat / 2 ^ (b.toNat % n) + a.toNat % 2 ^ (b.toNat % n) * 2 ^ (n - b.toNat % n)))

/-- R134, R135, R137: bit counts and reversals, described bit by bit; SEL; extension and bit fields by position and
length, with positions taken modulo 64 and lengths bounded by 64. -/
def Obligations.BitFields : Prop :=
  Alu2w .clz (fun n a r => ∃ k, r = .ofNat n k ∧ k ≤ n ∧ (∀ i, n - k ≤ i → a.getLsbD i = false) ∧
    (k < n → a.getLsbD (n - 1 - k) = true)) ∧
  Alu2w .ctz (fun n a r => ∃ k, r = .ofNat n k ∧ k ≤ n ∧ (∀ i, i < k → a.getLsbD i = false) ∧
    (k < n → a.getLsbD k = true)) ∧
  Alu2w .pop (fun n a r => ∃ l : List Nat, r = .ofNat n l.length ∧ l.Nodup ∧
    ∀ i, i ∈ l ↔ i < n ∧ a.getLsbD i = true) ∧
  Alu2w .brev (fun n a r => ∀ i, i < n → r.getLsbD i = a.getLsbD (n - 1 - i)) ∧
  Alu2w .bswap (fun n a r => ∀ i j, i < n / 8 → j < 8 → r.getLsbD (8 * i + j) = a.getLsbD (8 * (n / 8 - 1 - i) + j)) ∧
  (∀ (s : State) (g : Guard) (o : SelOp), s.cleared g [o.d, o.a, o.b] [] →
    XDone (.sel g o) s 8 o.d (if s.cr o.k then s.xr o.a else s.xr o.b)
      (if s.cr o.k then s.xPois o.a else s.xPois o.b) 0) ∧
  Alu3 .sext (fun a b => .ofInt 64 ((a.setWidth (b.toNat % 64 + 1)).toInt)) ∧
  Alu3 .zext (fun a b => .ofNat 64 (a.toNat % 2 ^ (b.toNat % 64 + 1))) ∧
  (∀ (s : State) (g : Guard) (o : X4), s.cleared g [o.d, o.a, o.b, o.c] [] →
    XDone (.bfx g o) s 8 o.d
      (.ofNat 64 ((s.xr o.a).toNat / 2 ^ ((s.xr o.b).toNat % 64) % 2 ^ min (s.xr o.c).toNat 64))
      (s.xPois o.a || s.xPois o.b || s.xPois o.c) 0) ∧
  (∀ (s : State) (g : Guard) (o : X4) (r : Word), s.cleared g [o.d, o.d, o.a, o.b, o.c] [] →
    (∀ i, i < 64 → r.getLsbD i =
      if (s.xr o.b).toNat % 64 ≤ i ∧ i < (s.xr o.b).toNat % 64 + min (s.xr o.c).toNat 64
      then (s.xr o.a).getLsbD (i - (s.xr o.b).toNat % 64) else (s.xr o.d).getLsbD i) →
    XDone (.bfi g o) s 8 o.d r (s.xPois o.d || s.xPois o.a || s.xPois o.b || s.xPois o.c) 0)

/-- R136: the immediate forms compute as their register forms do, the immediate sign-extended. -/
def Obligations.IntegerImmediates : Prop :=
  AluIw .iopiAdd (fun n a b => .ofInt n (a.toInt + b.toInt)) ∧
  AluI .iopiAnd (fun a b => a &&& b) ∧ AluI .iopiOr (fun a b => a ||| b) ∧ AluI .iopiXor (fun a b => a ^^^ b) ∧
  AluIw .iopiShl (fun n a b => .ofNat n (a.toNat * 2 ^ (b.toNat % n))) ∧
  AluIw .iopiShr (fun n a b => .ofNat n (a.toNat / 2 ^ (b.toNat % n))) ∧
  AluIw .iopiSar (fun n a b => .ofInt n (a.toInt / 2 ^ (b.toNat % n))) ∧
  AluIw .iopiRol (fun n a b =>
    .ofNat n (a.toNat * 2 ^ (b.toNat % n) % 2 ^ n + a.toNat * 2 ^ (b.toNat % n) / 2 ^ n)) ∧
  AluIw .iopiRor (fun n a b =>
    .ofNat n (a.toNat / 2 ^ (b.toNat % n) + a.toNat % 2 ^ (b.toNat % n) * 2 ^ (n - b.toNat % n))) ∧
  AluIw .iopiMul (fun n a b => .ofInt n (a.toInt * b.toInt)) ∧
  AluIw .iopiMin (fun n a b => .ofInt n (min a.toInt b.toInt)) ∧
  AluIw .iopiMax (fun n a b => .ofInt n (max a.toInt b.toInt)) ∧
  AluIw .iopiMinn (fun n a b => .ofNat n (min a.toNat b.toNat)) ∧
  AluIw .iopiMaxn (fun n a b => .ofNat n (max a.toNat b.toNat)) ∧
  (∀ (s : State) (g : Guard) (o : ExtI), s.cleared g [o.d, o.a] [] →
    XDone (.iopiSext g o) s 8 o.d (.ofInt 64 (((s.xr o.a).setWidth (o.p.toNat + 1)).toInt)) (s.xPois o.a) 0 ∧
    XDone (.iopiZext g o) s 8 o.d (.ofNat 64 ((s.xr o.a).toNat % 2 ^ (o.p.toNat + 1))) (s.xPois o.a) 0) ∧
  (∀ (s : State) (g : Guard) (o : BfI), s.cleared g [o.d, o.a] [] →
    XDone (.iopiBfx g o) s 8 o.d (.ofNat 64 ((s.xr o.a).toNat / 2 ^ o.p.toNat % 2 ^ o.n.toNat)) (s.xPois o.a) 0) ∧
  (∀ (s : State) (g : Guard) (o : BfI) (r : Word), s.cleared g [o.d, o.d, o.a] [] →
    (∀ i, i < 64 → r.getLsbD i =
      if o.p.toNat ≤ i ∧ i < o.p.toNat + o.n.toNat then (s.xr o.a).getLsbD (i - o.p.toNat)
      else (s.xr o.d).getLsbD i) →
    XDone (.iopiBfi g o) s 8 o.d r (s.xPois o.d || s.xPois o.a) 0)

/-- R138, R139: the twelve conditions of CMP and CMPI, and the combination with the old condition; the
condition-register operations, of which PSETX and XGETP move all eight at once; c0 stays 1. -/
def Obligations.ComparesAndConditions : Prop :=
  Compares .cmpEq (fun _ a b => a = b) ∧ Compares .cmpNe (fun _ a b => a ≠ b) ∧
  Compares .cmpLt (fun _ a b => a.toInt < b.toInt) ∧ Compares .cmpGe (fun _ a b => b.toInt ≤ a.toInt) ∧
  Compares .cmpLe (fun _ a b => a.toInt ≤ b.toInt) ∧ Compares .cmpGt (fun _ a b => b.toInt < a.toInt) ∧
  Compares .cmpLtn (fun _ a b => a.toNat < b.toNat) ∧ Compares .cmpGen (fun _ a b => b.toNat ≤ a.toNat) ∧
  Compares .cmpLen (fun _ a b => a.toNat ≤ b.toNat) ∧ Compares .cmpGtn (fun _ a b => b.toNat < a.toNat) ∧
  Compares .cmpTst (fun _ a b => ∃ i, a.getLsbD i = true ∧ b.getLsbD i = true) ∧
  Compares .cmpNtst (fun _ a b => ∀ i, ¬(a.getLsbD i = true ∧ b.getLsbD i = true)) ∧
  ComparesI .cmpiEq (fun _ a b => a = b) ∧ ComparesI .cmpiNe (fun _ a b => a ≠ b) ∧
  ComparesI .cmpiLt (fun _ a b => a.toInt < b.toInt) ∧ ComparesI .cmpiGe (fun _ a b => b.toInt ≤ a.toInt) ∧
  ComparesI .cmpiLe (fun _ a b => a.toInt ≤ b.toInt) ∧ ComparesI .cmpiGt (fun _ a b => b.toInt < a.toInt) ∧
  ComparesI .cmpiLtn (fun _ a b => a.toNat < b.toNat) ∧ ComparesI .cmpiGen (fun _ a b => b.toNat ≤ a.toNat) ∧
  ComparesI .cmpiLen (fun _ a b => a.toNat ≤ b.toNat) ∧ ComparesI .cmpiGtn (fun _ a b => b.toNat < a.toNat) ∧
  ComparesI .cmpiTst (fun _ a b => ∃ i, a.getLsbD i = true ∧ b.getLsbD i = true) ∧
  ComparesI .cmpiNtst (fun _ a b => ∀ i, ¬(a.getLsbD i = true ∧ b.getLsbD i = true)) ∧
  (∀ (s : State) (g : Guard) (o : C3), s.guardOn g = true →
    CDone (.pand g o) s o.d (s.cr o.a = true ∧ s.cr o.b = true) 0 ∧
    CDone (.por g o) s o.d (s.cr o.a = true ∨ s.cr o.b = true) 0 ∧
    CDone (.pxor g o) s o.d (¬(s.cr o.a = true ↔ s.cr o.b = true)) 0 ∧
    CDone (.pandn g o) s o.d (s.cr o.a = true ∧ ¬ s.cr o.b = true) 0) ∧
  (∀ (s : State) (g : Guard) (o : C2), s.guardOn g = true → CDone (.pnot g o) s o.d (¬ s.cr o.a = true) 0) ∧
  (∀ (s : State) (g : Guard) (o : SrcX), s.cleared g [o.a] [] → s.xPois o.a = false →
    ∃ t, exec (.psetx g o) s = .next t ∧ Ended s t 8 ∧ OnlyRegs s t [] [] [1, 2, 3, 4, 5, 6, 7] [] 0 ∧
      ∀ c : CReg, t.cr c = (c == 0 || (s.xr o.a).getLsbD c.toNat)) ∧
  (∀ (s : State) (g : Guard) (o : DstX) (w : Word), s.cleared g [o.d] [] →
    (∀ i, i < 64 → w.getLsbD i = (decide (i < 8) && s.cr (.ofNat 3 i))) → XDone (.xgetp g o) s 8 o.d w false 0)

/-- R113, R141, R142: constants and addresses. -/
def Obligations.Constants : Prop :=
  (∀ (s : State) (g : Guard) (o : MovwOp), s.cleared g [o.d] [] →
    XDone (.movw g o) s 8 o.d (.ofNat 64 (o.imm.toNat * 2 ^ (16 * o.slice.toNat))) false 0) ∧
  (∀ (s : State) (g : Guard) (o : MovwOp) (w : Word), s.cleared g [o.d] [] →
    (∀ i, i < 64 → w.getLsbD i = if i / 16 = o.slice.toNat then o.imm.getLsbD (i % 16) else (s.xr o.d).getLsbD i) →
    XDone (.movk g o) s 8 o.d w (s.xPois o.d) 0) ∧
  (∀ (s : State) (g : Guard) (o : LeaOp), s.cleared g [o.d, o.a, o.b] [] →
    XDone (.lea g o) s 8 o.d
      (.ofInt 64 ((s.xr o.a).toInt + (s.xr o.b).toInt * 2 ^ o.sh.toNat + o.disp.toInt)) (s.xPois o.a || s.xPois o.b) 0) ∧
  (∀ (s : State) (g : Guard) (o : MovlOp), s.cleared g [o.d] [] → XDone (.movl g o) s 16 o.d o.lit false 0)

/-- R112, R148 to R150: jumps and calls; an unpoisoned aligned register is a target, and a link is PC + 8. -/
def Obligations.JumpsGo : Prop :=
  (∀ (s : State) (g : Guard) (o : JmpOp), s.guardOn g = true →
    Jumps (.jmp g o) s (.ofInt 64 (s.me.pc.toInt + 8 * o.off.toInt)) none) ∧
  (∀ (s : State) (g : Guard) (o : CallOp), s.cleared g [o.d] [] →
    Jumps (.call g o) s (.ofInt 64 (s.me.pc.toInt + 8 * o.off.toInt)) (some o.d)) ∧
  (∀ (s : State) (g : Guard) (o : SrcX), s.cleared g [o.a] [] → s.xPois o.a = false → (s.xr o.a).toNat % 8 = 0 →
    Jumps (.jr g o) s (s.xr o.a) none ∧ Jumps (.ret g o) s (s.xr o.a) none) ∧
  (∀ (s : State) (g : Guard) (o : X2), s.cleared g [o.d, o.a] [] → s.xPois o.a = false → (s.xr o.a).toNat % 8 = 0 →
    Jumps (.callr g o) s (s.xr o.a) (some o.d))

/-! ### Scalar floating point (03, 06) -/

/-- R143 to R146: FOP. The result is the code in the operation's width, the bits above it clear; FPFLAGS gains the
flags of the operation; the poison of the sources is joined. -/
def Obligations.ScalarFloatResults : Prop :=
  Fop3 .fadd fAdd ∧ Fop3 .fsub fSub ∧ Fop3 .fmul fMul ∧ Fop3 .fdiv fDiv ∧
  Fop2 .fsqrt (fun w m s a => fSqrt (fmtOf w) m (s.fr w a)) ∧
  Fop2 .fcvtw (fun w m s a =>
    let v : FWidth := if w = .f32 then .f64 else .f32
    roundTo (fmtOf w) m false ((fmtOf v).decode (s.fr v a))) ∧
  (∀ (s : State) (g : Guard) (o : F4), s.cleared g [o.d, o.a, o.b, o.c] [] →
    let r := fFma (fmtOf o.fw) (s.mode o.rnd) (s.fr o.fw o.a) (s.fr o.fw o.b) (s.fr o.fw o.c)
    XDone (.ffma g o) s 8 o.d (.ofNat 64 r.code) (s.xPois o.a || s.xPois o.b || s.xPois o.c) r.flags) ∧
  (∀ (s : State) (g : Guard) (o : F3n), s.cleared g [o.d, o.a, o.b] [] →
    (let r := fMinMax (fmtOf o.fw) false (s.fr o.fw o.a) (s.fr o.fw o.b)
     XDone (.fmin g o) s 8 o.d (.ofNat 64 r.code) (s.xPois o.a || s.xPois o.b) r.flags) ∧
    (let r := fMinMax (fmtOf o.fw) true (s.fr o.fw o.a) (s.fr o.fw o.b)
     XDone (.fmax g o) s 8 o.d (.ofNat 64 r.code) (s.xPois o.a || s.xPois o.b) r.flags)) ∧
  (∀ (s : State) (g : Guard) (o : F2n) (r : Word), s.cleared g [o.d, o.a] [] →
    ((∀ i, i < 64 → r.getLsbD i = (decide (i + 1 < (fmtOf o.fw).width) && (s.xr o.a).getLsbD i)) →
      XDone (.fabs g o) s 8 o.d r (s.xPois o.a) 0) ∧
    ((∀ i, i < 64 → r.getLsbD i = (decide (i < (fmtOf o.fw).width) &&
        ((s.xr o.a).getLsbD i != decide (i + 1 = (fmtOf o.fw).width)))) →
      XDone (.fneg g o) s 8 o.d r (s.xPois o.a) 0)) ∧
  (∀ (s : State) (g : Guard) (o : F2n), s.cleared g [o.d, o.a] [] →
    XDone (.fclass g o) s 8 o.d (.ofNat 64 (fClass (fmtOf o.fw) (s.fr o.fw o.a))) (s.xPois o.a) 0) ∧
  (∀ (s : State) (g : Guard) (o : FcvtOp), s.cleared g [o.d, o.a] [] →
    (let r := toIntType (intWidthSigned o.it) (intWidthBits o.it) (s.mode o.rnd) false
      ((fmtOf o.fw).decode (s.fr o.fw o.a))
     XDone (.fcvti g o) s 8 o.d
      (if o.it = .i32 then (BitVec.ofNat 32 r.code).signExtend 64 else .ofNat 64 r.code) (s.xPois o.a) r.flags) ∧
    (let n := intWidthBits o.it
     let z : Int := if intWidthSigned o.it then ((s.xr o.a).setWidth n).toInt else ((s.xr o.a).setWidth n).toNat
     let r := roundTo (fmtOf o.fw) (s.mode o.rnd) false (.ofInt z)
     XDone (.fcvtf g o) s 8 o.d (.ofNat 64 r.code) (s.xPois o.a) r.flags))

/-- R138, R147: FEQ, FLT, FLE and FUN; a NaN compares unordered. -/
def Obligations.FloatCompares : Prop :=
  FCompares .feq (fun x y => x.isNan = false ∧ y.isNan = false ∧ ltVal x y = false ∧ ltVal y x = false) false ∧
  FCompares .flt (fun x y => x.isNan = false ∧ y.isNan = false ∧ ltVal x y = true) false ∧
  FCompares .fle (fun x y => x.isNan = false ∧ y.isNan = false ∧ ltVal y x = false) false ∧
  FCompares .fun_ (fun x y => x.isNan = true ∨ y.isNan = true) true

/-- R81, R85: a result that is exact is returned unchanged in every mode, and raises nothing; of the two multiples of
a power of two around an exact value, .rtz takes the lower, .rdn and .rup the one toward their infinity, and .rne the
nearer, with the even one on a tie. An arithmetic operation with a NaN operand returns the canonical NaN, and sets
INVALID exactly where an operand is a signalling NaN. -/
def Obligations.RoundingAndNan : Prop :=
  (∀ (t : Fmt) (mode : RMode) (sat neg : Bool) (c m : Nat) (e : Int), c < 2 ^ t.width →
    t.decode c = .fin neg m e false → roundTo t mode sat (t.decode c) = ⟨c, 0, false⟩) ∧
  (∀ (neg : Bool) (m k : Nat) (e : Int), 0 < k →
    let lo := m / 2 ^ k
    let r := fun (mode : RMode) => (roundAt mode neg m e false (e + k)).1
    r .rtz = lo ∧
    r .rup = (if neg = false ∧ m % 2 ^ k ≠ 0 then lo + 1 else lo) ∧
    r .rdn = (if neg = true ∧ m % 2 ^ k ≠ 0 then lo + 1 else lo) ∧
    (r .rne = lo ∨ r .rne = lo + 1) ∧
    (2 * (m % 2 ^ k) < 2 ^ k → r .rne = lo) ∧ (2 ^ k < 2 * (m % 2 ^ k) → r .rne = lo + 1) ∧
    (2 * (m % 2 ^ k) = 2 ^ k → r .rne % 2 = 0)) ∧
  (∀ (t : Fmt) (mode : RMode) (a b : Nat), t ≠ .e2m1 → ((t.decode a).isNan = true ∨ (t.decode b).isNan = true) →
    ∀ r, r ∈ [fAdd t mode a b, fSub t mode a b, fMul t mode a b, fDiv t mode a b] →
      r.code = t.nanCode ∧ r.flags = if (t.decode a).isSig || (t.decode b).isSig then .invalid else 0)

/-! ### System instructions and traps (06, 16) -/

/-- R152: "NOP has no effect other than advancing PC. TRAP raises SOFTWARE with TRAP_INFO := ZeroExt(IMM16), and BRK
raises BREAK with TRAP_INFO := 0." Both are precise, and with INHANDLER 0
the strand enters its handler (R336). -/
def Obligations.TrapAndBreak : Prop :=
  ∀ (s : State) (g : Guard), s.guardOn g = true →
    Nothing (.nop g) s ∧
    (∀ o : TrapOp, Traps (.trap g o) s 0x0C 0 (o.code.setWidth 64)) ∧ Traps (.brk g) s 0x0D 0 0 ∧
    (s.me.inHandler = false → ∀ o : TrapOp,
      (∃ t, exec (.trap g o) s = .next t ∧ InHandler s t 0x0C 0 (o.code.setWidth 64)) ∧
      ∃ t, exec (.brk g) s = .next t ∧ InHandler s t 0x0D 0 0)

/-- R153, R336, R409: ERET returns to TRAP_PC at the saved level and clears INHANDLER; at program level it raises
PRIVILEGE. (PC takes TRAP_PC with bits 2:0 clear: log entry 12.) -/
def Obligations.ReturnFromTrap : Prop :=
  ∀ (s : State) (g : Guard), s.guardOn g = true →
    (s.me.level ≠ .program →
      ∃ t, exec (.eret g) s = .next t ∧ t.me.inHandler = false ∧
        (∀ i, t.me.pc.getLsbD i = (decide (3 ≤ i) && s.me.trapPc.getLsbD i)) ∧
        t.me.level = (if s.me.isInsole then .machine else
          match s.me.prev with | 0#2 => .program | 1#2 => .supervisor | _ => .machine) ∧
        t.me = { s.me with
          pc := t.me.pc, level := t.me.level, inHandler := false, issued := t.me.issued, wait := none
          counted := false } ∧
        t = { s with me := t.me } ∧
        ∀ a, t.dev.read a = s.dev.read a ∧ t.host.read a = s.host.read a ∧ t.tiles.read a = s.tiles.read a) ∧
    (s.me.level = .program → s.me.inHandler = false → ∃ t, exec (.eret g) s = .next t ∧ InHandler s t 0x02 0 0)

/-- R16, R151, R154: what is privileged raises PRIVILEGE below its level, with no effect; so does a read or write of a
system register above the strand's level: at program level one of 0x200 to 0x7FF, a write of a ring register too, and
at supervisor level a machine-level one, 0x400 to 0x7FF. -/
def Obligations.PrivilegeTraps : Prop :=
  ∀ (s : State) (g : Guard), s.me.level = .program → s.me.inHandler = false → s.me.isInsole = false →
    (∀ o : RangeOp, s.cleared g [o.a, o.b] [] → ∃ t, exec (.fencer g o) s = .next t ∧ InHandler s t 0x02 0 0) ∧
    (∀ o : TlbiOp, s.cleared g [o.a, o.b] [] → ∃ t, exec (.tlbi g o) s = .next t ∧ InHandler s t 0x02 0 0) ∧
    (∀ o : SrcX, s.cleared g [o.a] [] → ∃ t, exec (.waiti g o) s = .next t ∧ InHandler s t 0x02 0 0) ∧
    (∀ o : SrdOp, s.cleared g [o.d] [] → sysAssigned false o.n.toNat = true → 0x200 ≤ o.n.toNat → o.n.toNat < 0x800 →
      ∃ t, exec (.srd g o) s = .next t ∧ InHandler s t 0x02 0 0) ∧
    (∀ o : SwrOp, s.cleared g [o.a] [] → sysAssigned false o.n.toNat = true → 0x200 ≤ o.n.toNat →
      ∃ t, exec (.swr g o) s = .next t ∧ InHandler s t 0x02 0 0) ∧
    (∀ s : State, s.me.level = .supervisor → s.me.inHandler = false → s.me.isInsole = false →
      (∀ o : SrdOp, s.cleared g [o.d] [] → sysAssigned false o.n.toNat = true → 0x400 ≤ o.n.toNat →
        o.n.toNat < 0x800 → ∃ t, exec (.srd g o) s = .next t ∧ InHandler s t 0x02 0 0) ∧
      (∀ o : SwrOp, s.cleared g [o.a] [] → sysAssigned false o.n.toNat = true → 0x400 ≤ o.n.toNat →
        o.n.toNat < 0x800 → ∃ t, exec (.swr g o) s = .next t ∧ InHandler s t 0x02 0 0))

/-- R16, R18, R154, R323, R337, R379, R380, R404: SRD gives the register's value without poison, and changes no other
register. ISSUED counts the SRD itself; CYCLES is the core's count as it has grown by then, and IMEAS, in CPRAIL's bits
47:32, is what is measured now (free values: log entry 7). A controller whose writes are still to be evaluated answers
later: SRD completes, and X[D] is pending until then. -/
def Obligations.SystemReads : Prop :=
  ∀ (s : State) (g : Guard) (o : SrdOp), s.cleared g [o.d] [] → s.mayUse o.n.toNat false →
    let n := o.n.toNat
    let c := (n - 0x400) / 8
    let controller := 0x400 ≤ n ∧ n < 0x700
    (n ≠ 0x020 → n ≠ 0x021 → ¬controller → XDone (.srd g o) s 8 o.d (s.sysRead n) false 0) ∧
    (n = 0x021 → XDone (.srd g o) s 8 o.d (if s.me.counted then s.me.issued else s.me.issued + 1) false 0) ∧
    (controller → s.pulse? c = none ∨ o.d = 0 → n % 8 ≠ 3 →
      XDone (.srd g o) s 8 o.d (if s.ready (c / 12) then s.cp c (n % 8) else 0) false 0) ∧
    (n = 0x020 →
      ∃ t k, exec (.srd g o) s = .next t ∧ Ended s t 8 ∧ k < 2 ^ 32 ∧
        OnlyRegs { s with
          free := t.free
          cycles := mapSet 0 s.me.core (s.coreCycles s.me.core + .ofNat 64 k) s.cycles } t [o.d] [] [] [] 0 ∧
        t.xr o.d = (if o.d = 0 then 0 else t.coreCycles s.me.core) ∧ t.xPois o.d = false) ∧
    (controller → s.pulse? c = none ∨ o.d = 0 → n % 8 = 3 →
      ∃ t imeas, exec (.srd g o) s = .next t ∧ Ended s t 8 ∧ imeas ≤ 3200 ∧
        OnlyRegs { s with
          free := t.free
          cpRegs := if s.cpState c = 6 then s.cpRegs else (s.setCp c 3 (withField (s.cp c 3) 47 32 imeas)).cpRegs }
          t [o.d] [] [] [] 0 ∧
        t.xr o.d = (if o.d = 0 then 0 else if s.ready (c / 12) then t.cp c 3 else 0) ∧ t.xPois o.d = false) ∧
    (controller → (s.pulse? c).isSome = true → o.d ≠ 0 →
      Completes (.srd g o) s fun t => t.onMe fun m => { m with asked := m.asked ++ [(o.d, n)] })

/-- R154, R155, R19, R20, R323, R337: SWR of an unpoisoned register, by number. -/
def Obligations.SystemWrites : Prop :=
  ∀ (s : State) (g : Guard) (o : SwrOp), s.cleared g [o.a] [] → s.mayUse o.n.toNat true → s.xPois o.a = false →
    let w := s.xr o.a
    (o.n.toNat = 0x100 → Completes (.swr g o) s fun t => t.onMe fun m => { m with fpflags := w.setWidth 5 }) ∧
    (o.n.toNat = 0x101 → w.toNat % 8 ≤ 4 →
      Completes (.swr g o) s fun t => t.onMe fun m => { m with fpmode := w.setWidth 3 }) ∧
    (o.n.toNat = 0x102 → Completes (.swr g o) s fun t => t.onMe fun m =>
      { m with spawnCause := w.extractLsb' 4 4, spawnErr := w.getLsbD 0 }) ∧
    (o.n.toNat = 0x200 → Completes (.swr g o) s fun t => t.onMe fun m => { m with trapCause := w }) ∧
    (o.n.toNat = 0x201 → Completes (.swr g o) s fun t => t.onMe fun m => { m with trapPc := w }) ∧
    (o.n.toNat = 0x202 → Completes (.swr g o) s fun t => t.onMe fun m => { m with trapAddr := w }) ∧
    (o.n.toNat = 0x203 → Completes (.swr g o) s fun t => t.onMe fun m => { m with trapInfo := w }) ∧
    (o.n.toNat = 0x204 → w.toNat % 8 = 0 → Completes (.swr g o) s fun t =>
      if t.me.isInsole then t.onMe fun m => { m with trapVec := w } else t.setPart t.me.part 0x070 w) ∧
    (o.n.toNat = 0x205 → w.toNat % 4 < 2 ∨ (w.toNat % 4 = 2 ∧ s.me.isInsole = true) → Completes (.swr g o) s fun t => t.onMe fun m =>
      { m with prev := w.setWidth 2, async := w.getLsbD 2, inHandler := w.getLsbD 4, ovf := w.getLsbD 5 }) ∧
    (o.n.toNat = 0x206 → Completes (.swr g o) s fun t =>
      if t.me.isInsole then t.onMe fun m => { m with trapScratch := w } else t.setPart t.me.part 0x078 w) ∧
    (o.n.toNat = 0x208 → s.asidOwned w.toNat s.me.part = true → s.isVoted s.me = false ∨ s.asidHost w.toNat = false →
      Completes (.swr g o) s fun t => t.onMe fun m => { m with asid := w.setWidth 16 }) ∧
    (o.n.toNat = 0x209 → s.asidHost s.me.asid.toNat = false → w.toNat % 2 ^ 16 = 0 → w.toNat < hbmEnd →
      Completes (.swr g o) s fun t => t.setBar (asroot t.me.asid.toNat) w) ∧
    (o.n.toNat = 0x20A → Completes (.swr g o) s fun t => t.setPart t.me.part 0x028 (w &&& .ofNat 64 (2 ^ 48 - 1))) ∧
    (0x800 ≤ o.n.toNat → ∀ u, s.countIssue.ringWrite ((o.n.toNat - 0x800) / 16) (o.n.toNat % 16) w = some u →
      exec (.swr g o) s = .next (u.advance 8)) ∧
    (0x400 ≤ o.n.toNat → o.n.toNat < 0x700 → s.ready ((o.n.toNat - 0x400) / 96) = true →
      Completes (.swr g o) s (·.cpWrite ((o.n.toNat - 0x400) / 8) (o.n.toNat % 8) w)) ∧
    (0x400 ≤ o.n.toNat → o.n.toNat < 0x700 → s.ready ((o.n.toNat - 0x400) / 96) = false →
      Completes (.swr g o) s fun t => t) ∧
    (o.n.toNat = 0x101 → 4 < w.toNat % 8 → s.me.inHandler = false →
      ∃ t, exec (.swr g o) s = .next t ∧ InHandler s t 0x01 0 0) ∧
    (o.n.toNat = 0x205 → w.toNat % 4 = 3 → s.me.inHandler = false →
      ∃ t, exec (.swr g o) s = .next t ∧ InHandler s t 0x01 0 0)

/-- R156 to R159: a fence ends at once where what it waits for is performed at its scope, and acquires; CHK and CHKV
pass unpoisoned operands; ROINV drops the read-only copies of the core; TLBI drops the translations it names. -/
def Obligations.FencesAndChecks : Prop :=
  ∀ (s : State) (g : Guard),
    (∀ o : ScopeOp, s.guardOn g = true → s.allPerformed (s.earlierAll s.me) o.scope = true →
      Completes (.fence g o) s (·.acquireMe o.scope)) ∧
    (∀ o : RangeOp, s.cleared g [o.a, o.b] [] → s.me.level ≠ .program → s.xPois o.a = false → s.xPois o.b = false →
      s.allPerformed (s.overlapping (s.xr o.a) (s.xr o.b).toNat) o.scope = true →
      Completes (.fencer g o) s (·.acquireMe o.scope)) ∧
    (∀ o : SrcX, s.cleared g [o.a] [] → s.xPois o.a = false → Nothing (.chk g o) s) ∧
    (∀ o : ChkvOp, s.cleared g [] [o.a] →
      (∀ i, i < 64 → (s.kr o.m).getLsbD i = true → (s.vPois o.a).getLsbD i = false) → Nothing (.chkv g o) s) ∧
    (s.guardOn g = true → Completes (.roinv g) s (·.acquireMe .core)) ∧
    (∀ (o : TlbiOp) (r : Removed), s.cleared g [o.a, o.b] [] → s.me.level ≠ .program → s.me.isInsole = false →
      s.xPois o.a = false → s.xPois o.b = false → s.asidOwned ((s.xr o.b).toNat % 2 ^ 16) s.me.part = true →
      r = (match o.kind with
        | .page => .page ((s.xr o.b).toNat % 2 ^ 16) (s.xr o.a)
        | .space => .space ((s.xr o.b).toNat % 2 ^ 16)
        | .all => .all s.me.part) →
      (s.remove r).2 = ([], []) →
      Completes (.tlbi g o) s (fun t => (t.remove r).1) ∧
      ∀ l ∈ (s.remove r).1.tlb, l ∈ s.tlb ∧ s.removes r l.asid l.va l.size = false)

/-- R138, R139, R147, R150, R157: a poisoned operand of a compare or of a jump raises POISON, a misaligned target
MISALIGN with the target; CHK and CHKV of poison raise POISON, CHKV with the lowest poisoned unmasked lane. None has
its effect. -/
def Obligations.PoisonedOperandsTrap : Prop :=
  ∀ (s : State) (g : Guard),
    (∀ (i : Guard → CmpOp → Instr) (o : CmpOp),
      i ∈ [.cmpEq, .cmpNe, .cmpLt, .cmpGe, .cmpLe, .cmpGt, .cmpLtn, .cmpGen, .cmpLen, .cmpGtn, .cmpTst, .cmpNtst] →
      s.cleared g [o.a, o.b] [] → (s.xPois o.a = true ∨ s.xPois o.b = true) → Traps (i g o) s 0x07 0 0) ∧
    (∀ (i : Guard → CmpIOp → Instr) (o : CmpIOp),
      i ∈ [.cmpiEq, .cmpiNe, .cmpiLt, .cmpiGe, .cmpiLe, .cmpiGt, .cmpiLtn, .cmpiGen, .cmpiLen, .cmpiGtn, .cmpiTst,
        .cmpiNtst] →
      s.cleared g [o.a] [] → s.xPois o.a = true → Traps (i g o) s 0x07 0 0) ∧
    (∀ (i : Guard → FcmpOp → Instr) (o : FcmpOp), i ∈ [.feq, .flt, .fle, .fun_] →
      s.cleared g [o.a, o.b] [] → (s.xPois o.a = true ∨ s.xPois o.b = true) → Traps (i g o) s 0x07 0 0) ∧
    (∀ o : SrcX, s.cleared g [o.a] [] → s.xPois o.a = true →
      Traps (.psetx g o) s 0x07 0 0 ∧ Traps (.jr g o) s 0x07 0 0 ∧ Traps (.ret g o) s 0x07 0 0) ∧
    (∀ o : X2, s.cleared g [o.d, o.a] [] → s.xPois o.a = true → Traps (.callr g o) s 0x07 0 0) ∧
    (∀ o : SrcX, s.cleared g [o.a] [] → s.xPois o.a = false → (s.xr o.a).toNat % 8 ≠ 0 →
      Traps (.jr g o) s 0x03 (s.xr o.a) 0 ∧ Traps (.ret g o) s 0x03 (s.xr o.a) 0) ∧
    (∀ o : X2, s.cleared g [o.d, o.a] [] → s.xPois o.a = false → (s.xr o.a).toNat % 8 ≠ 0 →
      Traps (.callr g o) s 0x03 (s.xr o.a) 0) ∧
    (∀ o : SrcX, s.cleared g [o.a] [] → s.xPois o.a = true → Traps (.chk g o) s 0x07 0 0) ∧
    (∀ (o : ChkvOp) (n : Nat), s.cleared g [] [o.a] → n < 64 →
      (s.kr o.m).getLsbD n = true → (s.vPois o.a).getLsbD n = true →
      (∀ i, i < n → (s.kr o.m).getLsbD i = true → (s.vPois o.a).getLsbD i = false) →
      Traps (.chkv g o) s 0x07 0 (.ofNat 64 n))

/-! ### Global memory (08) -/

/-- R110, R181, R186, R193, R204: a scalar load or store whose address registers are unpoisoned, whose address is
aligned and reaches its place appends its item, with the address, the place and, for a store, the bytes and poison of
X[D]. Under .spec no check traps: a poisoned address register, a misaligned address, a translation fault, a refused
access, and a host page that its translation does not permit and for which no page request stands give 0 with poison
instead. A prefetch changes nothing. -/
def Obligations.ScalarMemoryIssues : Prop :=
  ∀ (s : State) (g : Guard),
    (∀ (o : LdOp) (a : Access), s.cleared g [o.d, o.a, o.b] [] → s.xPois o.a = false → s.xPois o.b = false →
      let addr := s.xr o.a + (s.xr o.b <<< sizeLog o.size) + o.disp.signExtend 64
      let n := 2 ^ sizeLog o.size
      addr.toNat % n = 0 → s.reaches .load addr 0 a → s.room o.md.h 1 →
      Appends (.ld g o) s o.md.h
        [.load ⟨.x o.d o.sext, [a], n, [], o.mode == .ro, o.mode != .spec, s.me.pc, o.md.order, o.md.scope⟩]) ∧
    (∀ (o : StOp) (a : Access), s.cleared g [o.d, o.a, o.b] [] → s.xPois o.a = false → s.xPois o.b = false →
      let addr := s.xr o.a + (s.xr o.b <<< sizeLog o.size) + o.disp.signExtend 64
      let n := 2 ^ sizeLog o.size
      addr.toNat % n = 0 → s.reaches .store addr 0 a → s.room o.md.h 1 →
      Appends (.st g o) s o.md.h
        [.store ⟨[⟨a, bytesOf n (s.xr o.d).toNat, s.xPois o.d⟩], o.md.order, o.md.scope, []⟩]) ∧
    (∀ o : LdOp, s.cleared g [o.d, o.a, o.b] [] → o.mode = .spec →
      let addr := s.xr o.a + (s.xr o.b <<< sizeLog o.size) + o.disp.signExtend 64
      (s.xPois o.a = true ∨ s.xPois o.b = true ∨ addr.toNat % 2 ^ sizeLog o.size ≠ 0 ∨
        (∃ c i, s.xlate (s.who s.me) .load addr = .fail c i) ∨
        (∃ k, s.xlate (s.who s.me) .load addr = .page k ∧
          (s.pageAsked k = false ∨ (s.atc? k.die (s.pasid k.asid) addr).isSome = true ∨
            s.priStopped.contains (s.asidFn k.asid) = true))) →
      XDone (.ld g o) s 8 o.d 0 true 0) ∧
    (∀ o : PrefOp, s.guardOn g = true → Nothing (.prefetchDc g o) s ∧ Nothing (.prefetchCs g o) s)

/-- R187, R188: an atomic appends its item: the operand X[B], for CAS the compare value X[C], and where the old value
goes; a poisoned operand does not trap. -/
def Obligations.AtomicsIssue : Prop :=
  ∀ (s : State) (g : Guard),
    (∀ (k : AtomKind) (i : Guard → AtomOp → Instr) (o : AtomOp) (a : Access),
      (k, i) ∈ ([(.xchg, .atomXchg), (.add, .atomAdd), (.and, .atomAnd), (.or, .atomOr), (.xor, .atomXor),
        (.min, .atomMin), (.max, .atomMax), (.minn, .atomMinn), (.maxn, .atomMaxn), (.incw, .atomIncw),
        (.decw, .atomDecw)] : List (AtomKind × (Guard → AtomOp → Instr))) →
      s.cleared g [o.d, o.a, o.b] [] → s.xPois o.a = false →
      (s.xr o.a + o.disp.signExtend 64).toNat % (if o.w64 then 8 else 4) = 0 →
      s.reaches (.atomic k o.md.scope) (s.xr o.a + o.disp.signExtend 64) 0 a → s.room o.md.h 1 →
      Appends (i g o) s o.md.h
        [.atomic ⟨k, a, o.w64, s.xr o.b, 0, s.xPois o.b, if o.d = 0 then none else some o.d, s.me.pc, o.md.order,
          o.md.scope⟩]) ∧
    (∀ (o : AtomCasOp) (a : Access), s.cleared g [o.d, o.a, o.b, o.c] [] → s.xPois o.a = false →
      (s.xr o.a + o.disp.signExtend 64).toNat % (if o.w64 then 8 else 4) = 0 →
      s.reaches (.atomic .cas o.md.scope) (s.xr o.a + o.disp.signExtend 64) 0 a → s.room o.md.h 1 →
      Appends (.atomCas g o) s o.md.h
        [.atomic ⟨.cas, a, o.w64, s.xr o.b, s.xr o.c, s.xPois o.b || s.xPois o.c,
          if o.d = 0 then none else some o.d, s.me.pc, o.md.order, o.md.scope⟩]) ∧
    (∀ (k : AtomKind) (i : Guard → AtomFOp → Instr) (o : AtomFOp) (a : Access),
      (k, i) ∈ ([(.fadd, .atomFadd), (.fmin, .atomFmin), (.fmax, .atomFmax)] :
        List (AtomKind × (Guard → AtomFOp → Instr))) →
      s.cleared g [o.d, o.a, o.b] [] → s.xPois o.a = false → (s.xr o.a + o.disp.signExtend 64).toNat % 4 = 0 →
      s.reaches (.atomic k o.md.scope) (s.xr o.a + o.disp.signExtend 64) 0 a → s.room o.md.h 1 →
      Appends (i g o) s o.md.h
        [.atomic ⟨k, a, false, s.xr o.b, 0, s.xPois o.b, if o.d = 0 then none else some o.d, s.me.pc, o.md.order,
          o.md.scope⟩])

/-- R188: what an atomic leaves at its place, on integers of the operand's width: the wrapping sum, the lesser and
greater signed and natural value, compare and swap, and the wrapping increments. -/
def Obligations.AtomicResults : Prop :=
  ∀ (n : Nat) (old b c : BitVec n),
    atomInt .xchg old b c = b ∧ (atomInt .cas old b c = if old = c then b else old) ∧
    atomInt .add old b c = .ofInt n (old.toInt + b.toInt) ∧
    (∀ i, (atomInt .and old b c).getLsbD i = (old.getLsbD i && b.getLsbD i)) ∧
    (∀ i, (atomInt .or old b c).getLsbD i = (old.getLsbD i || b.getLsbD i)) ∧
    (∀ i, (atomInt .xor old b c).getLsbD i = (old.getLsbD i != b.getLsbD i)) ∧
    (atomInt .min old b c).toInt = min old.toInt b.toInt ∧ (atomInt .max old b c).toInt = max old.toInt b.toInt ∧
    (atomInt .minn old b c).toNat = min old.toNat b.toNat ∧ (atomInt .maxn old b c).toNat = max old.toNat b.toNat ∧
    (atomInt .incw old b c).toNat = (if b.toNat ≤ old.toNat then 0 else old.toNat + 1) ∧
    (atomInt .decw old b c).toNat = (if old.toNat = 0 ∨ b.toNat < old.toNat then b.toNat else old.toNat - 1)

/-- R189 to R192: a vector access appends one item for its unmasked lanes: contiguous, strided and gathered forms by
their lane addresses. VLDB reads one word for all. Of two lanes of a scatter on one word the higher is stored. VSCADD
appends one atomic a lane, in rising order, the first with the release and the last with the acquire. -/
def Obligations.VectorMemoryIssues : Prop :=
  (∀ (s : State) (g : Guard) (as : List Access),
    (∀ o : VMemOp, s.cleared g [o.a, o.b] [o.d] → s.room o.md.h 1 →
      let cont := fun i => s.xr o.a + (s.xr o.b <<< 2) + o.disp.signExtend 64 + .ofNat 64 (4 * i)
      let strd := fun i => s.xr o.a + o.disp.signExtend 64 + .ofNat 64 i * s.xr o.b
      let pois := fun _ : Nat => s.xPois o.a || s.xPois o.b
      (s.lanesReach .load cont pois (s.kr o.m) as →
        Appends (.vld g o) s o.md.h [.load ⟨.v o.d, as, 4, [], false, false, s.me.pc, o.md.order, o.md.scope⟩]) ∧
      (s.lanesReach .load strd pois (s.kr o.m) as →
        Appends (.vlds g o) s o.md.h [.load ⟨.v o.d, as, 4, [], false, false, s.me.pc, o.md.order, o.md.scope⟩]) ∧
      (s.lanesReach .store cont pois (s.kr o.m) as →
        Appends (.vst g o) s o.md.h [.store ⟨s.vecPieces o.d as, o.md.order, o.md.scope, []⟩]) ∧
      (s.lanesReach .store strd pois (s.kr o.m) as →
        Appends (.vsts g o) s o.md.h [.store ⟨s.vecPieces o.d as, o.md.order, o.md.scope, []⟩]) ∧
      (∀ a, (s.kr o.m).getLsbD a.lane = true → (∀ i, i < a.lane → (s.kr o.m).getLsbD i = false) → a.lane < 64 →
        pois 0 = false → (cont 0).toNat % 4 = 0 → s.reaches .load (cont 0) a.lane a →
        Appends (.vldb g o) s o.md.h
          [.load ⟨.all o.d (s.kr o.m), [a], 4, [], false, false, s.me.pc, o.md.order, o.md.scope⟩])) ∧
    (∀ o : VgsOp, s.cleared g [o.a] [o.d, o.b] →
      let addr := fun i => s.xr o.a + o.disp.signExtend 64 + 4 * (laneAt (s.vr o.b) i).signExtend 64
      let pois := fun i => s.xPois o.a || (s.vPois o.b).getLsbD i
      (s.room o.md.h 1 → s.lanesReach .load addr pois (s.kr o.m) as →
        Appends (.vgather g o) s o.md.h
          [.load ⟨.v o.d, as, 4, [], false, false, s.me.pc, o.md.order, o.md.scope⟩]) ∧
      (s.room o.md.h 1 → s.lanesReach .store addr pois (s.kr o.m) as →
        Appends (.vscatter g o) s o.md.h [.store ⟨s.vecPieces o.d as, o.md.order, o.md.scope, []⟩]) ∧
      (as ≠ [] → s.room o.md.h as.length → s.lanesReach (.atomic .fadd o.md.scope) addr pois (s.kr o.m) as →
        Appends (.vscadd g o) s o.md.h (s.scaddItems o.d as o.md)))) ∧
  (∀ (s : State) (g : Guard) (o : VgsOp), s.cleared g [o.a] [o.d, o.b] → s.kr o.m = 0 → s.room o.md.h 1 →
    Appends (.vscadd g o) s o.md.h [.store ⟨[], o.md.order, o.md.scope, []⟩]) ∧
  (∀ (s : State) (d : VReg) (as : List Access),
    (∀ p ∈ s.vecPieces d as, p.access ∈ as ∧
      (∀ b ∈ as, b.place.bare = p.access.place.bare → b.lane ≤ p.access.lane) ∧
      p.bytes = bytesOf 4 (laneAt (s.vr d) p.access.lane).toNat ∧
      p.poison = (s.vPois d).getLsbD p.access.lane) ∧
    ∀ a ∈ as, (∀ b ∈ as, b.place.bare = a.place.bare → b.lane ≤ a.lane) → ∃ p ∈ s.vecPieces d as, p.access = a)

/-- R194, R195: TLD, TST and their vector forms append their items on the crew's own tiles. -/
def Obligations.ScratchIssues : Prop :=
  ∀ (s : State) (g : Guard),
    (∀ (o : TldOp) (a : Access), s.cleared g [o.d, o.a, o.b] [] → s.xPois o.a = false → s.xPois o.b = false →
      let n := 2 ^ sizeLog o.size
      s.reachesLocal (s.xr o.a + (s.xr o.b <<< sizeLog o.size) + o.disp.signExtend 64) n 0 a → s.room o.md.h 1 →
      Appends (.tld g o) s o.md.h
        [.load ⟨.x o.d o.sext, [a], n, [], false, true, s.me.pc, o.md.order, o.md.scope⟩]) ∧
    (∀ (o : StOp) (a : Access), s.cleared g [o.d, o.a, o.b] [] → s.xPois o.a = false → s.xPois o.b = false →
      let n := 2 ^ sizeLog o.size
      s.reachesLocal (s.xr o.a + (s.xr o.b <<< sizeLog o.size) + o.disp.signExtend 64) n 0 a → s.room o.md.h 1 →
      Appends (.tst g o) s o.md.h
        [.store ⟨[⟨a, bytesOf n (s.xr o.d).toNat, s.xPois o.d⟩], o.md.order, o.md.scope, []⟩]) ∧
    (∀ (o : VMemOp) (as : List Access), s.cleared g [o.a, o.b] [o.d] → s.room o.md.h 1 →
      let base := s.xr o.a + (s.xr o.b <<< 2) + o.disp.signExtend 64
      let cont := fun i => base + .ofNat 64 (4 * i)
      let strd := fun i => s.xr o.a + o.disp.signExtend 64 + .ofNat 64 i * s.xr o.b
      let pois := fun _ : Nat => s.xPois o.a || s.xPois o.b
      let whole := fun i => base.toNat % 4096 + 4 * i < 4096
      (s.lanesReachLocal cont pois whole (s.kr o.m) as →
        Appends (.tldv g o) s o.md.h
          [.load ⟨.v o.d, as, 4, [], false, false, s.me.pc, o.md.order, o.md.scope⟩]) ∧
      (s.lanesReachLocal strd pois (fun _ => True) (s.kr o.m) as →
        Appends (.tldvs g o) s o.md.h
          [.load ⟨.v o.d, as, 4, [], false, false, s.me.pc, o.md.order, o.md.scope⟩]) ∧
      (s.lanesReachLocal cont pois whole (s.kr o.m) as →
        Appends (.tstv g o) s o.md.h [.store ⟨s.vecPieces o.d as, o.md.order, o.md.scope, []⟩]) ∧
      (s.lanesReachLocal strd pois (fun _ => True) (s.kr o.m) as →
        Appends (.tstvs g o) s o.md.h [.store ⟨s.vecPieces o.d as, o.md.order, o.md.scope, []⟩]))

/-- R182, R186, R194: the order of the checks of a scalar access: a poisoned address register raises POISON, then a
misaligned address MISALIGN with the address; a local access outside the crew's tiles raises SPACE. -/
def Obligations.MemoryTraps : Prop :=
  ∀ (s : State) (g : Guard),
    (∀ o : StOp, s.cleared g [o.d, o.a, o.b] [] →
      let addr := s.xr o.a + (s.xr o.b <<< sizeLog o.size) + o.disp.signExtend 64
      let bad := s.xPois o.a = true ∨ s.xPois o.b = true
      (bad → Traps (.st g o) s 0x07 0 0 ∧ Traps (.tst g o) s 0x07 0 0) ∧
      (¬bad → addr.toNat % 2 ^ sizeLog o.size ≠ 0 →
        Traps (.st g o) s 0x03 addr 0 ∧ Traps (.tst g o) s 0x03 addr 0) ∧
      (¬bad → addr.toNat % 2 ^ sizeLog o.size = 0 →
        s.inTiles addr (2 ^ sizeLog o.size) = false → Traps (.tst g o) s 0x0B addr 0)) ∧
    (∀ o : LdOp, s.cleared g [o.d, o.a, o.b] [] → o.mode ≠ .spec →
      let addr := s.xr o.a + (s.xr o.b <<< sizeLog o.size) + o.disp.signExtend 64
      let bad := s.xPois o.a = true ∨ s.xPois o.b = true
      (bad → Traps (.ld g o) s 0x07 0 0) ∧
      (¬bad → addr.toNat % 2 ^ sizeLog o.size ≠ 0 → Traps (.ld g o) s 0x03 addr 0) ∧
      (¬bad → addr.toNat % 2 ^ sizeLog o.size = 0 → ∀ c i, s.xlate (s.who s.me) .load addr = .fail c i →
        Traps (.ld g o) s c addr i))

/-! ### The matrix unit (08) -/

/-- R197 to R201: MMA, MMAS, ZZERO, ZLD and ZBIAS write one accumulator, element by element, with its poison. -/
def Obligations.MatrixWrites : Prop :=
  ∀ (s : State) (g : Guard) (c : Crew), s.crew? s.me.key.crew = some c →
    let row := fun (tile : Word) (m : Nat) => rowAt (s.tileRows (s.me.ids.tileBase.toNat + tile.toNat)) m
    let accOk := fun (z : ZReg) => z.toNat < s.me.ids.accCount.toNat
    (∀ (d : ZReg) (ta tb : MatType) (a b : Word), s.tileOk a → s.tileOk b → accOk d →
      s.matFree [a.toNat, b.toNat] d.toNat →
      let done := fun (i : Instr) => ∃ t, exec i s = .next t ∧ ZWritten s t d.toNat
        (fun m n => .ofNat 32 (mmaValue ta tb ((s.zr d.toNat).elem m n).toNat ((row a m).elems ta) ((row b n).elems tb)))
        (fun m n => (s.zr d.toNat).pois m n || (row a m).poison.any id || (row b n).poison.any id)
      (∀ na nb : BitVec 8, a = na.setWidth 64 → b = nb.setWidth 64 → s.guardOn g = true →
        done (.mma g ⟨d, ta, tb, na, nb⟩)) ∧
      (∀ xa xb : XReg, a = s.xr xa → b = s.xr xb → s.cleared g [xa, xb] [] → s.xPois xa = false → s.xPois xb = false →
        done (.mmaReg g ⟨d, ta, tb, xa, xb⟩))) ∧
    (∀ (d : ZReg) (ta tb : MatType) (st : ScaleType) (a b : Word) (xc : XReg), s.tileOk a → s.tileOk b →
      s.tileOk (s.xr xc) → accOk d → s.matFree [a.toNat, b.toNat, (s.xr xc).toNat] d.toNat → s.xPois xc = false →
      let nb := 1024 / matWidth ta / 32
      let sc := s.tileRows (s.me.ids.tileBase.toNat + (s.xr xc).toNat)
      let done := fun (i : Instr) => ∃ t, exec i s = .next t ∧ ZWritten s t d.toNat
        (fun m n => .ofNat 32 (mmasElem st (scaledFmt ta) (scaledFmt tb) ((s.zr d.toNat).elem m n).toNat
          ((List.range nb).map fun i => (scaleByte sc (8 * m + i), scaleByte sc (256 + 8 * n + i),
            (runsOf 32 nb ((row a m).elems ta)).getD i [], (runsOf 32 nb ((row b n).elems tb)).getD i []))))
        (fun m n => (s.zr d.toNat).pois m n || (row a m).poison.any id || (row b n).poison.any id ||
          (List.range nb).any fun i => scalePois sc (8 * m + i) || scalePois sc (256 + 8 * n + i))
      (∀ na nb : BitVec 8, a = na.setWidth 64 → b = nb.setWidth 64 → s.cleared g [xc] [] →
        done (.mmas g ⟨d, ta, tb, st, na, nb, xc⟩)) ∧
      (∀ xa xb : XReg, a = s.xr xa → b = s.xr xb → s.cleared g [xa, xb, xc] [] →
        s.xPois xa = false → s.xPois xb = false → done (.mmasReg g ⟨d, ta, tb, st, xa, xb, xc⟩))) ∧
    (∀ o : Z1, s.guardOn g = true → accOk o.d → s.matFree [] o.d.toNat →
      ∃ t, exec (.zzero g o) s = .next t ∧ ZWritten s t o.d.toNat (fun _ _ => 0) (fun _ _ => false)) ∧
    (∀ o : ZldOp, s.cleared g [o.a] [] → s.xPois o.a = false → s.tileOk (s.xr o.a) → accOk o.d →
      s.matFree [(s.xr o.a).toNat] o.d.toNat →
      ∃ t, exec (.zld g o) s = .next t ∧ ZWritten s t o.d.toNat
        (fun m n => .ofNat 32 ((row (s.xr o.a) m).elem 32 n)) (fun m n => (row (s.xr o.a) m).poison.getD n false)) ∧
    (∀ o : ZbiasOp, s.cleared g [] [o.b] → accOk o.d → s.matFree [] o.d.toNat →
      ∃ t, exec (.zbias g o) s = .next t ∧ ZWritten s t o.d.toNat
        (fun m n => match o.t with
          | .f32 => .ofNat 32 (fAdd .f32 (s.mode o.rnd) ((s.zr o.d.toNat).elem m n).toNat (laneAt (s.vr o.b) n).toNat).code
          | .i32 | .n32 => (s.zr o.d.toNat).elem m n + laneAt (s.vr o.b) n)
        (fun m n => (s.zr o.d.toNat).pois m n || (s.vPois o.b).getLsbD n))

/-- R202, R203: ZST and ZSTS write one column slot of one tile from the accumulator: each element converted, each word
with the poison of its elements; every other byte of scratchpad, and all of device and host memory, read as before. ZSTS
leaves the count of saturated elements in xD and its scale in the tile's tag; poison of X[B] poisons every word. -/
def Obligations.MatrixStores : Prop :=
  ∀ (s : State) (g : Guard),
    let slot := fun (t : State) (z : ZReg) (tile col w : Nat) (code : Nat → Nat) (bad : Bool) =>
      s.tiles.wf = true →
        (∀ m n, m < 32 → n < 32 → (rowAt (t.tileRows tile) m).elem w (32 * col + n) =
          code ((s.zr z.toNat).elem m n).toNat % 2 ^ w) ∧
        ∀ m i, m < 32 → i < w → ((rowAt (t.tileRows tile) m).poison.getD (w * col + i) false = true ↔
          bad = true ∨ ∃ n, n < 32 ∧ n * w / 32 = i ∧ (s.zr z.toNat).pois m n = true)
    let rest := fun (t : State) (ds : List XReg) =>
      OnlyRegs { s with
        tiles := t.tiles, tags := t.tags, others := t.others, matrix := s.matrix ++ [(s.me.core, s.me.key.crew, 8)] }
        t ds [] [] [] 0 ∧
      t.others.map (fun u => { u with wait := none }) = s.others.map fun u => { u with wait := none }
    (∀ o : ZstOp, s.cleared g [o.a] [] → s.xPois o.a = false → s.tileOk (s.xr o.a) →
      o.z.toNat < s.me.ids.accCount.toNat → s.matFree [(s.xr o.a).toNat] o.z.toNat → o.dt.width * 4 * (o.col.toNat + 1) ≤ 128 →
      let tile := s.me.ids.tileBase.toNat + (s.xr o.a).toNat
      s.parkedTile? s.me.core tile = none → tile < 256 →
      ∃ t, exec (.zst g o) s = .next t ∧ Ended s t 8 ∧ rest t [] ∧ t.tags = s.tags ∧ t.others = s.others ∧
        slot t o.z tile o.col.toNat o.dt.width (fun c => (convertElem o.dt o.st (s.mode o.rnd) o.sat c).code) false ∧
        (∀ a, t.dev.read a = s.dev.read a ∧ t.host.read a = s.host.read a) ∧
        ∀ a, (∀ m, m < 32 → let b := tileAddr s.me.core tile (128 * m + o.col.toNat * 4 * o.dt.width)
            a < b ∨ b + 4 * o.dt.width ≤ a) → t.tiles.read a = s.tiles.read a) ∧
    (∀ o : ZstsOp, s.cleared g [o.d, o.a, o.b] [] → s.xPois o.a = false → s.tileOk (s.xr o.a) →
      o.z.toNat < s.me.ids.accCount.toNat → s.matFree [(s.xr o.a).toNat] o.z.toNat → o.dt.width * 4 * (o.col.toNat + 1) ≤ 128 →
      let tile := s.me.ids.tileBase.toNat + (s.xr o.a).toNat
      s.parkedTile? s.me.core tile = none → tile < 256 →
      ∃ t, exec (.zsts g o) s = .next t ∧ Ended s t 8 ∧ rest t [o.d] ∧
        slot t o.z tile o.col.toNat o.dt.width
          (fun c => (quantise o.dt .f32 (s.mode o.rnd) o.sat ((s.xr o.b).toNat % 2 ^ 20) c).code) (s.xPois o.b) ∧
        t.tags = mapSet .clear (256 * s.me.core + tile)
          { s.tag s.me.core tile with scale := (s.xr o.b).setWidth 20 } s.tags ∧
        t.xPois o.d = false ∧ t.xr o.d = (if o.d = 0 then 0 else .ofNat 64 ((List.range 1024).countP fun i =>
          (quantise o.dt .f32 (s.mode o.rnd) o.sat ((s.xr o.b).toNat % 2 ^ 20)
            ((s.zr o.z.toNat).elem (i / 32) (i % 32)).toNat).sat)) ∧
        (∀ r, r ≠ o.d → t.xr r = s.xr r ∧ t.xPois r = s.xPois r) ∧
        (∀ a, t.dev.read a = s.dev.read a ∧ t.host.read a = s.host.read a) ∧
        ∀ a, (∀ m, m < 32 → let b := tileAddr s.me.core tile (128 * m + o.col.toNat * 4 * o.dt.width)
            a < b ∨ b + 4 * o.dt.width ≤ a) → t.tiles.read a = s.tiles.read a)

/-! ### Tiles, handles and barriers (09) -/

/-- R208 to R211: TARM arms a tile that is neither FULL nor POISON: FULL at once where XDONE has reached n, POISON
with a TILE_OVERRUN where XDONE has passed it; TWAIT at a FULL or POISON tile gives 1 for FULL and acquires, and else
waits; TTAKE at a FULL tile without an unperformed take acquires and appends its take, at a POISON tile it traps, and
else it waits; TSTAT and TSCLG read; TMARK, TPOIS, TZERO and TSCLS append their items. That TRAP_ADDR of a TILE_OVERRUN
at the tile's own crew is free is the model's reading (log entry 10). -/
def Obligations.TagInstructions : Prop :=
  ∀ (s : State) (g : Guard) (n : Nat),
    let tile := s.me.ids.tileBase.toNat + n
    let tag := s.tag s.me.core tile
    (∀ o : TarmOp, s.cleared g (o.b :: tileRegs o.t) [] → s.namesTileNo o.t n → s.xPois o.b = false →
      (s.xr o.b ≠ 0 → gtWellFormed (s.xr o.b) = true ∧ gtOffset (s.xr o.b) = 0 ∧ s.targetOk (s.xr o.b)) →
      tag.state ≠ 2 → tag.state ≠ 3 →
      let armed := fun st => { tag with xexp := o.n, notify := s.xr o.b, state := st }
      (tag.xdone.toNat ≤ o.n.toNat → Completes (.tarm g o) s fun t =>
        (t.arms (s.xr o.b)).setTag t.me.core tile (armed (if tag.xdone = o.n then 2 else 1))) ∧
      (o.n.toNat < tag.xdone.toNat → ∃ addr, Completes (.tarm g o) s fun t =>
        State.raiseTo { (t.arms (s.xr o.b)).setTag t.me.core tile (armed 3) with free := s.free + 1 } t.me.key 0x08 addr
          (.ofNat 64 n))) ∧
    (∀ o : TwaitOp, s.cleared g (tileRegs o.t) [] → s.namesTileNo o.t n →
      (tag.state = 2 ∨ tag.state = 3 →
        Completes (.twait g o) s fun t => (t.setC o.d (tag.state == 2)).acquireMe o.scope) ∧
      (tag.state ≠ 2 → tag.state ≠ 3 → Waits (.twait g o) s (.tile o.d tile n o.scope none))) ∧
    (∀ o : TagOp, s.cleared g (tileRegs o.t) [] → s.namesTileNo o.t n →
      (tag.state = 2 → s.takePending s.me.core tile = false → s.room o.h 1 →
        Completes (.ttake g o) s fun t =>
          (t.acquireMe o.scope).onMe fun m => m.append o.h (.tag ⟨.take, tile, n, o.scope⟩)) ∧
      (tag.state = 3 → Traps (.ttake g o) s 0x07 0 (.ofNat 64 n)) ∧
      (tag.state ≠ 3 → tag.state ≠ 2 ∨ s.takePending s.me.core tile = true →
        Waits (.ttake g o) s (.take tile n o.scope o.h none)) ∧
      (s.room o.h 1 →
        Appends (.tmark g o) s o.h [.tag ⟨.mark, tile, n, o.scope⟩] ∧
        Appends (.tpois g o) s o.h [.tag ⟨.pois, tile, n, o.scope⟩] ∧
        Appends (.tzero g o) s o.h [.tag ⟨.zero, tile, n, o.scope⟩])) ∧
    (∀ o : TstatOp, s.cleared g (o.d :: tileRegs o.t) [] → s.namesTileNo o.t n →
      let word : Nat := tag.state.toNat + 2 ^ 2 * tag.xexp.toNat + 2 ^ 8 * tag.xdone.toNat +
        2 ^ 14 * tag.overrun.toNat + 2 ^ 16 * tag.scale.toNat
      let w := if o.notify then tag.notify else .ofNat 64 word
      (o.clr = false → XDone (.tstat g o) s 8 o.d w false 0) ∧
      (o.clr = true → Completes (.tstat g o) s fun t =>
        (t.setTag t.me.core tile { tag with overrun := false }).setX o.d w false)) ∧
    (∀ o : TagAOp, s.cleared g (o.a :: tileRegs o.t) [] → s.namesTileNo o.t n → s.xPois o.a = false → s.room o.h 1 →
      Appends (.tscls g o) s o.h [.tag ⟨.scale ((s.xr o.a).setWidth 20), tile, n, o.scope⟩]) ∧
    (∀ o : TsclgOp, s.cleared g (o.d :: tileRegs o.t) [] → s.namesTileNo o.t n →
      XDone (.tsclg g o) s 8 o.d (tag.scale.setWidth 64) false 0)

/-- R206, R213, R214, R365: a transfer whose source and destination pass its checks is appended, with the window through
which it goes to another node, and its source bytes named (TSEND, TSENDX), its lanes read at issue with their poison
(TSENDV), or none (TNOTE). -/
def Obligations.TransfersIssue : Prop :=
  ∀ (s : State) (g : Guard),
    let src := fun (a : Word) (n : Nat) => a.toNat % 4 = 0 ∧ a.toNat < 2 ^ 20 ∧
      a.toNat / 4096 < s.me.ids.tileCount.toNat ∧ n % 4 = 0 ∧ 4 ≤ n ∧ n ≤ 4096 ∧ a.toNat % 4096 + n ≤ 4096
    let dst := fun (w : Word) (n : Nat) =>
      gtWellFormed w = true ∧ gtOffset w % 4 = 0 ∧ gtOffset w + n ≤ 4096 ∧ s.targetOk w
    let via := fun b : XReg => s.tileVia s.me.part (s.xr b)
    (∀ o : SendOp, s.cleared g [o.a, o.b] [] → s.xPois o.a = false → s.xPois o.b = false → s.room o.md.h 1 →
      src (s.xr o.a) o.n.toNat → dst (s.xr o.b) o.n.toNat →
      Appends (.tsend g o) s o.md.h
        [.transfer ⟨.tile (s.sendSource (s.xr o.a)) o.n.toNat, s.xr o.b, via o.b, o.md.order, o.md.scope⟩]) ∧
    (∀ o : AbcOp, s.cleared g [o.a, o.b, o.c] [] → s.xPois o.a = false → s.xPois o.b = false → s.xPois o.c = false →
      s.room o.md.h 1 → src (s.xr o.a) (s.xr o.c).toNat → dst (s.xr o.b) (s.xr o.c).toNat →
      Appends (.tsendx g o) s o.md.h
        [.transfer ⟨.tile (s.sendSource (s.xr o.a)) (s.xr o.c).toNat, s.xr o.b, via o.b, o.md.order, o.md.scope⟩]) ∧
    (∀ o : SendVOp, s.cleared g [o.b] [o.d] → s.xPois o.b = false → s.room o.md.h 1 → dst (s.xr o.b) 256 →
      Appends (.tsendv g o) s o.md.h
        [.transfer ⟨.data ((List.range 64).map fun i => (laneAt (s.vr o.d) i, (s.vPois o.d).getLsbD i)), s.xr o.b,
          via o.b, o.md.order, o.md.scope⟩]) ∧
    (∀ o : BmdOp, s.cleared g [o.b] [] → s.xPois o.b = false → s.room o.md.h 1 → dst (s.xr o.b) 0 →
      gtOffset (s.xr o.b) = 0 →
      Appends (.tnote g o) s o.md.h [.transfer ⟨.none, s.xr o.b, via o.b, o.md.order, o.md.scope⟩])

/-- R66, R215, R216: a gate waits for everything issued earlier on its source handle; HJOIN's stands in both queues,
HJOINA's in all eight; HWAIT passes once its items are performed; HPASS appends a token, HRECV a gate on a tile; HCNT
counts the entries of a queue. -/
def Obligations.HandleInstructions : Prop :=
  ∀ (s : State) (g : Guard),
    (∀ o : HforkOp, s.guardOn g = true → s.room o.d 1 →
      Appends (.hfork g o) s o.d [.gate ⟨s.earlier s.me o.s, o.scope, none⟩]) ∧
    (∀ o : HforkOp, s.guardOn g = true → s.room o.d 1 → s.room o.s 1 →
      (o.d = o.s → Appends (.hjoin g o) s o.d [.gate ⟨s.earlier s.me o.s, o.scope, none⟩]) ∧
      (o.d ≠ o.s →
        let gate : Body := .gate ⟨s.earlier s.me o.d ++ s.earlier s.me o.s, o.scope, none⟩
        Completes (.hjoin g o) s fun t => t.onMe fun m => (m.append o.d gate).append o.s gate)) ∧
    (∀ o : ScopeOp, s.guardOn g = true → (∀ h, s.room h 1) →
      ∃ t, exec (.hjoina g o) s = .next t ∧ t.me.pc = s.me.pc + 8 ∧ ∀ h : HReg, ∃ n,
        t.me.queue h = s.me.queue h ++ [⟨n, .gate ⟨s.earlierAll s.me, o.scope, none⟩, false⟩]) ∧
    (∀ o : HwaitOp, s.guardOn g = true → s.allPerformed (s.earlier s.me o.s) o.scope = true →
      Nothing (.hwait g o) s) ∧
    (∀ o : HpassOp, s.cleared g [o.b] [] → s.xPois o.b = false → gtWellFormed (s.xr o.b) = true →
      gtOffset (s.xr o.b) = 0 → s.targetOk (s.xr o.b) → s.room o.s 1 →
      Appends (.hpass g o) s o.s [.transfer ⟨.none, s.xr o.b, s.tileVia s.me.part (s.xr o.b), .release, o.scope⟩]) ∧
    (∀ (o : HrecvOp) (n : Nat), s.cleared g [o.a] [] → s.namesTileNo (.reg o.a) n → s.room o.d 1 →
      Appends (.hrecv g o) s o.d [.gate ⟨[], o.scope, some (s.me.ids.tileBase.toNat + n, n)⟩]) ∧
    (∀ o : HcntOp, s.cleared g [o.d] [] → XDone (.hcnt g o) s 8 o.d (.ofNat 64 (s.me.queue o.s).length) false 0)

/-- R217 to R220: BARINIT of a poisoned or idle barrier sets EXPECT, clears the counts and the poison and keeps PHASE;
BARINV poisons; BARARR, BARARX and BAREXP append their items; BARWAIT passes and BARTRY gives 1 where PHASE differs
from X[A]. -/
def Obligations.BarrierInstructions : Prop :=
  ∀ (s : State) (g : Guard) (n : Nat),
    let bar := s.me.ids.barBase.toNat + n
    let b := s.barrier s.me.core bar
    let dest := fun d : XReg => if d = 0 then none else some d
    (∀ o : BarinitOp, s.cleared g (o.a :: tileRegs o.t) [] → s.namesBar o.t n → s.xPois o.a = false →
      1 ≤ (s.xr o.a).toNat → (s.xr o.a).toNat ≤ 64 →
      (b.poison = true ∨ (b.arrived = 0 ∧ b.cur = 0 ∧ b.next = 0)) →
      Completes (.barinit g o) s fun t =>
        t.setBarrier t.me.core bar ⟨b.phase, .ofNat 7 (s.xr o.a).toNat, 0, false, 0, 0⟩) ∧
    (∀ o : BarinvOp, s.cleared g (tileRegs o.t) [] → s.namesBar o.t n →
      Completes (.barinv g o) s fun t => t.setBarrier t.me.core bar { b with poison := true }) ∧
    (∀ o : BararrOp, s.cleared g (o.d :: tileRegs o.t) [] → s.namesBar o.t n → s.room o.h 1 →
      Appends (.bararr g o) s o.h [.bar ⟨bar, n, true, none, dest o.d, o.scope⟩]) ∧
    (∀ o : BararxOp, s.cleared g (o.d :: o.a :: tileRegs o.t) [] → s.namesBar o.t n → s.xPois o.a = false →
      (s.xr o.a).toNat < 2 ^ 31 → s.room o.h 1 →
      Appends (.bararx g o) s o.h [.bar ⟨bar, n, true, some (s.xr o.a), dest o.d, o.scope⟩]) ∧
    (∀ o : TagAOp, s.cleared g (o.a :: tileRegs o.t) [] → s.namesBar o.t n → s.xPois o.a = false →
      (s.xr o.a).toNat < 2 ^ 31 → s.room o.h 1 →
      Appends (.barexp g o) s o.h [.bar ⟨bar, n, false, some (s.xr o.a), none, o.scope⟩]) ∧
    (∀ o : BarwaitOp, s.cleared g (o.a :: tileRegs o.t) [] → s.namesBar o.t n → s.xPois o.a = false →
      b.poison = false →
      (b.phase ≠ (s.xr o.a).setWidth 16 → Completes (.barwait g o) s (·.acquireMe o.scope)) ∧
      (b.phase = (s.xr o.a).setWidth 16 →
        Waits (.barwait g o) s (.barrier bar n ((s.xr o.a).setWidth 16) o.scope none))) ∧
    (∀ o : BartryOp, s.cleared g (o.a :: tileRegs o.t) [] → s.namesBar o.t n → s.xPois o.a = false →
      b.poison = false → Completes (.bartry g o) s fun t =>
        if b.phase = (s.xr o.a).setWidth 16 then t.setC o.d false else (t.setC o.d true).acquireMe o.scope)

/-! ### Tasks, copies and rings (09 to 11) -/

/-- R22, R32, R42, R160, R223, R224: SPAWN of an aligned readable record offers it, at once for an unvoted crew, while
the first copy of a voted one waits at the voter; a record that is misaligned or whose translation fails is refused with
cause 6, a poisoned one raises POISON, and one in another package is read there. A SPAWN whose vote a trap has cut waits
for it again (the model's choice: log entry 41). EXIT ends the strand; YIELD changes nothing; PARK and WAITI leave the
strand waiting, and a limit that has passed completes them. -/
def Obligations.TaskInstructions : Prop :=
  ∀ (s : State) (g : Guard),
    (∀ (o : SpawnOp) (c : Crew) (pl : Nat → Place) (pin : Nat → Bool), s.cleared g [o.a] [] →
      s.me.isInsole = false → s.me.parted? = none →
      s.xPois o.a = false → (s.xr o.a).toNat % 64 = 0 → s.crew? s.me.key.crew = some c → c.voted = false →
      (∀ r ∈ s.overlapping (s.xr o.a) 64, s.performedAt r o.scope = true) →
      (∀ n, n < 64 → s.xlate (s.who s.me) .load (s.xr o.a + .ofNat 64 n) = .at (pl n) (pin n) ∧
        (pl n).isRemote = false ∧ (s.readHome (pl n) 1 .none).2 = false) →
      Completes (.spawn g o) s fun t => (t.meetRecord (s.xr o.a) (some (pl 0, pin 0))).spawnWith
        ((List.range 64).map fun n => (s.readHome (pl n) 1 .none).1.headD 0) o.d ⟨s.earlier s.me o.h, o.scope, none⟩) ∧
    (∀ (o : SpawnOp), s.cleared g [o.a] [] → s.me.isInsole = false → s.me.parted? = none → s.xPois o.a = false →
      (∀ r ∈ s.overlapping (s.xr o.a) 64, s.performedAt r o.scope = true) →
      let err := fun (t : State) => t.onMe fun m => { m.setC o.d false with spawnCause := 6, spawnErr := true }
      (s.countIssue.spawnRead (s.xr o.a) o.d 64 = .refused → Completes (.spawn g o) s err) ∧
      (∀ bs home, s.countIssue.spawnRead (s.xr o.a) o.d 64 = .bytes bs false home →
        (∀ v a pin, home ≠ some (.remote v a, pin)) →
        ((s.xr o.a).toNat % 64 ≠ 0 → Completes (.spawn g o) s fun t => err (t.meetRecord (s.xr o.a) home)) ∧
        ((s.xr o.a).toNat % 64 = 0 → ∀ tag, s.voteTag? s.me s.me.appended spawnPart = some tag →
          (∀ v ∈ s.votes, v.tag ≠ tag) →
          ∃ t v, exec (.spawn g o) s = .next t ∧ t.me.wait = some (.vote s.me.appended) ∧ t.me.pc = s.me.pc ∧
            SameMem s t ∧ t.votes = s.votes ++ [v] ∧ v.tag = tag ∧ v.performed = false ∧
            v.arrivals.map (·.ballot) = [.spawn bs (s.xr o.a) o.d o.h o.scope])) ∧
      (∀ bs home, s.countIssue.spawnRead (s.xr o.a) o.d 64 = .bytes bs true home →
        (∀ v a pin, home ≠ some (.remote v a, pin)) →
        exec (.spawn g o) s = .next (((s.countIssue.meetRecord (s.xr o.a) home).takeTrap 0x07 0 0).endInstr)) ∧
      ∀ bs p v a pin, s.countIssue.spawnRead (s.xr o.a) o.d 64 = .bytes bs p (some (.remote v a, pin)) →
        ∃ t, exec (.spawn g o) s = .next t ∧ t.me.wait = some (.record v a (s.xr o.a) o.d o.h o.scope) ∧
          t.me.pc = s.me.pc ∧ SameMem s t) ∧
    (∀ (o : SpawnOp) (q : Parted), s.cleared g [o.a] [] → s.me.isInsole = false → s.me.parted? = some q →
      q.result = none → ∃ t, exec (.spawn g o) s = .next t ∧ t.me.wait = some (.vote q.n) ∧ t.me.parted = none ∧
        t.me.pc = s.me.pc ∧ SameMem s t) ∧
    (s.guardOn g = true → s.me.isInsole = false → Completes (.exit g) s State.exitMe ∧
      ∃ t, exec (.exit g) s = .next t ∧ t.me.live = false ∧ t.me.queues = s.me.queues) ∧
    (s.guardOn g = true → Nothing (.yield g) s) ∧
    (∀ o : SrcX, s.cleared g [o.a] [] → s.xPois o.a = false →
      let limit := if s.xr o.a = 0 then none else some (s.xr o.a).toNat
      let start := s.coreCycles s.me.core
      (∃ t, exec (.park g o) s = .next t ∧ t.me.wait = some (.event true false start limit) ∧ t.me.pc = s.me.pc ∧
        (s.me.live = true → s.onCore s.me = true → s.xr o.a ≠ 0 → s.me.deferred = [] →
          ∃ u, exec (.timedWaitExpiry s.me.key) t = .next u ∧ u.me.wait = none ∧ u.me.pc = s.me.pc + 8)) ∧
      (s.me.level ≠ .program →
        ∃ t, exec (.waiti g o) s = .next t ∧ t.me.wait = some (.event false false start limit) ∧ t.me.pc = s.me.pc ∧
          (s.me.live = true → s.onCore s.me = true → s.xr o.a ≠ 0 → s.me.deferred = [] →
            ∃ u, exec (.timedWaitExpiry s.me.key) t = .next u ∧ u.me.wait = none ∧ u.me.pc = s.me.pc + 8)))

/-- R225 to R233, R410: LAYSET of a block without error sets the crew's entry, LAYGET writes it out; CPYGO of a block
without error takes a free slot of the engine, gives its ticket and appends the copy command; CPYSTAT gives the code of
the job that a ticket names, 5 where it names none; CPYABORT marks a job that has not ended. -/
def Obligations.CopyInstructions : Prop :=
  ∀ (s : State) (g : Guard),
    (∀ (o : LayOp) (n : Nat), s.cleared g (o.a :: entryRegs o.e) [] → s.blockOk o.a → s.namesEntry o.e n →
      let bs := (s.readTile (s.localAddr (s.xr o.a)) 64).1
      (s.storesTo (s.xr o.a) = [] → layoutError? bs = none → Completes (.layset g o) s fun t =>
        t.onCrew t.me.key.crew fun c => { c with layouts := setNth c.layouts n bs }) ∧
      Completes (.layget g o) s fun t =>
        t.writeTile (s.localAddr (s.xr o.a)) (s.layoutBytes s.me.key.crew n) false) ∧
    (∀ o : CpygoOp, s.cleared g [o.d, o.a] [] → s.blockOk o.a → s.storesTo (s.xr o.a) = [] →
      let bs := (s.readTile (s.localAddr (s.xr o.a)) 64).1
      s.blockError? bs = none → (Block.ofBytes bs).doneKind ≠ 3 → s.room o.md.h 1 → s.freeSlots s.me.cluster ≠ [] →
      ∃ t slot, exec (.cpygo g o) s = .next t ∧ Ended s t 8 ∧ slot ∈ s.freeSlots s.me.cluster ∧
        t.xr o.d = (if o.d = 0 then 0 else ticket s.me.cluster slot (mapGet 0 s.me.cluster s.seqs)) ∧
        t.me.queue o.md.h = s.me.queue o.md.h ++
          [⟨s.me.appended, .copy ⟨s.me.cluster, slot, .release, o.md.scope⟩, false⟩] ∧
        (∃ j ∈ t.jobs, j.engine = s.me.cluster ∧ j.slot = slot ∧ j.state = .awaited ∧ j.block = .ofBytes bs ∧
          j.crews = [s.me.key.crew]) ∧
        ∀ a, t.dev.read a = s.dev.read a ∧ t.host.read a = s.host.read a ∧ t.tiles.read a = s.tiles.read a) ∧
    (∀ o : X2, s.cleared g [o.d, o.a] [] → s.xPois o.a = false → s.ticketOk (s.xr o.a) →
      XDone (.cpystat g o) s 8 o.d (.ofNat 64 (match s.jobOf (s.xr o.a) with
        | some j => (s.leaderOf j).state.code
        | none => 5)) false 0) ∧
    (∀ o : SrcX, s.cleared g [o.a] [] → s.xPois o.a = false → s.ticketOk (s.xr o.a) →
      (∀ j, s.jobOf (s.xr o.a) = some j → (s.leaderOf j).state.alive = true → Completes (.cpyabort g o) s fun t =>
        t.onJob (s.leaderOf j).engine (s.leaderOf j).slot fun k => { k with abort := true }) ∧
      (s.jobOf (s.xr o.a) = none → Nothing (.cpyabort g o) s))

/-- R235 to R241, R247, R365: the ring instructions, on a ring of the package or, through a window, of another node.
RGPUT and the verdicts append their items (RGPUT's sample size is a free choice among the six for another node's ring:
log entries 7 and 31). On a ring of the package RGPOS gives HEAD; RGREAD writes its samples into the crew's tiles, gives
the count of lost ones and acquires; TRGNEXT takes the head candidate into the register pair and acquires, and waits
where the queue has none. On another node's ring these three wait for its answer. -/
def Obligations.RingInstructions : Prop :=
  ∀ (s : State) (g : Guard),
    let range := fun (a c : XReg) (count size : Nat) => s.xPois a = false ∧ s.xPois c = false ∧
      (s.xr a).toNat % min size 4 = 0 ∧ s.inTiles (s.xr a) (count * size) = true
    let item := fun (fn : RingFn) (b : XReg) (via : Option Via) (lo hi : Word) (d : XReg) (md : Md) =>
      Body.ring ⟨fn, s.xr b, via, lo, hi, 0, 0, if d = 0 then none else some d, md.order, md.scope⟩
    (∀ (o : AbcOp) (via : Option Via), s.cleared g [o.a, o.b, o.c] [] → s.ringVia o.b via → s.room o.md.h 1 →
      let put := fun size : Nat => Body.ring
        ⟨.put, s.xr o.b, via, .ofNat 64 size, 0, s.localAddr (s.xr o.a), (s.xr o.c).toNat, none, o.md.order, o.md.scope⟩
      (via = none → range o.a o.c (s.xr o.c).toNat (s.rgSize (fieldOf (s.xr o.b) 5 0)) →
        Appends (.rgput g o) s o.md.h [put (s.rgSize (fieldOf (s.xr o.b) 5 0))]) ∧
      (via ≠ none → (∀ z, z ∈ [2, 4, 8, 16, 32, 64] → range o.a o.c (s.xr o.c).toNat z) →
        ∃ z, z ∈ [2, 4, 8, 16, 32, 64] ∧ Completes (.rgput g o) s fun t =>
          State.onMe { t with free := t.free + 1 } fun m => m.append o.md.h (put z))) ∧
    (∀ (o : RgreadOp) (n : Nat), s.cleared g [o.d, o.a, o.b, o.c] [] → s.ownRing o.b n →
      range o.a o.c o.n.toNat (s.rgSize n) →
      let lost := (List.range o.n.toNat).countP fun (i : Nat) => !s.readable n (idx (((s.xr o.c).toNat : Int) + (i : Int)))
      let read := s.countIssue.readSamples n ((s.xr o.c).toNat % 2 ^ 48) o.n.toNat
      (∀ r, read = .ok r → exec (.rgread g o) s = .next
        ((((r.1.writeSamples (s.localAddr (s.xr o.a)) r.2).setX o.d (.ofNat 64 lost) false).acquireMe o.scope).advance
          8)) ∧
      (∀ a, read = .error (.fault a) → Completes (.rgread g o) s fun t =>
        (((if s.rgEnabled n then t.ringFault n a else t).writeSamples (s.localAddr (s.xr o.a))
          (List.replicate o.n.toNat (List.replicate (s.rgSize n) 0, true))).setX o.d (.ofNat 64 lost) false).acquireMe
            o.scope) ∧
      (∀ k ats, read = .error (.wait k ats) → Waits (.rgread g o) s (.ringPage n k ats))) ∧
    (∀ (o : RgposOp) (n : Nat), s.cleared g [o.d, o.b] [] → s.ownRing o.b n →
      XDone (.rgpos g o) s 8 o.d (.ofNat 64 (s.rgHead n)) false 0) ∧
    (∀ (o : RgposOp) (n : Nat), s.cleared g [o.d, pairOf o.d, o.b] [] → s.ownRing o.b n → s.me.isInsole = false →
      let l := fieldOf (s.xr o.b) 7 6
      (s.rgDepth n l ≠ 0 → s.takeable? n l = none →
        Waits (.trgnext g o) s (.candidate o.d (s.xr o.b) o.scope)) ∧
      (s.rgDepth n l = 0 → Traps (.trgnext g o) s 0x10 (s.xr o.b) 3) ∧
      ∀ c u, s.rgDepth n l ≠ 0 → s.takeable? n l = some c →
        s.countIssue.takeCand n l s.me.part s.me.key.crew c = .ok u →
        exec (.trgnext g o) s = .next
          ((((u.setX o.d c.lo false).setX (pairOf o.d) c.hi false).acquireMe o.scope).advance 8)) ∧
    (∀ (o : RgposOp) (v : Via), s.farRing? o.b v →
      (s.cleared g [o.d, o.b] [] → ∃ t, exec (.rgpos g o) s = .next t ∧ t.me.pc = s.me.pc ∧ SameMem s t ∧
        t.me.wait = some (.ringUnit v 2 (s.xr o.b) o.d none none o.scope)) ∧
      (s.cleared g [o.d, pairOf o.d, o.b] [] → ∃ t, exec (.trgnext g o) s = .next t ∧ t.me.pc = s.me.pc ∧ SameMem s t ∧
        t.me.wait = some (.ringUnit v 3 (s.xr o.b) o.d (some (pairOf o.d)) none o.scope))) ∧
    (∀ (o : TrgOp) (via : Option Via), s.cleared g [o.a, pairOf o.a, o.b, o.d] [] → s.ringVia o.b via → s.room o.md.h 1 →
      Appends (.trgfwd g o) s o.md.h [item .fwd o.b via (s.xr o.a) (s.xr (pairOf o.a)) o.d o.md] ∧
      Appends (.trgacc g o) s o.md.h [item .acc o.b via (s.xr o.a) (s.xr (pairOf o.a)) o.d o.md]) ∧
    (∀ (o : TrgrejOp) (via : Option Via), s.cleared g [o.a, pairOf o.a, o.b] [] → s.ringVia o.b via → s.room o.md.h 1 →
      Appends (.trgrej g o) s o.md.h [item .rej o.b via (s.xr o.a) (s.xr (pairOf o.a)) 0 o.md]) ∧
    (∀ (o : BmdOp) (via : Option Via), s.cleared g [o.b] [] → s.ringVia o.b via → s.room o.md.h 1 →
      Appends (.trgmark g o) s o.md.h [item .mark o.b via 0 0 0 o.md])

/-! ### Vectors (07, 12) -/

/-- R162 to R165: VIOP, element by element on signed or natural elements of 8, 16 or 32 bits; VSEL picks whole lanes and
writes all of them; VMADD and VDOT4 also read vD. -/
def Obligations.VectorIntegers : Prop :=
  let sat := fun (sg : Bool) (w : Nat) (z : Int) => BitVec.ofInt w
    (if sg then max (-(2 ^ (w - 1))) (min (2 ^ (w - 1) - 1) z) else max 0 (min (2 ^ w - 1) z))
  let val := fun (sg : Bool) (w : Nat) (a : BitVec w) => if sg then a.toInt else (a.toNat : Int)
  Viop3 .vadd (fun _ w a b => .ofInt w (a.toInt + b.toInt)) ∧
  Viop3 .vsub (fun _ w a b => .ofInt w (a.toInt - b.toInt)) ∧
  Viop3 .vmul (fun _ w a b => .ofInt w (a.toInt * b.toInt)) ∧
  Viop3 .vmulh (fun sg w a b => .ofInt w (val sg w a * val sg w b / 2 ^ w)) ∧
  Viop3 .vand (fun _ _ a b => a &&& b) ∧ Viop3 .vor (fun _ _ a b => a ||| b) ∧ Viop3 .vxor (fun _ _ a b => a ^^^ b) ∧
  Viop3 .vshl (fun _ w a b => .ofNat w (a.toNat * 2 ^ (b.toNat % w))) ∧
  Viop3 .vshr (fun _ w a b => .ofNat w (a.toNat / 2 ^ (b.toNat % w))) ∧
  Viop3 .vsar (fun _ w a b => .ofInt w (a.toInt / 2 ^ (b.toNat % w))) ∧
  Viop3 .vmin (fun sg w a b => .ofInt w (min (val sg w a) (val sg w b))) ∧
  Viop3 .vmax (fun sg w a b => .ofInt w (max (val sg w a) (val sg w b))) ∧
  Viop3 .vadds (fun sg w a b => sat sg w (val sg w a + val sg w b)) ∧
  Viop3 .vsubs (fun sg w a b => sat sg w (val sg w a - val sg w b)) ∧
  Viop2 .vabs (fun w a r => r = .ofInt w (if a.toInt < 0 then -a.toInt else a.toInt)) ∧
  Viop2 .vneg (fun w a r => r = .ofInt w (-a.toInt)) ∧
  Viop2 .vpop (fun w a r => ∃ l : List Nat, r = .ofNat w l.length ∧ l.Nodup ∧
    ∀ i, i ∈ l ↔ i < w ∧ a.getLsbD i = true) ∧
  Viop2 .vclz (fun w a r => ∃ k, r = .ofNat w k ∧ k ≤ w ∧ (∀ i, w - k ≤ i → a.getLsbD i = false) ∧
    (k < w → a.getLsbD (w - 1 - k) = true)) ∧
  (∀ (s : State) (g : Guard) (o : V3i) (lanes : Nat → Lane), s.cleared g [] [o.d, o.a, o.b, o.d] →
    let w := ieWidth o.t
    let pois := fun n => (s.vPois o.a).getLsbD n || (s.vPois o.b).getLsbD n || (s.vPois o.d).getLsbD n
    (ElemsAre w lanes (fun n j => laneElem w (s.vr o.a) n j * laneElem w (s.vr o.b) n j + laneElem w (s.vr o.d) n j) →
      VDone (.vmadd g o) s o.d (s.kr o.m) lanes pois 0) ∧
    ((∀ n, n < 64 → lanes n = .ofInt 32 ((laneAt (s.vr o.d) n).toInt +
        (val (ieSigned o.t) 8 (laneElem 8 (s.vr o.a) n 0) * val (ieSigned o.t) 8 (laneElem 8 (s.vr o.b) n 0) +
         val (ieSigned o.t) 8 (laneElem 8 (s.vr o.a) n 1) * val (ieSigned o.t) 8 (laneElem 8 (s.vr o.b) n 1) +
         val (ieSigned o.t) 8 (laneElem 8 (s.vr o.a) n 2) * val (ieSigned o.t) 8 (laneElem 8 (s.vr o.b) n 2) +
         val (ieSigned o.t) 8 (laneElem 8 (s.vr o.a) n 3) * val (ieSigned o.t) 8 (laneElem 8 (s.vr o.b) n 3)))) →
      VDone (.vdot4 g o) s o.d (s.kr o.m) lanes pois 0)) ∧
  (∀ (s : State) (g : Guard) (o : V3i), s.cleared g [] [o.d, o.a, o.b] →
    VDone (.vsel g o) s o.d (.allOnes 64)
      (fun n => if (s.kr o.m).getLsbD n then laneAt (s.vr o.a) n else laneAt (s.vr o.b) n)
      (fun n => if (s.kr o.m).getLsbD n then (s.vPois o.a).getLsbD n else (s.vPois o.b).getLsbD n) 0)

/-- R162 to R164, R166, R167: VFOP, element by element. -/
def Obligations.VectorFloats : Prop :=
  Vfop3 .vfadd fAdd ∧ Vfop3 .vfsub fSub ∧ Vfop3 .vfmul fMul ∧ Vfop3 .vfdiv fDiv ∧
  Vfop4 .vffma fFma ∧ Vfop4 .vffms fFms ∧
  Vfop2 .vfsqrt fSqrt ∧ Vfop2 .vfrcp fRcp ∧ Vfop2 .vfrsq fRsq ∧ Vfop2 .vfexp2 fExp2 ∧ Vfop2 .vflog2 fLog2 ∧
  Vfop3 .vfscl (fun t mode a b => fScale t mode a (BitVec.ofNat t.width b).toInt) ∧
  (∀ (s : State) (g : Guard) (o : V3fn), s.cleared g [] [o.d, o.a, o.b] →
    let t := feFmt o.t
    let a := fun n j => (laneElem t.width (s.vr o.a) n j).toNat
    let b := fun n j => (laneElem t.width (s.vr o.b) n j).toNat
    VFloat (.vfmin g o) s o.d [o.a, o.b] o.m t.width (fun n j => fMinMax t false (a n j) (b n j)) ∧
    VFloat (.vfmax g o) s o.d [o.a, o.b] o.m t.width (fun n j => fMinMax t true (a n j) (b n j))) ∧
  (∀ (s : State) (g : Guard) (o : V2fn) (lanes : Nat → Lane), s.cleared g [] [o.d, o.a] →
    let w := (feFmt o.t).width
    let pois := fun n => (s.vPois o.a).getLsbD n
    ((∀ n i, n < 64 → i < 32 → (lanes n).getLsbD i = (decide (i % w + 1 ≠ w) && (laneAt (s.vr o.a) n).getLsbD i)) →
      VDone (.vfabs g o) s o.d (s.kr o.m) lanes pois 0) ∧
    ((∀ n i, n < 64 → i < 32 → (lanes n).getLsbD i = (decide (i % w + 1 = w) != (laneAt (s.vr o.a) n).getLsbD i)) →
      VDone (.vfneg g o) s o.d (s.kr o.m) lanes pois 0))

/-- R168 to R170: VCVT and VCVTSC, with the random bits of R169 under .rs. -/
def Obligations.VectorConversions : Prop :=
  ∀ (s : State) (g : Guard),
    let mode := fun (r : CvtRnd) (n : Nat) => match r with
      | .fixed m => s.mode m
      | .rs v => .rs (randomBits (s.vr v) n)
    let rsPois := fun (r : CvtRnd) (n : Nat) => match r with
      | .fixed _ => false
      | .rs v => (s.vPois v).getLsbD (n % 64)
    let rsRegs := fun (r : CvtRnd) => match r with
      | .fixed _ => []
      | .rs v => [v]
    (∀ o : VcvtOp, s.cleared g [] (o.d :: o.a :: rsRegs o.rnd) →
      (if o.dt.width ≤ o.st.width then o.part.toNat * o.dt.width < o.st.width
        else o.part.toNat * o.st.width < o.dt.width) →
      Converts (.vcvt g o) s o.d o.a o.m o.kr o.dt o.st o.part.toNat
        (fun n c => convertElem o.dt o.st (mode o.rnd n) o.sat c) (rsPois o.rnd)) ∧
    (∀ o : VcvtscOp, s.cleared g [o.b] (o.d :: o.a :: rsRegs o.rnd) →
      (if o.dt.width ≤ o.st.width then o.part.toNat * o.dt.width < o.st.width
        else o.part.toNat * o.st.width < o.dt.width) →
      Converts (.vcvtsc g o) s o.d o.a o.m o.kr o.dt o.st o.part.toNat
        (fun n c => quantise o.dt o.st (mode o.rnd n) o.sat ((s.xr o.b).toNat % 2 ^ 20) c)
        (fun n => s.xPois o.b || rsPois o.rnd n))

/-- R164, R171 to R173, R176, R177: lane moves, reductions and scans, compressions, VMOV, VMOVI, VIOTA and VRAND.
That an addition's identity is −0 under .rdn too, where R103 gives a sum of zeros otherwise, is the model's reading (log
entry 19). -/
def Obligations.VectorMoves : Prop :=
  ∀ (s : State) (g : Guard),
    (∀ o : V3m, s.cleared g [] [o.d, o.a, o.b] →
      let from_ := fun n => (laneAt (s.vr o.b) n).toNat % 64
      VDone (.vperm g o) s o.d (s.kr o.m) (fun n => laneAt (s.vr o.a) (from_ n))
        (fun n => (s.vPois o.b).getLsbD n || (s.vPois o.a).getLsbD (from_ n)) 0) ∧
    (∀ o : VxOp, s.cleared g [o.a] [o.d] →
      VDone (.vbcast g o) s o.d (s.kr o.m) (fun _ => (s.xr o.a).setWidth 32) (fun _ => s.xPois o.a) 0 ∧
      VDone (.viota g o) s o.d (s.kr o.m) (fun n => .ofNat 32 ((s.xr o.a).toNat + n)) (fun _ => s.xPois o.a) 0) ∧
    (∀ o : VinsOp, s.cleared g [o.a, o.b] [o.d] →
      VDone (.vins g o) s o.d (1#64 <<< ((s.xr o.b).toNat % 64)) (fun _ => (s.xr o.a).setWidth 32)
        (fun _ => s.xPois o.a || s.xPois o.b) 0) ∧
    (∀ o : VextOp, s.cleared g [o.d, o.b] [o.a] →
      let n := (s.xr o.b).toNat % 64
      XDone (.vext g o) s 8 o.d ((laneAt (s.vr o.a) n).setWidth 64) ((s.vPois o.a).getLsbD n || s.xPois o.b) 0) ∧
    (∀ o : VredOp, s.cleared g [o.d] [o.a] →
      let r := (redTree (redStep o.op o.t (s.mode o.rnd)) 6
        (redLanes (s.vr o.a) (s.kr o.m) (redIdentity o.op o.t))).headD (0, 0)
      XDone (.vred g o) s 8 o.d (if o.t = .i32 then (BitVec.ofNat 32 r.1).signExtend 64 else .ofNat 64 r.1)
        (s.vPois o.a &&& s.kr o.m != 0) r.2) ∧
    (∀ o : VscanOp, s.cleared g [] [o.d, o.a] →
      let r := scanLanes (redStep o.op o.t (s.mode o.rnd)) (s.vr o.a) (s.vPois o.a) (s.kr o.m) (List.range 64)
        (redIdentity o.op o.t, 0) false
      VDone (.vscan g o) s o.d (s.kr o.m) (fun n => .ofNat 32 (r.1.getD n (0, false)).1)
        (fun n => (r.1.getD n (0, false)).2) r.2) ∧
    (∀ o : V2m, s.cleared g [] [o.d, o.a] →
      let on := (List.range 64).filter (s.kr o.m).getLsbD
      VDone (.vcomp g o) s o.d (.ofNat 64 (2 ^ on.length - 1)) (fun n => laneAt (s.vr o.a) (on.getD n 0))
        (fun n => (s.vPois o.a).getLsbD (on.getD n 0)) 0 ∧
      VDone (.vexpd g o) s o.d (s.kr o.m) (fun n => laneAt (s.vr o.a) (on.countP fun j => decide (j < n)))
        (fun n => (s.vPois o.a).getLsbD (on.countP fun j => decide (j < n))) 0 ∧
      VDone (.vmov g o) s o.d (s.kr o.m) (fun n => laneAt (s.vr o.a) n) (fun n => (s.vPois o.a).getLsbD n) 0) ∧
    (∀ o : VslideOp, s.cleared g [o.b] [o.d, o.a] →
      let from_ := fun n : Nat => (n : Int) + (s.xr o.b).toInt
      VDone (.vslide g o) s o.d (s.kr o.m)
        (fun n => if 0 ≤ from_ n ∧ from_ n ≤ 63 then laneAt (s.vr o.a) (from_ n).toNat else 0)
        (fun n => s.xPois o.b || (decide (0 ≤ from_ n ∧ from_ n ≤ 63) && (s.vPois o.a).getLsbD (from_ n).toNat)) 0) ∧
    (∀ o : VmoviOp, s.cleared g [] [o.d] →
      VDone (.vmovi g o) s o.d (s.kr o.m)
        (fun _ => match o.t with
          | .i32 => .ofInt 32 o.imm.toInt
          | .n32 => .ofNat 32 o.imm.toNat
          | .f32 => .ofNat 32 (o.imm.toNat * 2 ^ 11)) (fun _ => false) 0) ∧
    (∀ o : VrandOp, s.cleared g [o.a] [o.d, o.b] →
      VDone (.vrand g o) s o.d (s.kr o.m) (fun n => vrandFn (s.xr o.a) (laneAt (s.vr o.b) n))
        (fun n => s.xPois o.a || (s.vPois o.b).getLsbD n) 0)

/-- R13, R138, R147, R174: VCMP into a mask: bits of unmasked lanes take the compare's truth, the others keep their
value. A poisoned unmasked lane raises POISON with the lowest such lane in TRAP_INFO, and the mask is unchanged. -/
def Obligations.VectorCompares : Prop :=
  ∀ (s : State) (g : Guard) (o : VcmpOp), s.cleared g [] [o.a, o.b] →
    let bad := fun n => (s.kr o.m).getLsbD n = true ∧ ((s.vPois o.a).getLsbD n = true ∨ (s.vPois o.b).getLsbD n = true)
    (∀ (n : Nat) (i : Guard → VcmpOp → Instr), n < 64 → bad n → (∀ m, m < n → ¬ bad m) →
      i ∈ [.vcmpEq, .vcmpNe, .vcmpLt, .vcmpGe, .vcmpLe, .vcmpGt, .vcmpLtn, .vcmpGen, .vcmpLen, .vcmpGtn, .vcmpTst,
        .vcmpNtst, .vcmpFeq, .vcmpFlt, .vcmpFle, .vcmpFun] → Traps (i g o) s 0x07 0 (.ofNat 64 n)) ∧
    ((∀ n, n < 64 → (s.kr o.m).getLsbD n = true → (s.vPois o.a).getLsbD n = false ∧ (s.vPois o.b).getLsbD n = false) →
    let done := fun (i : Instr) (p : Lane → Lane → Bool) => KDone i s o.d
      (fun n => if (s.kr o.m).getLsbD n then p (laneAt (s.vr o.a) n) (laneAt (s.vr o.b) n) else (s.kr o.d).getLsbD n) 0
    let fdone := fun (i : Instr) (c : FCond) => ∀ fl : Flags,
      (∀ b, b < 5 → (fl.getLsbD b = true ↔ ∃ n, n < 64 ∧ (s.kr o.m).getLsbD n = true ∧
        (fCompare .f32 c (laneAt (s.vr o.a) n).toNat (laneAt (s.vr o.b) n).toNat).2.getLsbD b = true)) →
      KDone i s o.d (fun n => if (s.kr o.m).getLsbD n
        then (fCompare .f32 c (laneAt (s.vr o.a) n).toNat (laneAt (s.vr o.b) n).toNat).1
        else (s.kr o.d).getLsbD n) fl
    done (.vcmpEq g o) (fun a b => decide (a = b)) ∧ done (.vcmpNe g o) (fun a b => decide (a ≠ b)) ∧
    done (.vcmpLt g o) (fun a b => decide (a.toInt < b.toInt)) ∧
    done (.vcmpGe g o) (fun a b => decide (b.toInt ≤ a.toInt)) ∧
    done (.vcmpLe g o) (fun a b => decide (a.toInt ≤ b.toInt)) ∧
    done (.vcmpGt g o) (fun a b => decide (b.toInt < a.toInt)) ∧
    done (.vcmpLtn g o) (fun a b => decide (a.toNat < b.toNat)) ∧
    done (.vcmpGen g o) (fun a b => decide (b.toNat ≤ a.toNat)) ∧
    done (.vcmpLen g o) (fun a b => decide (a.toNat ≤ b.toNat)) ∧
    done (.vcmpGtn g o) (fun a b => decide (b.toNat < a.toNat)) ∧
    done (.vcmpTst g o) (fun a b => decide (a &&& b ≠ 0)) ∧ done (.vcmpNtst g o) (fun a b => decide (a &&& b = 0)) ∧
    fdone (.vcmpFeq g o) .feq ∧ fdone (.vcmpFlt g o) .flt ∧ fdone (.vcmpFle g o) .fle ∧ fdone (.vcmpFun g o) .fun)

/-- R175, R178, R179: mask logic and moves, and the block-scaled dot products. -/
def Obligations.MasksAndDots : Prop :=
  ∀ (s : State) (g : Guard),
    (∀ o : K3, s.guardOn g = true →
      KDone (.kand g o) s o.d (fun n => (s.kr o.a).getLsbD n && (s.kr o.b).getLsbD n) 0 ∧
      KDone (.kor g o) s o.d (fun n => (s.kr o.a).getLsbD n || (s.kr o.b).getLsbD n) 0 ∧
      KDone (.kxor g o) s o.d (fun n => (s.kr o.a).getLsbD n != (s.kr o.b).getLsbD n) 0) ∧
    (∀ o : K2, s.guardOn g = true → KDone (.knot g o) s o.d (fun n => !(s.kr o.a).getLsbD n) 0) ∧
    (∀ o : KsetxOp, s.cleared g [o.a] [] →
      (s.xPois o.a = false → KDone (.ksetx g o) s o.d (fun n => (s.xr o.a).getLsbD n) 0) ∧
      (s.xPois o.a = true → Traps (.ksetx g o) s 0x07 0 0)) ∧
    (∀ o : KgetxOp, s.cleared g [o.d] [] →
      XDone (.kgetx g o) s 8 o.d (s.kr o.a) false 0 ∧
      XDone (.kpop g o) s 8 o.d (.ofNat 64 ((List.range 64).filter (s.kr o.a).getLsbD).length) false 0) ∧
    (∀ o : VdotOp, s.cleared g [] [o.d, o.a, o.b, o.c] →
      VDone (.vbdot g o) s o.d (s.kr o.m)
        (fun n => .ofNat 32 (laneContribution o.st (laneAt (s.vr o.a) n) (laneAt (s.vr o.b) n) (laneAt (s.vr o.c) n)))
        (fun n => (s.vPois o.a).getLsbD n || (s.vPois o.b).getLsbD n || (s.vPois o.c).getLsbD n) 0) ∧
    (∀ o : VdotsOp, s.cleared g [o.d] [o.a, o.b, o.c] →
      XDone (.vbdots g o) s 8 o.d
        (.ofNat 64 (vbdotsSum ((List.range 64).map fun n =>
          if (s.kr o.m).getLsbD n
          then some (laneContribution o.st (laneAt (s.vr o.a) n) (laneAt (s.vr o.b) n) (laneAt (s.vr o.c) n))
          else none)))
        (((s.vPois o.a ||| s.vPois o.b ||| s.vPois o.c) &&& s.kr o.m) != 0) 0)

/-- R43, R55 to R59, R70, R184, R185, R188, R190, R191, R366: the store, the load and the atomic at the head of a queue
perform. A store to global memory puts one uplink entry per line and changes no memory; one to the core's own tiles
writes exactly its bytes that are left. A load reads a copy or the home, a voted one takes the value its first copy
left, and one through a window what the other package answers; its last access binds the register. An atomic reads and
writes its home in one step, and gives the old value; one through a window gives what the other package answers. Of a
store with several lanes at tiles one lane is written at a time, in a free order, since lanes are not atomic with one
another (R68). The order in which a store's lines leave is the model's choice (log entry 43), and so is the old value of
an atomic that the host refuses: 0 with poison (log entry 39). -/
def Obligations.MemoryItemsPerform : Prop :=
  ∀ (s : State) (k : StrandKey) (h : HReg) (t : Strand) (e : Entry), s.freshHead k h = some (t, e) →
    (∀ i, e.body = .store i → s.releaseOk k h i.order i.scope = true →
      let left := tileLeft i (s.isVoted t)
      let u := s.storeNow t h e.n i fun line => s.voteTag? t e.n line
      (left.length ≤ 1 →
        exec (.storePerform k h) s = .next ((u.acquireIf t i.order i.scope).leaveHead k h e i.scope)) ∧
      (2 ≤ left.length → ∃ p ∈ left, exec (.storePerform k h) s =
        .next ((State.writePiece { s with free := s.free + 1 } ⟨k, h, e.n⟩ p).setHead k h
          { e with body := .store { i with written := p.access.lane :: i.written } })) ∧
      ((∀ p ∈ i.pieces, p.access.place.isTile = false) →
        left = [] ∧ u = { s with uplinks := u.uplinks, copies := u.copies } ∧
        u.uplinks = s.uplinks ++ (storeLines i).zipIdx.map fun l =>
          ⟨⟨k, h, e.n⟩, t.cluster, l.1, (Body.store i).touches, s.voteTag? t e.n l.2, i.order, i.scope⟩) ∧
      ((∀ p ∈ i.pieces, p.access.asid = none ∧ ∃ a, p.access.place = .tile a ∧ s.scratchUp (a / 2 ^ 24) = true ∧
          s.parkedTile? (a / 2 ^ 20) (a / 4096 % 256) = none) →
        left = i.pieces.filter (fun p => !i.written.contains p.access.lane) ∧
        u = { s with tiles := left.foldl (fun m p => m.store p.access.place.addr p.bytes p.poison) s.tiles } ∧
        ∀ a, (∀ p ∈ left, a < p.access.place.addr ∨ p.access.place.addr + p.bytes.length ≤ a) →
          u.tiles.read a = s.tiles.read a)) ∧
    (∀ l j a, e.body = .load l → l.todo[j]? = some a → s.isVoted t = false ∨ a.asid = none →
      (∀ o c, copyRead t l a.place = some o → s.copy? o a.place.line = some c →
        exec (.loadPerform k h j .none) s = .next (s.gotOne t h e l j a (c.read a.place l.bytes))) ∧
      (copyRead t l a.place = none → s.homeUp a.place →
        (a.place.isTile = false → s.homeClear t.cluster a.place l.bytes = true) →
        exec (.loadPerform k h j .none) s =
          .next ((s.noteCxl a.place (a.asid.getD 0) a.pin).gotOne t h e l j a (s.readHome a.place l.bytes .none)))) ∧
    (∀ l j a v x, e.body = .load l → l.todo[j]? = some a → a.place = .remote v x →
      let cast := if a.asid.isSome then s.castOf k e.n a.lane else none
      (cast = none ∧ copyRead t l a.place = none) ∨ (cast.isSome = true ∧ s.voteClear k a.place l.bytes = true) →
      s.routed v.node = true → s.homeClear t.cluster a.place l.bytes = true → ∀ w p,
      ∃ ask, SameMem s ask ∧ ask.me = s.me ∧ ask.others = s.others ∧
        exec (.loadPerform k h j (.value w p)) s = .next (ask.gotOne t h e l j a (bytesOf l.bytes w.toNat, p))) ∧
    (∀ l j a c b, e.body = .load l → l.todo[j]? = some a → a.asid.isSome = true → a.place.isRemote = false →
      s.crew? k.crew = some c → s.voteBufs.find? (fun b => b.tag == ⟨c.launch, c.index, k.idx, e.n, a.lane⟩) = some b →
      c.voted = true → c.copy ∈ b.waiting →
      ∃ u, SameMem s u ∧ u = { s with voteBufs := u.voteBufs } ∧
        exec (.loadPerform k h j .none) s =
          .next (u.gotOne t h e l j a (bytesOf l.bytes b.value.toNat, b.mask != 0)) ∧
        ∀ b' ∈ u.voteBufs, b' ∈ s.voteBufs ∨ (b' = { b with waiting := b.waiting.filter fun n => n != c.copy })) ∧
    (∀ l a v, l.todo = [a] → t.live = true →
      let u := s.gotOne t h e l 0 a v
      let got := fun n : Nat => (l.got ++ [(⟨a, wordOfBytes v.1, v.2⟩ : Got)]).find? fun g => g.access.lane == n
      (∀ d, l.dest = .v d → SameMem s u ∧ ∃ t', u.strand? k = some t' ∧ t'.queue h = (t.queue h).drop 1 ∧
        (∀ n : Fin 64, (t'.vr d)[n] = (match got n with
            | some g => g.value.setWidth 32
            | none => (t.vr d)[n]) ∧
          (t'.vPois d).getLsbD n = (match got n with
            | some g => g.poison
            | none => (t.vPois d).getLsbD n)) ∧
        ∀ r, r ≠ d → t'.vr r = t.vr r ∧ t'.vPois r = t.vPois r) ∧
      (∀ d m, l.dest = .all d m → l.got = [] → SameMem s u ∧ ∃ t', u.strand? k = some t' ∧
        t'.queue h = (t.queue h).drop 1 ∧
        (∀ n : Fin 64, (t'.vr d)[n] = (if m.getLsbD n then (wordOfBytes v.1).setWidth 32 else (t.vr d)[n]) ∧
          (t'.vPois d).getLsbD n = (if m.getLsbD n then v.2 else (t.vPois d).getLsbD n)) ∧
        ∀ r, r ≠ d → t'.vr r = t.vr r ∧ t'.vPois r = t.vPois r)) ∧
    (∀ l a v d sext, l.todo = [a] → l.got = [] → l.dest = .x d sext → t.live = true →
      let u := s.gotOne t h e l 0 a v
      SameMem s u ∧ ∃ t', u.strand? k = some t' ∧
        t'.xr d = (if d = 0 then 0 else extended sext l.bytes (wordOfBytes v.1)) ∧ t'.xPois d = (d != 0 && v.2) ∧
        (∀ r, r ≠ d → t'.xr r = t.xr r ∧ t'.xPois r = t.xPois r) ∧ t'.queue h = (t.queue h).drop 1 ∧
        t'.deferred = t.deferred ++ (if l.checked = true ∧ v.2 = true then [⟨a.va, l.pc⟩] else [])) ∧
    (∀ i, e.body = .atomic i → s.isVoted t = false → s.releaseOk k h i.order i.scope = true →
      let p := i.access.place
      let n := if i.w64 then 8 else 4
      let old := s.readHome p n .none
      let w := s.writeHome p (bytesOf n (atomNew i.kind i.w64 (wordOfBytes old.1) i.b i.c).toNat) (old.2 || i.poison)
      s.homeUp p → s.homeClear t.cluster p n = true → t.live = true →
      ∃ u, exec (.atomicPerform k h .none) s = .next u ∧ SameMem w u ∧
        ∃ t', u.strand? k = some t' ∧ t'.queue h = (t.queue h).drop 1 ∧
          (∀ d, i.dest = some d → t'.xr d = (if d = 0 then 0 else wordOfBytes old.1) ∧ t'.xPois d = (d != 0 && old.2)) ∧
          ∀ r, i.dest ≠ some r → t'.xr r = t.xr r ∧ t'.xPois r = t.xPois r) ∧
    (∀ i v x, e.body = .atomic i → i.access.place = .remote v x → s.routed v.node = true →
      s.releaseOk k h i.order i.scope = true →
      s.homeClear t.cluster i.access.place (if i.w64 then 8 else 4) = true → ∀ w p,
      ∃ u, exec (.atomicPerform k h (.value w p)) s = .next u ∧ SameMem s u ∧
        ∃ t', u.strand? k = some t' ∧ t'.queue h = (t.queue h).drop 1 ∧
          (∀ d, i.dest = some d → t'.xr d = (if d = 0 then 0 else if i.w64 then w else (w.setWidth 32).setWidth 64) ∧
            t'.xPois d = (d != 0 && p)) ∧
          ∀ r, i.dest ≠ some r → t'.xr r = t.xr r ∧ t'.xPois r = t.xPois r) ∧
    (∀ i a, e.body = .atomic i → i.access.place = .host a → s.releaseOk k h i.order i.scope = true →
      s.homeClear t.cluster i.access.place (if i.w64 then 8 else 4) = true → t.live = true →
      t.events.length < 8 →
      ∃ u, exec (.hostAtomicopError k h) s = .next u ∧ SameMem s u ∧
        ∃ t', u.strand? k = some t' ∧ t'.queue h = (t.queue h).drop 1 ∧
          t'.events = t.events ++ [⟨0x05, i.access.va, .ofNat 64 (7 * 2 ^ 12 + i.access.lane)⟩] ∧
          (∀ d, i.dest = some d → t'.xr d = 0 ∧ t'.xPois d = (d != 0)) ∧
          ∀ r, i.dest ≠ some r → t'.xr r = t.xr r ∧ t'.xPois r = t.xPois r)

/-- R42, R55, R62 to R66, R73, R209, R211, R214, R216, R219, R228, R235: the other items at the head of a queue, and
gates, perform; a voted item is brought to its voter instead. What reaches one barrier in one cycle is applied
together, and each barrier that it reached tests once. -/
def Obligations.OtherItemsPerform : Prop :=
  ∀ (s : State) (k : StrandKey) (h : HReg) (t : Strand) (e : Entry), s.freshHead k h = some (t, e) →
    let popped := s.popHead k h
    (SameMem s popped ∧ popped = { s with me := popped.me, others := popped.others } ∧
      popped.strand? k = some (t.setQueue h ((t.queue h).drop 1))) ∧
    (∀ i, e.body = .transfer i → s.releaseOk k h i.order i.scope = true → s.isVoted t = false ∨ i.via ≠ none →
      let lanes := s.sendLanes i.src
      exec (.transferPerform k h) s = .next (({ s with
        nextId := s.nextId + 1
        bag := s.bag ++ [⟨s.nextId, [⟨k, h, e.n⟩], some k, i.dst, i.via, lanes.flatMap fun l => bytesOf 4 l.1.toNat,
          lanes.map (·.2), t.part, t.secure, none, none, i.order, i.scope⟩] } : State).leaveHead k h e i.scope)) ∧
    (∀ i, e.body = .tag i → i.tile < 256 → s.parkedTile? t.core i.tile = none → t.live = true → t.events.length < 8 →
      ∃ u, exec (.tagItemPerform k h) s = .next u ∧
        let tag := s.tag t.core i.tile
        let put := fun (x : Tag) => u.tags = mapSet .clear (256 * t.core + i.tile) x s.tags
        (∃ t' a, u.strand? k = some t' ∧ t'.queue h = (t.queue h).drop 1 ∧ t'.events = t.events ++
          (if i.kind = .mark ∧ tag.state = Tag.full then [⟨Cause.tileOverrun, a, num i.rel⟩] else [])) ∧
        (i.kind ≠ .zero → SameMem s u) ∧
        (i.kind = .take → put { tag with state := Tag.empty, xdone := 0 } ∧
          u.bag = s.bag ++ if tag.notify = 0 then []
            else [⟨s.nextId, [], some k, tag.notify, s.tileVia t.part tag.notify, [], [], t.part, t.secure, none, none,
              .plain, .domain⟩]) ∧
        (i.kind ≠ .take → u.bag = s.bag) ∧
        (i.kind = .mark →
          (tag.state = Tag.poison → u.tags = s.tags) ∧ (tag.state = Tag.full → put { tag with overrun := true }) ∧
          (tag.state ≠ Tag.poison → tag.state ≠ Tag.full → put { tag with state := Tag.full })) ∧
        (i.kind = .pois → put { tag with state := Tag.poison }) ∧
        (∀ v, i.kind = .scale v → put { tag with scale := v }) ∧
        (i.kind = .zero → put ⟨Tag.empty, 0, 0, false, 0, 0⟩ ∧ u.dev = s.dev ∧ u.host = s.host ∧
          u.tiles = s.tiles.store (t.core * 2 ^ 20 + i.tile * 4096) (List.replicate 4096 0) false)) ∧
    (∀ i, e.body = .bar i → s.handleClear k h i.scope = true → s.parkedBar? t.core i.bar = none → t.live = true →
      t.events.length < 8 →
      (∃ u, exec (.barrierItemPerform k ⟨h, []⟩) s = .next u ∧ SameMem s u ∧ u.bag = s.bag ∧ u.tags = s.tags) ∧
      ((s.barrier t.core i.bar).expect ≠ 0 →
      ∃ u, exec (.barrierItemPerform k ⟨h, []⟩) s = .next u ∧ SameMem s u ∧ u.bag = s.bag ∧ u.tags = s.tags ∧
        let b := s.barrier t.core i.bar
        let tooMany := i.arrive = true ∧ b.arrived = b.expect
        let out := ∃ w : Word, i.bytes = some w ∧ ¬(-2 ^ 31 ≤ b.cur + w.toNat ∧ b.cur + w.toNat < 2 ^ 31)
        (∃ t', u.strand? k = some t' ∧ t'.queue h = (t.queue h).drop 1 ∧
          (∀ d, i.dest = some d → t'.xr d = (if d = 0 then 0 else b.phase.setWidth 64) ∧ t'.xPois d = false) ∧
          (∀ r, i.dest ≠ some r → t'.xr r = t.xr r ∧ t'.xPois r = t.xPois r) ∧
          (¬tooMany → ¬out → t'.events = t.events) ∧
          (tooMany ∨ out → t'.events = t.events ++ [⟨Cause.barrierOverrun, 0, num i.rel⟩])) ∧
        ∃ b', u.bars = mapSet .clear (128 * t.core + i.bar) b' s.bars ∧
          (tooMany ∨ out → b'.poison = true ∧ b'.phase = b.phase) ∧
          (¬tooMany → ¬out → b' =
            let a := { b with
              arrived := if i.arrive then b.arrived + 1 else b.arrived
              cur := match i.bytes with
                | some w => b.cur + w.toNat
                | none => b.cur }
            if a.poison = false ∧ a.arrived = a.expect ∧ a.cur = 0
            then { a with phase := a.phase + 1, arrived := 0, cur := a.next, next := 0 } else a))) ∧
    (∀ m y z, s.itemEvent k h = some y → y.1.barEvent m = some z → (z.2.any fun b => y.2.contains b) = true →
      exec (.barrierItemPerform k ⟨h, [m]⟩) s =
        .next ((y.2 ++ z.2).eraseDups.foldl (fun (t : State) (b : Nat × Nat) => t.testBar b.1 b.2) z.1)) ∧
    (∀ i j, e.body = .copy i → s.handleClear k h i.scope = true → s.isVoted t = false →
      s.jobAt? i.engine i.slot = some j →
      exec (.copyCommandPerform k h) s = .next (({ s with
        jobs := (s.jobs.filter fun x => !(x.engine == i.engine && x.slot == i.slot)) ++
          [{ j with state := .queued }] } : State).popHead k h)) ∧
    (∀ i, e.body = .ring i → s.releaseOk k h i.order i.scope = true → (s.isVoted t = true → i.fn = .put ∨ i.fn = .mark) →
      (i.via = none →
        let n := fieldOf i.ring 5 0
        (s.liveUnit? n = none ∨ s.ringReceive n t.part i = .refused → exec (.ringItemPerform k h .none) s =
          .next ((s.raiseTo k Cause.ring i.ring (num i.fn.code)).ringResult k h i.dest (.allOnes 64) false)) ∧
        ∀ w u, s.ringReceive n t.part i = .done w u →
          exec (.ringItemPerform k h .none) s = .next (u.ringResult k h i.dest w false))) ∧
    (∀ i v, e.body = .ring i → s.releaseOk k h i.order i.scope = true → i.via = some v → s.routed v.node = true →
      (∀ w p, ∃ u, exec (.ringItemPerform k h (.value w p)) s = .next u ∧ SameMem s u ∧
        ∃ t', u.strand? k = some t' ∧ t'.queue h = (t.queue h).drop 1 ∧
          (∀ d, i.dest = some d → t'.xr d = (if d = 0 then 0 else w) ∧ t'.xPois d = (d != 0 && p)) ∧
          ∀ r, i.dest ≠ some r → t'.xr r = t.xr r ∧ t'.xPois r = t.xPois r) ∧
      (t.live = true → t.events.length < 8 →
        ∃ u, exec (.ringItemPerform k h .ring) s = .next u ∧ SameMem s u ∧
          ∃ t', u.strand? k = some t' ∧ t'.queue h = (t.queue h).drop 1 ∧
            t'.events = t.events ++ [⟨0x10, i.ring, .ofNat 64 i.fn.code⟩] ∧
            ∀ d, i.dest = some d → t'.xr d = (if d = 0 then 0 else .allOnes 64) ∧ t'.xPois d = false)) ∧
    (∀ g, e.body = .gate g → s.allPerformed g.needs g.scope = true →
      (g.recv = none → exec (.gate k h) s = .next popped) ∧
      ∀ tile rel, g.recv = some (tile, rel) →
        ((s.tag t.core tile).state = Tag.full → exec (.gate k h) s =
          .next (((s.takeTile t t.core tile).acquire t.core t.cluster g.scope).popHead k h)) ∧
        ((s.tag t.core tile).state = Tag.poison → exec (.gate k h) s =
          .next ((s.raiseTo k Cause.poison 0 (num rel)).popHead k h))) ∧
    (∀ c, s.crew? k.crew = some c → c.voted = true →
      let tag : VoteTag := ⟨c.launch, c.index, k.idx, e.n, 0⟩
      let brought := fun (u : State) (b : Body) => ({ u.markSent k h e with
        votes := s.votes ++ [⟨tag, [⟨c.copy, c.core, k, .item b⟩], false, 0, 0, none⟩] } : State)
      (∀ v ∈ s.votes, v.tag ≠ tag) →
      (∀ i, e.body = .atomic i → i.access.place.isRemote = false → s.releaseOk k h i.order i.scope = true →
        s.homeClear t.cluster i.access.place (if i.w64 then 8 else 4) = true →
        exec (.atomicPerform k h .none) s = .next (brought s (.atomic i))) ∧
      (∀ i, e.body = .transfer i → i.via = none → s.releaseOk k h i.order i.scope = true →
        ∃ src, exec (.transferPerform k h) s = .next (brought s (.transfer { i with src := src })) ∧
          s.sendLanes src = s.sendLanes i.src) ∧
      (∀ i, e.body = .copy i → s.handleClear k h i.scope = true →
        exec (.copyCommandPerform k h) s = .next (brought s (.copy i))) ∧
      (∀ i, e.body = .ring i → i.via = none → i.fn ≠ .put → i.fn ≠ .mark → s.releaseOk k h i.order i.scope = true →
        exec (.ringItemPerform k h .none) s = .next (brought s (.ring i))))

/-- R42, R52, R54, R56, R65, R197, R395: stores on their way, copies, transfers in the bag, vote windows and the
matrix unit. Which votes a window closes, what a closed vote keeps and how a late copy settles it, and when an entry of
a vote buffer is discarded, are the model's choices (log entry 22). -/
def Obligations.StoresAndTransfersTravel : Prop :=
  ∀ s : State,
    (∀ c e, s.uplinks.find? (fun e => e.cluster == c) = some e →
      let sent : State := { s with uplinks := s.uplinks.eraseP fun e => e.cluster == c }
      (e.pieces.any (fun p => p.access.place.isRemote) = true →
        exec (.uplink c) s = .next { sent with fabric := s.fabric ++ [e] }) ∧
      (e.vote = none →
        ((∀ p ∈ e.pieces, ∃ a, p.access.place = .dev a ∧ s.cxlLost a = false) →
          ∃ u, exec (.uplink c) s = .next u ∧ u.uplinks = sent.uplinks ∧ u.fabric = s.fabric ∧
            u.dev = e.pieces.foldl (fun m p => m.store (s.storeAddr p.access.place.addr) p.bytes p.poison) s.dev ∧
            u.host = s.host ∧ u.tiles = s.tiles ∧
            ∀ a, (∀ p ∈ e.pieces, a < s.storeAddr p.access.place.addr ∨
              s.storeAddr p.access.place.addr + p.bytes.length ≤ a) → u.dev.read a = s.dev.read a) ∧
        (e.pieces ≠ [] → (∀ p ∈ e.pieces, ∃ a, p.access.place = .host a) →
          ∃ u, exec (.uplink c) s = .next u ∧ u.uplinks = sent.uplinks ∧ u.fabric = s.fabric ∧
            u.host = e.pieces.foldl (fun m p => m.store p.access.place.addr p.bytes p.poison) s.host ∧
            u.dev = s.dev ∧ u.tiles = s.tiles ∧
            ∀ a, (∀ p ∈ e.pieces, a < p.access.place.addr ∨ p.access.place.addr + p.bytes.length ≤ a) →
              u.host.read a = s.host.read a) ∧
        ((∀ p ∈ e.pieces, ∃ a, p.access.place = .tile a ∧ s.scratchUp (a / 2 ^ 24) = true ∧
            s.parkedTile? (a / 2 ^ 20) (a / 4096 % 256) = none) →
          ∃ u, exec (.uplink c) s = .next u ∧ u.uplinks = sent.uplinks ∧ u.fabric = s.fabric ∧
            u.tiles = e.pieces.foldl (fun m p => m.store p.access.place.addr p.bytes p.poison) s.tiles ∧
            u.dev = s.dev ∧ u.host = s.host ∧
            ∀ a, (∀ p ∈ e.pieces, a < p.access.place.addr ∨ p.access.place.addr + p.bytes.length ≤ a) →
              u.tiles.read a = s.tiles.read a)) ∧
      (∀ w tag, e.pieces.any (fun p => p.access.place.isRemote) = false → e.vote = some tag →
        s.crew? e.ref.key.crew = some w → (∀ v ∈ s.votes, v.tag ≠ tag) →
        exec (.uplink c) s = .next { sent with
          votes := s.votes ++ [⟨tag, [⟨w.copy, w.core, e.ref.key, .entry e⟩], false, 0, 0, none⟩] })) ∧
    (∀ i e p v a, s.fabric[i]? = some e → e.pieces.head? = some p → p.access.place = .remote v a →
      s.routed v.node = true →
      (∀ f ∈ s.fabric.take i, ∀ q ∈ f.pieces, ∀ p ∈ e.pieces,
        q.access.place.overlap q.bytes.length p.access.place p.bytes.length = false) →
      (∃ u, exec (.fabric i .none) s = .next u ∧ SameMem s u ∧ u.fabric = s.fabric.eraseIdx i ∧
        u.uplinks = s.uplinks) ∧
      (∀ t, s.strand? e.ref.key = some t → t.live = true → t.events.length < 8 →
        ∃ u, exec (.fabric i .refused) s = .next u ∧ SameMem s u ∧ u.fabric = s.fabric.eraseIdx i ∧
          u.uplinks = s.uplinks ∧ ∃ t', u.strand? e.ref.key = some t' ∧ t'.events = t.events ++
            [⟨0x05, p.access.va, .ofNat 64 (6 * 2 ^ 12 + p.access.lane)⟩])) ∧
    (∀ o p, s.fillable p = true → s.copy? o p = none → p.isRemote = false →
      ∃ u, exec (.fill o p) s = .next u ∧ SameMem s u ∧ u = { s with copies := u.copies, hot := u.hot } ∧
        ∃ c, u.copies = c :: s.copies ∧ c.owner = o ∧ c.line = p ∧
          (∀ n, o = .cluster n → c = s.lineValue n p ([], [])) ∧
          (∀ n, o = .core n → match s.copy? (.cluster (n / 16)) p with
            | some d => c = { d with owner := o }
            | none => c = { s.lineValue (n / 16) p ([], []) with owner := o })) ∧
    (∀ o p c, s.copy? o p = some c →
      exec (.drop o p) s = .next { s with copies := s.copies.filter fun c => !(c.owner == o && c.line == p.bare) }) ∧
    (∀ id e w, s.bag.find? (fun e => e.id == id) = some e → s.isOwnNode (gtNode e.dst) = true →
      s.tileOwner? (gtCore e.dst) (gtTile e.dst) = some w → w.voted = false → s.coreOpen (gtCore e.dst) = true →
      s.parkedTile? (gtCore e.dst) (gtTile e.dst) = none → e.bytes.length = 4 * e.poison.length →
      gtOffset e.dst + e.bytes.length ≤ 4096 →
      e.ring = none ∨ ((s.tag (gtCore e.dst) (gtTile e.dst)).state ≠ Tag.full ∧
        (s.tag (gtCore e.dst) (gtTile e.dst)).xdone ≠ 63) →
      let n := 256 * gtCore e.dst + gtTile e.dst
      let a := tileAddr (gtCore e.dst) (gtTile e.dst) (gtOffset e.dst)
      let tag := s.tag (gtCore e.dst) (gtTile e.dst)
      ∃ u, exec (.deliver id .here) s = .next u ∧
        u.bag = s.bag.filter (fun f => f.id != id) ∧
        (tag.state ≠ Tag.full → tag.xdone ≠ 63 →
          u.dev = s.dev ∧ u.host = s.host ∧
          (∀ b, b < a ∨ a + e.bytes.length ≤ b → u.tiles.read b = s.tiles.read b) ∧
          (s.tiles.wf = true → ∀ j (hj : j < e.bytes.length), u.tiles.read (a + j) = e.bytes[j]) ∧
          u.tags = mapSet .clear n { tag with
            xdone := tag.xdone + 1
            state := if tag.state = Tag.poison ∨ (e.ring = none ∧ e.poison.any (fun p => p) = true) then Tag.poison
              else if tag.xdone + 1 = tag.xexp ∧ tag.xexp ≠ 0 then Tag.full else Tag.filling } s.tags) ∧
        (tag.state = Tag.full ∨ tag.xdone = 63 → e.ring = none →
          u.tags = mapSet .clear n { tag with overrun := true } s.tags ∧ ∀ k t, e.sender = some k → s.strand? k = some t → t.live = true → t.events.length < 8 →
            (s.crew? k.crew).isSome = true ∨ k.crew = 0 →
            SameMem s u ∧ ∃ t', u.strand? k = some t' ∧ t'.events = t.events ++ [⟨Cause.tileOverrun, e.dst, 0⟩])) ∧
    (∀ i v, s.votes[i]? = some v → v.closed = none → v.arrivals ≠ [] →
      let missing := (s.copyNumbers v.tag).filter fun c => !(v.arrivals.any fun a => a.copy == c.1)
      (v.performed = true → missing = [] →
        exec (.voteWindowExpiry i) s = .next { s with votes := s.votes.filter fun w => w.tag != v.tag }) ∧
      ∃ u, exec (.voteWindowExpiry i) s = .next u ∧ u.votes = if missing = []
        then s.votes.filter fun w => w.tag != v.tag
        else s.votes.map fun w => if w.tag = v.tag then { v with closed := some (missing.map (·.1)) } else w) ∧
    (∀ i b, s.voteBufs[i]? = some b →
      ∃ u, exec (.voteBufferDiscard i) s = .next u ∧ u.voteBufs = s.voteBufs.eraseIdx i ∧ u.dev = s.dev ∧
        u.tiles = s.tiles ∧ u.me = s.me ∧ u.others = s.others ∧
        u.votes = s.votes ++ [⟨b.tag, [], true, 0, 0, some b.waiting⟩] ∧
        ((∀ c ∈ s.copyNumbers b.tag, c.1 ∉ b.waiting) → u.host = s.host)) ∧
    (∀ core, (∃ e ∈ s.matrix, e.1 = core) →
      exec (.matrixInstructionComplete core) s = .next { s with matrix := s.matrix.eraseP fun e => e.1 == core })

/-- R29, R30, R60, R62, R160, R185, R209, R219, R224, R340: how a wait ends, the limit of a timed wait, and the events,
the deferred traps and the fetch faults taken at a boundary. TRAP_PC of an event that finds PARK or WAITI waiting is the
next instruction's. The record of a SPAWN that another package answers with is offered, or raises POISON. That a
deferred POISON is precise, with ASYNC 0, is the model's reading (log entry 15), the premise `unheld` leaves out the
replay of held candidates (log entry 17), and how a trap leaves a wait is the model's choice (log entry 41). -/
def Obligations.WaitsAndEvents : Prop :=
  ∀ (s u : State) (k : StrandKey), s.ready? k = some u →
    let unheld := ∀ r ∈ u.rings, ∀ h ∈ r.2.holds, h.crew ≠ u.me.key.crew
    (∀ w, u.me.wait = some w → u.me.hasEvent = false → u.me.deferred = [] →
      let again := exec (.waitEnd k .none) s = .next (u.onMe fun t => { t with wait := none })
      let ends := fun (v : State) => exec (.waitEnd k .none) s = .next (v.advance 8)
      (∀ xs vs, w = .regs xs vs → u.me.pending xs vs = false → again) ∧
      (∀ h n, w = .queue h n → (u.me.queue h).length + n ≤ 64 → again) ∧
      (∀ rs sc, w = .items rs sc → u.allPerformed rs sc = true → again) ∧
      (w = .engineSlots → u.freeSlots u.me.cluster ≠ [] → again) ∧
      (∀ q a, w = .walk q a → (u.cached? q).isSome = true ∨ u.walkable q = false ∨
        u.asidOwned q.asid u.me.part = false → again) ∧
      (∀ n q ats, w = .ringPage n q ats → (if ats then u.atsAsked q else u.pageAsked q) = false → again) ∧
      (∀ q a, w = .hostPage q a → u.pageAsked q = false → again) ∧
      (∀ q a, w = .ats q a → u.atsAsked q = false → again) ∧
      (∀ a, w = .voteBuffer a → u.voteBufferFull a = false → again) ∧
      (∀ as, w = .matrix as → u.matrixReady as = true → again) ∧
      (∀ n, w = .controller n → u.pulse? n = none → again) ∧
      (∀ c tile rel sc seen, w = .tile c tile rel sc seen →
        (∀ st, seen = some st → ends ((u.setC c (st == Tag.full)).acquireMe sc)) ∧
        (seen = none → (u.tag u.me.core tile).state = Tag.full ∨ (u.tag u.me.core tile).state = Tag.poison →
          ends ((u.setC c ((u.tag u.me.core tile).state == Tag.full)).acquireMe sc))) ∧
      (∀ tile rel sc h seen, w = .take tile rel sc h seen →
        seen = some Tag.poison ∨ (seen = none ∧ (u.tag u.me.core tile).state = Tag.poison) →
        exec (.waitEnd k .none) s = .next (u.takeTrap 0x07 0 (num rel))) ∧
      (∀ tile rel sc h seen, w = .take tile rel sc h seen → seen = some Tag.full ∨ (seen = none ∧
          (u.tag u.me.core tile).state = Tag.full ∧ u.takePending u.me.core tile = false) →
        u.room h 1 → ∃ v, exec (.waitEnd k .none) s = .next v ∧
          v.me.queue h = u.me.queue h ++ [⟨u.me.appended, .tag ⟨.take, tile, rel, sc⟩, false⟩] ∧
          v.me.pc = u.me.pc + 8 ∧ v.me.wait = none ∧ SameMem u v) ∧
      (∀ b rel ph sc seen, w = .barrier b rel ph sc seen →
        (seen = some false ∨ (seen = none ∧ (u.barrier u.me.core b).poison = false ∧
          (u.barrier u.me.core b).phase ≠ ph) → ends (u.acquireMe sc)) ∧
        (seen = some true ∨ (seen = none ∧ (u.barrier u.me.core b).poison = true) →
          exec (.waitEnd k .none) s = .next (u.takeTrap 0x07 0 (num rel)))) ∧
      (∀ rs h sc acq, w = .handles rs h sc acq → u.allPerformed rs sc = true →
        ends (if acq then u.acquireMe sc else u)) ∧
      (∀ id x, w = .removal id → u.removals.find? (fun x => x.id == id) = some x → u.removalDone x = true →
        ends { u with removals := u.removals.filter fun x => x.id != id }) ∧
      (∀ d ring sc c v, w = .candidate d ring sc →
        u.takeable? (fieldOf ring 5 0) (fieldOf ring 7 6) = some c →
        u.trgnext (fieldOf ring 5 0) (fieldOf ring 7 6) c d sc = .ok v → ends v) ∧
      (∀ park st lim, w = .event park true st lim → park = true → ends u) ∧
      (∀ ch st lim, w = .event false ch st lim → u.me.isInsole = false → u.recordsWait u.me.part = true → ends u) ∧
      (∀ park ch st lim, w = .event park ch st lim → u.me.events ≠ [] → ends u) ∧
      (∀ via fn ring d d2 dst sc, w = .ringUnit via fn ring d d2 dst sc →
        (∀ v p, ∃ t, exec (.waitEnd k (.value v p)) s = .next t ∧ t.me.pc = u.me.pc + 8 ∧ t.me.wait = none ∧
          t.me.issued = u.me.issued ∧ (dst = none → SameMem u t) ∧
          (d2 ≠ some d → t.xr d = (if d = 0 then 0 else v) ∧ t.xPois d = (d != 0 && p)) ∧
          ∀ r, r ≠ d → d2 ≠ some r → t.xr r = u.xr r ∧ t.xPois r = u.xPois r) ∧
        (fn = 3 → exec (.waitEnd k .ring) s = .next (u.takeTrap 0x10 ring 3))) ∧
      (∀ v a va d h sc, w = .record v a va d h sc → u.routed v.node = true → ∀ bs,
        exec (.waitEnd k (.bytes bs true)) s = .next ((u.takeTrap 0x07 0 0).endInstr) ∧
        (va.toNat % 64 = 0 → u.voteTag? u.me u.me.appended spawnPart = none →
          exec (.waitEnd k (.bytes bs false)) s =
            .next ((u.spawnWith bs d ⟨u.earlier u.me h, sc, none⟩).advance 8)))) ∧
    (∀ park ch st lim, u.me.wait = some (.event park ch st (some lim)) → u.me.deferred = [] →
      ∃ v, exec (.timedWaitExpiry k) s = .next v ∧ v = { u with me := v.me, cycles := v.cycles } ∧
        v.me = { u.me with pc := u.me.pc + 8, wait := none, counted := false } ∧
        (lim ≤ (u.coreCycles u.me.core - st).toNat → v.cycles = u.cycles)) ∧
    (∀ ev es, u.me.events = ev :: es → u.me.inHandler = false → u.me.deferred = [] →
      ∃ v, exec (.eventTaken k) s = .next v ∧ v = { u with me := v.me } ∧
        v.me.trapCause = num ev.cause ∧ v.me.trapAddr = ev.addr ∧ v.me.trapInfo = ev.info ∧ v.me.async = true ∧
        v.me.inHandler = true ∧ v.me.prev = u.me.level.code ∧ v.me.events = es ∧ v.me.wait = none ∧
        v.me.level = (if u.me.isInsole then .machine else .supervisor) ∧ v.me.pc = u.trapVec ∧
        v.xr 63 = u.trapScratch ∧ v.xPois 63 = false ∧ (∀ r, r ≠ 63 → v.xr r = u.xr r ∧ v.xPois r = u.xPois r) ∧
        v.me.trapPc = (match u.me.wait with
          | some (.event _ _ _ _) => u.me.pc + 8
          | _ => u.me.pc)) ∧
    (∀ d ds, u.me.deferred = d :: ds → u.me.inHandler = false → unheld →
      ∃ v, exec (.deferredPoison k) s = .next v ∧ SameMem u v ∧
        v.me.trapCause = 0x07 ∧ v.me.trapAddr = d.addr ∧ v.me.trapInfo = d.pc ∧ v.me.trapPc = u.me.pc ∧
        v.me.async = false ∧ v.me.inHandler = true ∧ v.me.prev = u.me.level.code ∧ v.me.deferred = ds ∧
        v.me.wait = none ∧ v.me.pc = u.trapVec ∧ v.xr 63 = u.trapScratch ∧
        ∀ r, r ≠ 63 → v.xr r = u.xr r ∧ v.xPois r = u.xPois r) ∧
    (∀ w c a i, u.issuable = true → u.fetch = Fetched.stop w (Eff.trap c a i) → w.me.inHandler = false →
      ∃ v, exec (.instructionFetchFault k) s = .next v ∧ SameMem w v ∧
        v.me.trapCause = num c ∧ v.me.trapAddr = a ∧ v.me.trapInfo = i ∧ v.me.trapPc = u.me.pc ∧
        v.me.async = false ∧ v.me.inHandler = true ∧ v.me.prev = u.me.level.code ∧ v.me.issued = u.me.issued ∧
        v.me.pc = w.trapVec ∧ v.xr 63 = w.trapScratch ∧ ∀ r, r ≠ 63 → v.xr r = u.xr r ∧ v.xPois r = u.xPois r)

/-- R325, R327, R330, R332 to R335, R373: walks, Translation Requests, page requests and invalidations. A walk's leaf is
cached in place of those it overlaps, and a fault is not cached; an answer of the host that permits an access is kept;
a refusal is the trap of the access that waits for it; what a removal names is gone at once, and its end waits for the
accesses that used it. Which leaves a full cache gives up, and that Success on a page request drops the ATC entries that
cover the page, are the model's choice (log entry 27). -/
def Obligations.TranslationEvents : Prop :=
  ∀ s : State,
    let walked := fun k => s.walks.filter fun w => w != k
    (∀ k l f ts, s.walkRuns k = true → s.walkable k = true → s.walkOutcome k f = some (.ok l, ts) →
      ∃ t, exec (.pageWalkEnd k f) s = .next t ∧ t = { s with walks := walked k, tlb := t.tlb, upper := t.upper } ∧
        l ∈ t.tlb ∧ (∀ m ∈ t.tlb, m = l ∨ m ∈ s.tlb ∧
          ¬(m.unit = l.unit ∧ m.asid = l.asid ∧ m.va < l.va + l.size ∧ l.va < m.va + m.size)) ∧
        (s.tlb.countP (fun m => m.unit == l.unit) < leafCap l.unit →
          ∀ m ∈ s.tlb, m.unit ≠ l.unit ∨ m.asid ≠ l.asid ∨ l.va + l.size ≤ m.va ∨ m.va + m.size ≤ l.va → m ∈ t.tlb) ∧
        ∀ u ∈ t.upper, u ∈ s.upper ∨ ((u.level, u.table) ∈ ts ∧ u.die = unitDie k.unit ∧ u.asid = k.asid ∧
          u.va ≤ k.va.toNat ∧ k.va.toNat < u.va + tableSpan u.level)) ∧
    (∀ k lv f ts, s.walkRuns k = true → s.walkable k = true → s.walkOutcome k f = some (.error lv, ts) →
      (∀ t ∈ s.others, ∀ a, t.wait ≠ some (.walk k a)) →
      ((∀ a, s.me.wait ≠ some (.walk k a)) → exec (.pageWalkEnd k f) s = .next { s with walks := walked k }) ∧
      ∀ a, s.me.wait = some (.walk k a) → s.onCore s.me = true → s.me.deferred = [] →
        s.asidOwned s.me.asid.toNat s.me.part = true →
        (a.waiter = .plain → exec (.pageWalkEnd k f) s =
          .next (({ s with walks := walked k } : State).takeTrap 0x04 a.addr (num (lv * 2 ^ 8) ||| num a.lane))) ∧
        (∀ d, a.waiter = .spec d → exec (.pageWalkEnd k f) s =
          .next ((({ s with walks := walked k } : State).setX d 0 true).advance 8))) ∧
    (∀ k f, s.walkRuns k = true → s.walkable k = false → k ∈ s.walks →
      exec (.pageWalkEnd k f) s = .next { s with walks := walked k }) ∧
    (∀ k q size frame r w x, s.ats.find? (s.sameAts k) = some q → 12 ≤ size → r = true ∨ w = true →
      let e := atcEntry q.key (s.pasid k.asid) size frame r w x
      ∃ t, exec (.atsTranslationCompletion k (.page size frame r w x)) s = .next t ∧
        t = { s with ats := s.ats.filter (fun r => !s.sameAts k r), atc := t.atc } ∧ e ∈ t.atc ∧
        (∀ m ∈ t.atc, m = e ∨ m ∈ s.atc ∧
          ¬(m.die = e.die ∧ m.pasid = e.pasid ∧ m.va < e.va + e.size ∧ e.va < m.va + m.size)) ∧
        (s.atc.countP (fun m => m.die == e.die) < 8192 → ∀ m ∈ s.atc,
          m.die ≠ e.die ∨ m.pasid ≠ e.pasid ∨ e.va + e.size ≤ m.va ∨ m.va + m.size ≤ e.va → m ∈ t.atc)) ∧
    (∀ k q, s.ats.find? (s.sameAts k) = some q → q.units = [] →
      let asked := { s with ats := s.ats.filter fun r => !s.sameAts k r }
      (s.atsHolders k = [] → exec (.atsTranslationCompletion k .error) s = .next asked ∧
        ∀ size frame x, 12 ≤ size → exec (.atsTranslationCompletion k (.page size frame false false x)) s = .next asked) ∧
      ∀ k' a, s.atsHolders k = [(s.me.key, (k', a))] → a.waiter = .plain →
        (s.onCore s.me = true → s.me.deferred = [] → s.asidOwned s.me.asid.toNat s.me.part = true →
          exec (.atsTranslationCompletion k .error) s = .next (asked.takeTrap 0x06 a.addr (0xFF00#64 ||| num a.lane))) ∧
        ∀ size frame x, 12 ≤ size → s.priStopped.contains (s.asidFn k'.asid) = false →
          ∃ t, exec (.atsTranslationCompletion k (.page size frame false false x)) s = .next t ∧
            t = { asked with pri := t.pri, out := t.out, me := { s.me with wait := some (.hostPage k' a) } } ∧
            t.pageAsked k' = true) ∧
    (∀ k q, s.pri.find? (fun r => s.samePri k r && r.sent) = some q →
      let kept := s.pri.filter fun r => !s.samePri q.key r
      (∃ t, exec (.pageRequestResponse k .success) s = .next t ∧
        t = { s with pri := t.pri, atc := t.atc, out := t.out } ∧
        (∀ r ∈ t.pri, ¬(s.pasid r.key.asid = s.pasid k.asid ∧ r.key.va = k.va ∧ r.key.kind = k.kind)) ∧
        ∀ e, e ∈ t.atc ↔ e ∈ s.atc ∧ ¬(e.pasid = s.pasid k.asid ∧ e.va ≤ k.va.toNat ∧ k.va.toNat < e.va + e.size)) ∧
      (q.units = [] → (∀ r ∈ s.pri, r.fn = q.fn → r.sent = true) →
        let stopped := { s with pri := kept, priStopped := natsInsert q.fn s.priStopped }
        (s.pageHolders q.key = [] →
          exec (.pageRequestResponse k .invalid) s = .next { s with pri := kept } ∧
          exec (.pageRequestResponse k .failure) s = .next stopped) ∧
        ∀ a, s.pageHolders q.key = [(s.me.key, a)] → a.waiter = .plain → s.onCore s.me = true → s.me.deferred = [] →
          s.me.inHandler = false → s.asidOwned s.me.asid.toNat s.me.part = true →
          exec (.pageRequestResponse k .invalid) s =
            .next (({ s with pri := kept } : State).takeTrap 0x06 a.addr (0x0100#64 ||| num a.lane)) ∧
          exec (.pageRequestResponse k .failure) s = .next (stopped.takeTrap 0x06 a.addr (0x0F00#64 ||| num a.lane)))) ∧
    (∀ pasid va size itag,
      ∃ t, exec (.atsInvalidateRequest pasid va size itag) s = .next t ∧
        t = { s with atc := t.atc, removals := t.removals, nextId := s.nextId + 1, out := t.out } ∧
        (∀ e, e ∈ t.atc ↔ e ∈ s.atc ∧ ¬(e.pasid = pasid ∧ e.va < va + size ∧ va < e.va + e.size)) ∧
        ∃ r, t.removals = r :: s.removals ∧ r.itag = some itag ∧ r.xlinv = false ∧ r.id = s.nextId) ∧
    (∀ itag r, s.removals.find? (fun r => r.itag == some itag && s.removalDone r) = some r →
      exec (.invalidateCompletion itag) s = .next { s with
        removals := s.removals.filter fun x => x.id != r.id
        out := .invalidated itag :: s.out }) ∧
    (∀ asid : BitVec 16, s.barOpen (.fn 0) = true →
      let by_ := Agent.fn 0
      ((s.bar 0x404000).getLsbD 63 = true → exec (.xlinv by_ asid) s = .next s) ∧
      ((s.bar 0x404000).getLsbD 63 = false →
        ∃ t, exec (.xlinv by_ asid) s = .next t ∧
          t = { s with tlb := t.tlb, upper := t.upper, atc := t.atc, removals := t.removals, nextId := s.nextId + 1
                       bar0 := t.bar0 } ∧
          (∀ l, l ∈ t.tlb ↔ l ∈ s.tlb ∧ l.asid ≠ asid.toNat) ∧
          (∀ u, u ∈ t.upper ↔ u ∈ s.upper ∧ u.asid ≠ asid.toNat) ∧
          t.bar0 = (s.setBar 0x404000 (1#64 <<< 63)).bar0 ∧
          ∃ r, t.removals = r :: s.removals ∧ r.xlinv = true)) ∧
    (∀ r, s.removals.find? (fun r => r.xlinv) = some r → s.removalDone r = true →
      exec .xlinvDone s = .next ({ s with removals := s.removals.filter fun x => x.id != r.id }.setBar 0x404000 0))

/-- R14 to R16, R28, R32, R34, R304 to R306, R310, R311, R313 to R315: records are submitted, and a partition's
dispatcher places crews, counts up waits and levels, and ends launches. A placed crew starts as R14 to R16 say: its
strands' registers, its tiles zero. In which storage slot of its queue a record is written, and that it is accepted
where R354 lets nothing be written there, is the model's choice (log entry 21), and so is that a poisoned wait word does
not satisfy the wait (log entry 23). -/
def Obligations.LaunchesRun : Prop :=
  ∀ s : State,
    (∀ n l d p, s.launch? n = some l → s.chosen? l.part = some (l, d) → s.stackTooLarge l = false → l.left = false →
      s.savedNext l = [] → l.record.voted = false →
      s.spotOk l p l.record.strands l.record.tiles l.record.barriers l.record.accums = true →
      s.stacksOk l p.stackBlocks = true →
      ∃ t c, exec (.crewPlacement n [p]) s = .next t ∧ t.crews = s.crews ++ [c] ∧ t.me = s.me ∧ t.dev = s.dev ∧
        t.host = s.host ∧ c.uid = s.nextId ∧ t.nextId = s.nextId + 1 ∧ c.launch = n ∧ c.index = l.placed ∧
        c.core = p.core ∧ c.place = .placed ∧
        t.launches = s.launches.map (fun m => if m.uid = n then { m with
          placed := m.placed + 1, level := m.record.prio, reserve := none, quantum := false } else m) ∧
        (∀ a, t.tiles.read a = if tileAddr p.core p.tileBase 0 ≤ a ∧ a < tileAddr p.core p.tileBase 0 + 4096 * l.record.tiles
          then 0 else s.tiles.read a) ∧
        ∃ us, t.others = s.others ++ us ∧ us.length = l.record.strands ∧ ∀ i (hi : i < us.length),
          let u := us[i]
          u.key = ⟨c.uid, i⟩ ∧ u.pc = l.record.entry ∧ u.level = .program ∧ u.live = true ∧ u.wait = none ∧
          u.xr 1 = l.record.args ∧ u.xr 2 = num l.placed ∧ u.xr 3 = num i ∧
          (∀ r, r ≠ 1 → r ≠ 2 → r ≠ 3 → r ≠ 61 → u.xr r = 0) ∧ (∀ r, u.xPois r = false) ∧
          (l.record.stack = 0 → u.xr 61 = 0) ∧
          (∀ b, p.stackBlocks[i]? = some b → u.xr 61 = s.stackTop l b) ∧
          (∀ r, r ≠ 0 → u.cr r = false) ∧ (∀ v (j : Fin 64), (u.vr v)[j] = 0) ∧ u.issued = 0 ∧ u.fpflags = 0 ∧
          u.ids.strandId = num i ∧ u.ids.crewId = num l.placed ∧ u.ids.crewSize = num l.record.strands ∧
          u.ids.coreId = num p.core ∧ u.ids.partId = num l.part ∧ u.ids.tileBase = num p.tileBase ∧
          u.ids.barBase = num p.barBase ∧ ∀ j, j < l.record.tiles →
            mapGet Tag.clear (256 * p.core + p.tileBase + j) t.tags = .clear) ∧
    (∀ n l, s.launch? n = some l → s.takesPart l = true → l.left = false → s.stackTooLarge l = true →
      ∃ t, exec (.crewPlacement n []) s = .next t ∧ t.me = s.me ∧ t.others = s.others ∧
        t.launches = s.launches.map fun m => if m.uid = n then { m with finished := true } else m) ∧
    (∀ n c, s.copiesOf n = [c] → c.place = .gone ∨ c.onCore = true → s.crewDone c = true →
      ∃ t, exec (.crewRetirement n) s = .next t ∧ SameMem s t ∧
        t = { s with others := t.others, crews := t.crews, launches := t.launches } ∧
        t.others = s.others.filter (fun u => u.key.crew != c.uid) ∧
        t.crews = s.crews.map (fun d => if d.uid = c.uid then { d with place := .retired, keep := false, stackBlocks := [] }
          else d) ∧
        t.launches = s.launches.map fun m => if m.uid = c.launch then { m with
          retired := m.retired + 1
          die := c.core / 192
          finished := m.finished || (m.dropped && decide (m.record.crews ≤ m.retired + 1)) } else m) ∧
    (∀ n l, s.launch? n = some l → l.finished = false → l.record.crews ≤ l.retired → l.record.notifyHost = false →
      (∀ r ∈ s.outstanding, ∀ c, s.crew? r.key.crew = some c → c.launch ≠ n) →
      let ended := s.launches.map fun m => if m.uid = n then { m with finished := true } else m
      (l.record.doneAddr = 0 → exec (.doneIncrement n .none) s = .next { s with launches := ended }) ∧
      (l.record.doneAddr ≠ 0 → ∀ c i, s.xlateUnit (s.doneWho l) (.atomic .add .system) l.record.doneAddr = .fail c i →
        exec (.doneIncrement n .none) s =
          .next ((s.forgetPage (s.doneWho l) l.record.doneAddr).failLaunch l c l.record.doneAddr)) ∧
      (l.record.doneAddr ≠ 0 → ∀ k t, s.xlateUnit (s.doneWho l) (.atomic .add .system) l.record.doneAddr = .ats k →
        s.askUnit (s.doneWho l) k true = some t → exec (.doneIncrement n .none) s = .next t) ∧
      ∀ x pin, l.record.doneAddr ≠ 0 → s.cxlLost x = false →
        s.xlateUnit (s.doneWho l) (.atomic .add .system) l.record.doneAddr = .at (.dev x) pin →
        ∃ t, exec (.doneIncrement n .none) s = .next t ∧ t = { s with launches := ended, dev := t.dev, hot := t.hot } ∧
          t.dev = s.dev.store (s.storeAddr x) (bytesOf 8 (s.dev.readWord (s.storeAddr x) 8 + 1).toNat)
            (s.dev.poisoned (s.storeAddr x) 8) ∧
          ∀ a, a < s.storeAddr x ∨ s.storeAddr x + 8 ≤ a → t.dev.read a = s.dev.read a) ∧
    (∀ n l, s.launch? n = some l → l.finished = false → l.waited = false → s.dispatching l.part = true →
      (∀ c i, s.xlateUnit (s.waitWho l) .load l.record.waitAddr = .fail c i → exec (.waitCounterCheck n .none) s =
        .next ((s.forgetPage (s.waitWho l) l.record.waitAddr).failLaunch l c l.record.waitAddr)) ∧
      (∀ k t, s.xlateUnit (s.waitWho l) .load l.record.waitAddr = .ats k → s.askUnit (s.waitWho l) k true = some t →
        exec (.waitCounterCheck n .none) s = .next t) ∧
      ∀ x pin, s.cxlLost x = false → s.xlateUnit (s.waitWho l) .load l.record.waitAddr = .at (.dev x) pin →
      ∃ t, exec (.waitCounterCheck n .none) s = .next t ∧ t = { s with launches := t.launches, hot := t.hot } ∧
        t.launches = if l.record.waitValue.toNat ≤ (s.dev.readWord (s.storeAddr x) 8).toNat ∧
            s.dev.poisoned (s.storeAddr x) 8 = false
          then s.launches.map (fun m => if m.uid = n then { m with waited := true } else m) else s.launches) ∧
    (∀ n l, s.launch? n = some l → s.takesPart l = true →
      (l.level < 7 → exec (.agingStep n) s = .next { s with
        launches := s.launches.map fun m => if m.uid = n then { m with level := m.level + 1 } else m }) ∧
      (7 ≤ l.level → l.reserve = none → exec (.agingStep n) s = .next { s with
        nextId := s.nextId + 1
        launches := s.launches.map fun m => if m.uid = n then { m with reserve := some s.nextId } else m }) ∧
      (l.quantum = false → fieldOf (s.part l.part 0) 47 40 ≠ 0 → exec (.quantumExpiry n) s = .next { s with
        launches := s.launches.map fun m => if m.uid = n then { m with quantum := true } else m })) ∧
    (∀ o : SubmitOp, s.barOpen o.agent = true →
      let q := o.off / 64 % 8192
      let e := s.bar (queueReg q 0x18)
      (o.deferrable = false → exec (.dmwrSubmission o) s = .next (s.setBar (queueReg q 0x18)
        (withField (withBit e 60 true) 31 0 (fieldOf (withBit e 60 true) 31 0 + 1)))) ∧
      (o.deferrable = true →
        (s.queueOpen q false = false ∨ s.mayWrite o.agent (s.queuePart q) = false ∨ o.off % 64 ≠ 0 ∨ o.bytes.length ≠ 64 →
          exec (.dmwrSubmission o) s = .next { s.setBar (queueReg q 0x18) (withBit e 60 true) with
            out := .completion .unsupported :: s.out }) ∧
        (s.queueOpen q false = true → s.mayWrite o.agent (s.queuePart q) = true → o.off % 64 = 0 →
          o.bytes.length = 64 →
          (s.queueFull q = true → exec (.dmwrSubmission o) s = .next { s with out := .completion .retry :: s.out }) ∧
          (s.queueFull q = false →
            let s1 := s.setBarField (queueReg q 0x10) 63 32 (s.nextSeq q + 1)
            let slot := (s1.bar (queueReg q 8) &&& bitsMask 63 16).toNat +
              64 * (s.nextSeq q % 2 ^ s1.barField (queueReg q 0) 36 32)
            s1.refusal? (s.queuePart q) o.bytes = none →
            ∃ t l, exec (.dmwrSubmission o) s = .next t ∧ t.me = s.me ∧ t.others = s.others ∧ t.tiles = s.tiles ∧
              t.launches = s.launches ++ [l] ∧ l.queue = q ∧ l.seq = s.nextSeq q % 2 ^ 32 ∧ l.part = s.queuePart q ∧
              l.record = LaunchRec.ofBytes o.bytes ∧ l.gate = none ∧ l.placed = 0 ∧
              (∀ c i, s1.physical (s1.dispatcherWho (s.queuePart q) 0) .store slot false = .fail c i →
                SameMem s t ∧ t.out = .completion .success :: s.out) ∧
              ∀ x, s1.physical (s1.dispatcherWho (s.queuePart q) 0) .store slot false = .at (.dev x) false →
                s1.cxlLost x = false → t.host = s.host ∧ t.out = .completion .success :: s.out ∧
                t.dev = s.dev.store (s.storeAddr x) o.bytes false)))) ∧
    (∀ by_ (q : BitVec 13) off bs, s.barOpen by_ = true → s.ready 42 = true →
      s.mayWrite by_ (s.queuePart q.toNat) = true →
      let e := withBit (s.bar (queueReg q.toNat 0x18)) 60 true
      (¬(off ≤ 71 ∧ 71 < off + bs.length) →
        ∃ t, exec (.seqWrite by_ q off bs) s = .next t ∧ t = { s with posted := t.posted }) ∧
      (off ≤ 71 → 71 < off + bs.length → s.queueOpen q.toNat true = false →
        ∃ t, exec (.seqWrite by_ q off bs) s = .next t ∧ t = { s with posted := t.posted, bar0 := t.bar0 } ∧
          t.bar0 = (s.setBar (queueReg q.toNat 0x18) (withField e 31 0 (fieldOf e 31 0 + 1))).bar0) ∧
      (off = 0 → bs.length = 72 → (s.window72 q.toNat).length = 72 → bs ≠ List.replicate 72 0 →
        s.queueOpen q.toNat true = true →
        let dropped := fun i =>
          let e := withBit (s.bar (queueReg q.toNat 0x18)) i true
          ∃ t, exec (.seqWrite by_ q off bs) s = .next t ∧ t = { s with posted := t.posted, bar0 := t.bar0 } ∧
            t.bar0 = (s.setBar (queueReg q.toNat 0x18) (withField e 31 0 (fieldOf e 31 0 + 1))).bar0
        (fieldAt bs 64 8 ≠ s.nextSeq q.toNat → dropped 62) ∧
        (fieldAt bs 64 8 = s.nextSeq q.toNat → s.queueFull q.toNat = true → dropped 63) ∧
        (fieldAt bs 64 8 = s.nextSeq q.toNat → s.queueFull q.toNat = false →
          (s.setBarField (queueReg q.toNat 0x10) 63 32 (s.nextSeq q.toNat + 1)).refusal? (s.queuePart q.toNat)
            (bs.take 64) = none →
          ∃ t l, exec (.seqWrite by_ q off bs) s = .next t ∧ t.me = s.me ∧ t.others = s.others ∧ t.tiles = s.tiles ∧
            t.launches = s.launches ++ [l] ∧ l.queue = q.toNat ∧ l.seq = s.nextSeq q.toNat % 2 ^ 32 ∧
            l.part = s.queuePart q.toNat ∧ l.record = LaunchRec.ofBytes (bs.take 64) ∧ l.gate = none ∧ l.placed = 0)))

/-- R35, R36, R311, R313, R318 to R322, R341 to R346: crews leave their cores for save slots and come back, the
watchdog's commands, and tear-down. A crew that is saved has its image written, and its strands are gone from the core;
one that has become bound to a core whose cluster is given back is discarded. Which waits hang a crew, what a wait map
says of them, the commands' corners and which slots the dispatcher may use are the model's choices (log entry 24), and
so is the choice of victims (log entry 23). -/
def Obligations.CrewsLeave : Prop :=
  ∀ s : State,
    (∀ n l, s.launch? n = some l → (s.part l.part 0).getLsbD 62 = true → s.takesPart l = true → s.fitsNext l = false →
      let vs := (s.victims l).flatMap fun c => s.copiesOf c.uid
      vs ≠ [] → (∀ c ∈ vs, c.place = .placed ∧ s.closedGate c = false ∧ s.inVote c = false) →
      vs.length + s.leaving l.part .evicting ≤ (s.freeSaves l.part).length →
      ∃ t, exec (.preempt (.evict n)) s = .next t ∧ t = { s with crews := t.crews, cycles := t.cycles } ∧
        ((∀ c ∈ vs, l.urgent c = true) → t.cycles = s.cycles) ∧
        t.crews = s.crews.map fun d => if vs.any (fun c => d.uid == c.uid) then { d with place := .evicting } else d) ∧
    (∀ n c, s.crew? n = some c → c.place = .placed → s.cpState (c.core / 16) = 1 →
      (s.part c.part 0).getLsbD 62 = true → s.bound c = false → s.closedGate c = false → s.inVote c = false →
      1 + s.leaving c.part .evicting ≤ (s.freeSaves c.part).length →
      exec (.preempt (.quiesce n)) s = .next { s with
        crews := s.crews.map fun d => if d.uid = n then { d with place := .evicting } else d }) ∧
    (∀ n c slot, s.copiesOf n = [c] → c.place = .evicting → s.drained c = true → slot ∈ s.freeSaves c.part →
      (mapGet 0 (c.core / 16) s.releasing ≠ 0 → s.bound c = true → ∃ addr, exec (.preempt (.save n [slot])) s =
        .next (State.discardFault { s with free := s.free + 1 } c 0x13 0 addr)) ∧
      (mapGet 0 (c.core / 16) s.releasing = 0 ∨ s.bound c = false →
      let rest := s.others.filter fun u => u.key.crew != c.uid
      ∃ t, exec (.preempt (.save n [slot])) s = .next t ∧ (s.launch? c.launch = none → t.host = s.host) ∧ t.tiles = s.tiles ∧
        (s.me.key.crew ≠ c.uid → t.me = s.me ∧ t.others = rest) ∧
        (s.me.key.crew = c.uid → ∀ u us, rest = u :: us → t.me = u ∧ t.others = us) ∧
        (∀ d ∈ t.crews, d.uid = c.uid → d.place = .saved slot) ∧
        t.dev = (s.crewImage { c with keep := s.bound c }).foldl
          (fun m p => m.store (s.storeAddr (s.saveSlot c.part slot + p.1)) p.2 false) s.dev)) ∧
    (∀ n l d c p slot, s.launch? n = some l → s.chosen? l.part = some (l, d) → s.savedNext l = [c] →
      c.place = .saved slot → s.restoreOk l c p = true → s.me.key.crew ≠ c.uid →
      ∃ t, exec (.crewRestore n [p]) s = .next t ∧ t.dev = s.dev ∧ t.host = s.host ∧ t.me = s.me ∧
        t.nextId = s.nextId + 1 ∧
        (∃ e : Crew, e.place = .placed ∧ e.core = p.core ∧ e.slots = p.slots ∧ e.tileBase = p.tileBase ∧
          e.barBase = p.barBase ∧ e.index = c.index ∧ e.order = s.nextId ∧
          t.crews = s.crews.map fun x => if x.uid = c.uid then e else x) ∧
        (∀ a, a < tileAddr p.core p.tileBase 0 ∨ tileAddr p.core p.tileBase 0 + 4096 * c.tileCount ≤ a →
          t.tiles.read a = s.tiles.read a) ∧
        ∃ us, t.others = s.others ++ us ∧ us.length = c.out.length ∧
          let a := s.storeAddr (s.saveSlot c.part slot)
          ∀ i (hi : i < us.length) (o : StrandOut), c.out[i]? = some o →
            let u := us[i]
            let w := fun off => s.dev.readWord (a + 0x1000 + 0x4000 * o.idx + off) 8
            u.key = ⟨c.uid, o.idx⟩ ∧ u.pc = w 0x250 ∧ u.issued = w 0x258 ∧ u.trapPc = w 0x288 ∧ u.wait = none ∧
            (∀ r : XReg, r ≠ 0 → u.xr r = w (8 * r.toNat)) ∧ ∀ r : XReg, r ≠ 0 → u.xPois r = (w 0x200).getLsbD r.toNat) ∧
    (∀ n c, s.copiesOf n = [c] → s.hung c = true →
      ((s.frozenFree c.part).length < 1 + s.leaving c.part .freezing → exec (.hang n []) s =
        .next (s.setPart c.part 0x048 (num ((fieldOf (s.part c.part 0x048) 31 0 + 1) % 2 ^ 32)))) ∧
      (1 + s.leaving c.part .freezing ≤ (s.frozenFree c.part).length → exec (.hang n []) s = .next { s with
        crews := s.crews.map fun d => if d.uid = c.uid then { d with place := .freezing } else d })) ∧
    (∀ n c slot, s.copiesOf n = [c] → c.place = .freezing → s.drainedToGates c = true → slot ∈ s.frozenFree c.part →
      let wrote := s.dispatcherWrite (s.mapWho c) (s.mapAddr c.part slot) (s.waitMap c) 16
      (∀ t, wrote = .error (some t) → exec (.hang n [slot]) s = .next t) ∧
      ∀ u, wrote = .ok u → ∃ t, exec (.hang n [slot]) s = .next t ∧
        (s.me.key.crew ≠ c.uid → t.me = s.me ∧ t.others = s.others.filter (fun u => u.key.crew != c.uid)) ∧
        ∀ d ∈ t.crews, d.uid = c.uid → d.place = .frozen slot) ∧
    (∀ by_ p slot, p < 16 → s.mayWrite by_ p = true →
      (s.frozenCrew? p slot = none → exec (.resume by_ p slot) s = .next s ∧ exec (.kill by_ p slot) s = .next s) ∧
      ∀ c, s.frozenCrew? p slot = some c →
        (∃ t, exec (.resume by_ p slot) s = .next t ∧ t.me = s.me ∧ t.others = s.others ∧ t.tiles = s.tiles ∧
          t.crews = s.crews.map fun d => if d.uid = c.uid then { d with place := .saved slot } else d) ∧
        (∃ t, exec (.kill by_ p slot) s = .next t ∧ SameMem s t ∧
          (s.copiesOf c.uid = [c] → t.crews = s.crews.map fun d =>
            if d.uid = c.uid then { d with place := .gone, keep := false } else d))) ∧
    (∀ by_ p, p < 16 →
      (isManager by_ = false → exec (.teardown by_ p) s = .next s) ∧
      (isManager by_ = true → s.mayWrite by_ p = true → (s.dispatcher p).tearing = false →
        ∃ t, exec (.teardown by_ p) s = .next t ∧ ∀ c ∈ s.crews, c.part = p → c.place ≠ .retired → c.place ≠ .gone →
          ∀ u ∈ t.strands, u.key.crew = c.uid → u.live = false)) ∧
    (∀ p, p < 16 → (s.dispatcher p).tearing = true → (s.part p 0x040).getLsbD 62 = false → s.tornDown p = true →
      ∃ t, exec (.teardownDone p) s = .next t ∧ t.dev = s.dev ∧ t.tiles = s.tiles ∧
        ∀ u ∈ t.others, ∀ c ∈ s.crews, c.part = p → c.place ≠ .retired → u.key.crew ≠ c.uid)

/-- R6, R71, R300, R303, R307, R353, R356, R357, R364, R368 to R370, R397 to R399, R408: writes of BAR 0 registers with
the conditions on their fields, and the host's accesses of device memory through BAR 4. A write that its writer does not
reach changes nothing; the WORLD of an entry is Insole's to write, while the entry is not in use. That Insole writes
WORLD at parts that are not ready before NYSET is set is the model's reading (log entry 36), that GO clears VACATED its
choice (log entry 39), and so is that the slot table acts at once (log entry 26); a partition enabled anew ends a
tear-down only once PDTEAR.DONE is set (log entry 24). -/
def Obligations.HostWrites : Prop :=
  ∀ (s : State) (by_ : Agent) (w : Word),
    (∀ off, off % (if inCxlConfig off = true then 4 else 8) ≠ 0 ∨ s.barOpen by_ = false ∨ s.takesWrite by_ off = false →
      exec (.registerWrite by_ off w) s = .next s) ∧
    (∀ off, isManager by_ = false → by_ ≠ .insole → ¬(0x100000 ≤ off ∧ off < 0x110000) →
      ¬(0x1000000 ≤ off ∧ off < 0x1080000) → ¬(0x1800000 ≤ off ∧ off < 0x1900000) →
      exec (.registerWrite by_ off w) s = .next s) ∧
    (∀ p off, isManager by_ = true → s.barOpen by_ = true → p < 2 → s.ready (30 + p) = true → off < 0x1000 → off % 4 = 0 →
      exec (.registerWrite by_ (0x338000 + 0x1000 * p + off) w) s =
        .next { s with out := .cxlConfig p off (w.setWidth 32) :: s.out }) ∧
    (∀ c, c < 96 → exec (.registerWrite .insole (clpart c) w) s = .next (if s.clusterState c = 0
      then s.setBar (clpart c) (withBit (s.bar (clpart c)) 61 (w.getLsbD 61)) else s)) ∧
    (∀ off, (∃ r, r < 64 ∧ off = 0x310000 + 16 * r) ∨ (∃ n, n < 64 ∧ off = rngown n) ∨ (∃ k, k < 8 ∧ off = ckown k) ∨
      (∃ i, i < 8 ∧ off = decoderReg i 0) → s.takesWrite .insole off = true →
      exec (.registerWrite .insole off w) s = .next (if (s.bar off).getLsbD 63 then s
        else s.setBar off (withBit (s.bar off) 62 (w.getLsbD 62)))) ∧
    (∀ p n, p < 16 → n < 64 → s.ready 42 = true → let off := windowReg p n 0
      exec (.registerWrite .insole off w) s = .next (if (s.bar off).getLsbD 63 then s
        else s.setBar off (withBit (s.bar off) 61 (w.getLsbD 61)))) ∧
    (s.barOpen by_ = true →
      (isManager by_ = true → exec (.registerWrite by_ 0x200 w) s =
        .next (s.setBar 0x200 (num (min 2400 (fieldOf w 15 0))))) ∧
      (∀ p, p < 16 → s.ready 42 = true → s.mayWrite by_ p = true → exec (.registerWrite by_ (partReg p 0x070) w) s =
        .next (s.setBar (partReg p 0x070) ((s.part p 0x070 &&& 7) ||| (w &&& ~~~7)))) ∧
      (∀ q : BitVec 13, s.ready 42 = true → s.mayWrite by_ (s.queuePart q.toNat) = true →
        let old := s.bar (queueReg q.toNat 0)
        ∃ v, exec (.wqcfgWrite by_ q w) s = .next (s.setBar (queueReg q.toNat 0) v) ∧
          fieldOf v 15 8 = fieldOf w 15 8 ∧ v.getLsbD 62 = w.getLsbD 62 ∧
          fieldOf v 36 32 = fieldOf (if old.getLsbD 63 then old else w) 36 32 ∧
          fieldOf v 59 56 = fieldOf (if old.getLsbD 63 || !isManager by_ then old else w) 59 56 ∧
          (v.getLsbD 63 = true ↔
            w.getLsbD 63 = true ∧ (old.getLsbD 63 = true ∨ fieldOf w 15 8 ≠ 0 ∧ fieldOf w 36 32 ≤ 12))) ∧
      (∀ p : BitVec 4, s.ready 42 = true → s.mayWrite by_ p.toNat = true →
        let old := s.part p.toNat 0
        ∃ v, fieldOf v 23 16 = fieldOf w 23 16 ∧ fieldOf v 28 24 = fieldOf w 28 24 ∧ fieldOf v 47 40 = fieldOf w 47 40 ∧
          v.getLsbD 62 = w.getLsbD 62 ∧ fieldOf v 55 48 = fieldOf (if old.getLsbD 63 then old else w) 55 48 ∧
          (isManager by_ = false → v.getLsbD 63 = old.getLsbD 63) ∧
          (isManager by_ = true →
            (v.getLsbD 63 = true ↔ w.getLsbD 63 = true ∧ (old.getLsbD 63 = true ∨ s.pdcfgOk p.toNat v = true))) ∧
          exec (.pdcfgWrite by_ p w) s = .next (if v.getLsbD 63 = true ∧ old.getLsbD 63 = false ∧
              ((s.dispatcher p.toNat).tearing = false ∨ (s.part p.toNat 0x040).getLsbD 62 = true)
            then ((s.setPart p.toNat 0 v).setPart p.toNat 0x040 0).setDispatcher p.toNat
              { (s.setPart p.toNat 0 v).dispatcher p.toNat with tearing := false }
            else s.setPart p.toNat 0 v)) ∧
      (∀ r : BitVec 6, isManager by_ = true → s.reachesEntry by_ (0x310000 + 16 * r.toNat) 62 = true →
        let off := 0x310000 + 16 * r.toNat
        ((s.bar off).getLsbD 63 = true → exec (.mrbaseWrite by_ r w) s =
          .next (if w.getLsbD 63 then s else s.setBar off (withBit (s.bar off) 63 false))) ∧
        let fits := s.worldFits (fieldOf w 59 56) ((s.bar off).getLsbD 62)
        ((s.bar off).getLsbD 63 = false → w.getLsbD 63 = true → fits = false → exec (.mrbaseWrite by_ r w) s = .next s) ∧
        ((s.bar off).getLsbD 63 = false → w.getLsbD 63 = false ∨ fits = true →
          ∃ v, exec (.mrbaseWrite by_ r w) s = .next (s.setBar off v) ∧
          fieldOf v 59 56 = fieldOf w 59 56 ∧ fieldOf v 51 21 = fieldOf w 51 21 ∧
          v.getLsbD 62 = (s.bar off).getLsbD 62 ∧
          (v.getLsbD 63 = true ↔ w.getLsbD 63 = true ∧ s.regionOk r.toNat v = true))) ∧
      (∀ (p : BitVec 4) (n : BitVec 6), isManager by_ = true → s.ready 42 = true → s.mayWrite by_ p.toNat = true →
        let off := windowReg p.toNat n.toNat 0
        s.reachesEntry by_ off 61 = true →
        let fits := s.worldFits p.toNat ((s.bar off).getLsbD 61)
        ((s.bar off).getLsbD 63 = true → exec (.wncfgWrite by_ p n w) s =
          .next (if w.getLsbD 63 then s else s.setBar off (withBit (s.bar off) 63 false))) ∧
        ((s.bar off).getLsbD 63 = false → w.getLsbD 63 = true → fits = false → exec (.wncfgWrite by_ p n w) s = .next s) ∧
        ((s.bar off).getLsbD 63 = false → w.getLsbD 63 = false ∨ fits = true →
          ∃ v, exec (.wncfgWrite by_ p n w) s = .next (s.setBar off v) ∧
          fieldOf v 59 56 = fieldOf w 59 56 ∧ fieldOf v 43 32 = fieldOf w 43 32 ∧ fieldOf v 5 0 = fieldOf w 5 0 ∧
          (v.getLsbD 63 = true ↔ w.getLsbD 63 = true ∧ s.windowOk p.toNat n.toNat v = true))) ∧
      (∀ i : BitVec 3, isManager by_ = true → s.ready (30 + i.toNat / 4) = true →
        s.reachesEntry by_ (decoderReg i.toNat 0) 62 = true →
        let old := s.bar (decoderReg i.toNat 0)
        ∃ v, exec (.cxdcfgWrite by_ i w) s = .next (s.setBar (decoderReg i.toNat 0) v) ∧
          v.getLsbD 61 = w.getLsbD 61 ∧
          (v.getLsbD 63 = true ↔ w.getLsbD 63 = true ∧ (old.getLsbD 63 = true ∨ s.decoderOk i.toNat v = true))) ∧
      (isManager by_ = true → ∃ v, exec (.hpcfgWrite by_ w) s =
          .next (if (s.bar 0x340000).getLsbD 63 then s.setBar 0x340000 v else { s.setBar 0x340000 v with hot := [] }) ∧
        fieldOf v 47 32 = fieldOf w 47 32 ∧ fieldOf v 21 16 = fieldOf w 21 16 ∧ fieldOf v 3 0 = fieldOf w 3 0 ∧
        (v.getLsbD 63 = true ↔ w.getLsbD 63 = true ∧ ((s.bar 0x340000).getLsbD 63 = true ∨
          20 ≤ fieldOf w 21 16 ∧ fieldOf w 21 16 ≤ 40 ∧ 4 ≤ fieldOf w 3 0 ∧ fieldOf w 3 0 ≤ 10))) ∧
      (isManager by_ = true → ∃ v, exec (.errcfgWrite by_ w) s = .next (s.setBar 0x371010 v) ∧
        fieldOf v 4 0 = fieldOf w 4 0 ∧
        (v.getLsbD 63 = true ↔ w.getLsbD 63 = true ∧ ((s.bar 0x371010).getLsbD 63 = true ∨
          4 ≤ s.barField 0x371000 4 0 ∧ s.barField 0x371000 4 0 ≤ 12))) ∧
      (∀ (d : BitVec 3) (sl : BitVec 4) (e : BitVec 6), isManager by_ = true → s.ready d.toNat = true →
        let off := 0x2000000 + 0x10000 * d.toNat + 0x800 * sl.toNat + 8 * e.toNat
        exec (.slotTableWrite by_ d sl e w) s = .next (if 2 < fieldOf w 14 12 ∨ 11 < fieldOf w 11 8 then s
          else s.setBar off ((s.bar off &&& ~~~0xFF3F) ||| (w &&& 0xFF3F)))) ∧
      (∀ (d : BitVec 3) (r : BitVec 4), isManager by_ = true ∨ by_ = .insole → s.ready (10 + d.toNat) = true →
        let mo := stackReg d.toNat 8
        let layers := s.barField (stackReg d.toNat 0) 4 0
        (s.barField mo 62 60 = 1 → exec (.vacated by_ d) s = .next (
          if s.barField mo 7 4 + 1 = layers then s.setBarField mo 0 0 1
          else (s.setBarField mo 0 0 1).setBarField mo 62 60 2)) ∧
        (s.barField mo 62 60 ≠ 0 → s.barField mo 62 60 ≠ 1 → exec (.vacated by_ d) s = .next (s.setBarField mo 0 0 1)) ∧
        (s.barField mo 62 60 = 0 → let u := s.setBarField mo 7 4 (s.barField mo 7 4)
          u.bar mo = s.bar mo → exec (.vacated by_ d) s = .next (u.setBarField mo 0 0 1)) ∧
        (s.barField mo 62 60 ≠ 0 → exec (.mapoutGo by_ d r) s = .next s) ∧
        (s.barField mo 62 60 = 0 → (s.setBarField mo 7 4 r.toNat).bar mo = withField (s.bar mo) 7 4 r.toNat →
          exec (.mapoutGo by_ d r) s = .next (if r.toNat < layers ∧ 1 < layers
            then ((((s.setBarField mo 7 4 r.toNat).setBarField mo 62 60 1).setBarField mo 63 63 1).setBarField mo 0 0 0
              ).mapoutRecord d.toNat 1 (layers - 1)
            else s.setBarField mo 7 4 r.toNat)))) ∧
    (∀ fn off, fn ≤ 16 → s.ready 40 = true →
      let a := s.barField 0x10 51 30 * 2 ^ 30 + off
      let x := s.storeAddr a
      (∀ n, s.bar4Ok fn a n = true → exec (.bar4Access fn off (.read n) .none) s = .next { s with
        out := .data (s.dev.readBytes x n) (s.dev.poisoned x n) :: .completion .success :: s.out }) ∧
      (∀ n, s.bar4Ok fn a n = false → exec (.bar4Access fn off (.read n) .none) s = .next { s with
        out := .completion .unsupported :: s.out }) ∧
      (∀ bs p, s.bar4Ok fn a bs.length = true →
        exec (.bar4Access fn off (.write bs p) .none) s = .next { s with dev := s.dev.store x bs p } ∧
        ∀ c, c < x ∨ x + bs.length ≤ c → (s.dev.store x bs p).read c = s.dev.read c) ∧
      (∀ bs p, s.bar4Ok fn a bs.length = false → exec (.bar4Access fn off (.write bs p) .none) s = .next s) ∧
      (∀ b, s.bar4Ok fn a 8 = true → a % 8 = 0 →
        exec (.bar4Access fn off (.fetchAdd true b) .none) s = .next { s with
          dev := s.dev.store x (bytesOf 8 (s.dev.readWord x 8 + b).toNat) (s.dev.poisoned x 8)
          out := .data (s.dev.readBytes x 8) (s.dev.poisoned x 8) :: .completion .success :: s.out }))

/-- R67, R347, R348, R351, R360, R363, R366, R367, R369 to R371, R397: clusters given and taken back, Preath ports and
packets, CXL ports, and the hot-page list. A scrubbed cluster's tiles read zero. The three stages of a release, with
RELEASE_DRAIN_DONE twice, are the model's choice (log entry 34), and so are the free TRAP_ADDR of a timeout and an
atomic's 0 with poison there (log entry 10), and what markers carry and what a refused write counts (log entry 31). -/
def Obligations.ClustersAndLinks : Prop :=
  ∀ s : State,
    (∀ by_ c (p : BitVec 4), s.reachesCluster by_ c = true →
      (s.clusterState c = 0 → (∀ d, d < 96 → d ≠ c → s.clusterPart d = some p.toNat → s.clusterSecure d = s.clusterSecure c) →
        exec (.assign by_ c p) s = .next ((s.setBarField (clpart c) 63 62 1).setBarField (clpart c) 59 56 p.toNat)) ∧
      (s.clusterState c ≠ 0 → exec (.assign by_ c p) s = .next (s.setBarField (clpart c) 60 60 1)) ∧
      (s.clusterState c ≠ 1 ∨ s.cpState c ≠ 0 → exec (.release by_ c) s = .next (s.setBarField (clpart c) 60 60 1)) ∧
      (s.clusterState c = 1 → s.cpState c = 0 → s.crewsOf c = [] → exec (.release by_ c) s = .next { s with
        bar0 := (s.setBarField (clpart c) 63 62 2).bar0
        releasing := mapSet 0 c 1 s.releasing })) ∧
    (∀ by_ c p, s.reachesCluster by_ c = false →
      exec (.assign by_ c p) s = .next s ∧ exec (.release by_ c) s = .next s) ∧
    (∀ c, mapGet 0 c s.releasing = 1 → (∀ d ∈ s.crewsOf c, d.onCore = false) →
      exec (.releaseEvictDone c) s = .next { s with
        releasing := mapSet 0 c 2 s.releasing
        jobs := s.jobs.map fun j => if j.engine = c ∧ j.keep.isSome ∧ j.state.alive then { j with abort := true } else j }) ∧
    (∀ c, mapGet 0 c s.releasing = 2 → s.engineJobs c ≠ [] →
      exec (.releaseEngineTimeout c) s = .next { s with
        jobs := s.jobs.map fun j => if j.engine = c ∧ j.state.alive then { j with abort := true } else j }) ∧
    (∀ c, mapGet 0 c s.releasing = 2 → s.clusterIdle c = true → (∀ d ∈ s.crewsOf c, d.place ≠ .gone) →
      ∃ t, exec (.releaseDrainDone c) s = .next t ∧ t.dev = s.dev ∧ t.host = s.host ∧ t.me = s.me ∧ t.others = s.others ∧
        t.bar0 = (s.setBarField (clpart c) 63 62 3).bar0 ∧ t.releasing = mapSet 0 c 3 s.releasing ∧
        (∀ a, t.tiles.read a = if a / 2 ^ 24 = c then 0 else s.tiles.read a) ∧
        (∀ x, x ∈ t.tags ↔ x ∈ s.tags ∧ x.1 / 4096 ≠ c) ∧ ∀ x, x ∈ t.bars ↔ x ∈ s.bars ∧ x.1 / 2048 ≠ c) ∧
    (∀ c, mapGet 0 c s.releasing = 3 → exec (.releaseDrainDone c) s = .next { s with
      bar0 := ((s.setBarField (clpart c) 63 62 0).setBarField (clpart c) 59 56 0).bar0
      releasing := mapSet 0 c 0 s.releasing }) ∧
    (∀ p, p < 12 → s.ready (18 + p) = true → (s.bar (portReg p 0)).getLsbD 62 = true →
      (s.bar (portReg p 0)).getLsbD 63 = false →
      exec (.linkTrained p) s = .next { s with
        bar0 := (s.setBar (portReg p 0) (withField (withBit (s.bar (portReg p 0)) 63 true) 61 58
          (if (s.port p).laneOut then 4 else 8))).bar0
        links := mapSet ⟨0, false, false⟩ p { s.port p with fails := 0 } s.links }) ∧
    (∀ p, p < 12 → s.portUp p = true →
      ((s.port p).fails < 9 → ∃ t, exec (.packetCrcFail p) s = .next t ∧ t = { s with bar0 := t.bar0, links := t.links } ∧
        t.bar0 = ((s.countReg (portReg p 8)).countReg (portReg p 0x10)).bar0 ∧
        t.links = mapSet ⟨0, false, false⟩ p { s.port p with fails := (s.port p).fails + 1 } s.links) ∧
      ((s.port p).fails = 9 ∨ (s.port p).peer = true →
        exec (.linkRetrain p false) s = .next { s with
          bar0 := (s.setBar (portReg p 0x18) (s.bar (portReg p 0x18) + 1)).bar0
          links := mapSet ⟨0, false, false⟩ p { s.port p with fails := 0, peer := false } s.links } ∧
        ∃ t, exec (.linkRetrain p true) s = .next t ∧ t.me = s.me ∧ t.others = s.others ∧ t.dev = s.dev ∧
          t.tiles = s.tiles ∧ ((s.port p).laneOut = false → t.links = mapSet ⟨0, false, false⟩ p ⟨0, true, false⟩ s.links))) ∧
    (∀ port bs, port < 12 → s.portUp port = true → (s.port port).fails < 9 → packetIntact bs = true →
      (Packet.ofBytes bs).dst = s.barField 0x2000 11 0 →
      let p := Packet.ofBytes bs
      let heard := fun (t u : State) => u = t.setPort port { t.port port with fails := 0 }
      let request := p.isMemory = true ∨ p.isTile = true ∨ p.kind = Packet.control
      (p.kind = Packet.markerKind → ∃ u m, exec (.packetReceived port bs) s = .next u ∧
        heard { s with markersFrom := u.markersFrom } u ∧ m ∈ u.markersFrom ∧ m.isOf p.src p.opLo.toNat = true ∧
        m.copies = p.opHi.toNat ∧
        (∀ old, s.markersFrom.find? (fun m => m.isOf p.src p.opLo.toNat) = some old → m.arrived = old.arrived + 1) ∧
        ((∀ old ∈ s.markersFrom, old.isOf p.src p.opLo.toNat = false) → m.arrived = 1) ∧
        ∀ x, x.isOf p.src p.opLo.toNat = false → (x ∈ u.markersFrom ↔ x ∈ s.markersFrom)) ∧
      (p.kind ≠ Packet.markerKind → ¬request ∨ s.tagsSeen.contains (p.src, p.tag) = true →
        ∃ u, exec (.packetReceived port bs) s = .next u ∧ heard s u) ∧
      (request → s.tagsSeen.contains (p.src, p.tag) = false → s.releaseHeld p = false →
        (s.accepts p = false → ∃ u, exec (.packetReceived port bs) s = .next u ∧
          heard (((s.refusedWrite p bs).noteReceived p).answer p [] []) u ∧ SameMem s u ∧ u.me = s.me ∧
          u.others = s.others ∧ (p.kind ≠ Packet.write → u.writesFrom = s.writesFrom) ∧ (p.kind = Packet.write →
            p.vote = 0 → u.writesFrom = mapSet 0 p.src (mapGet 0 p.src s.writesFrom + 1) s.writesFrom)) ∧
        (s.accepts p = true → p.vote = 0 → p.kind = Packet.read → s.cxlLost p.addr.toNat = true →
          ∃ u, exec (.packetReceived port bs) s = .next u ∧
            heard (((s.faultRecord p.dstPart 0x05 (num (8 * 2 ^ 12)) p.addr).noteReceived p).answer p
              (List.replicate p.len 0) (List.replicate ((p.len + 3) / 4) true)) u) ∧
        (s.accepts p = true → p.vote = 0 → p.kind = Packet.write → s.cxlLost p.addr.toNat = false →
          ∃ u, exec (.packetReceived port bs) s = .next u ∧ u.host = s.host ∧ u.tiles = s.tiles ∧ u.me = s.me ∧
            u.others = s.others ∧ u.writesFrom = mapSet 0 p.src (mapGet 0 p.src s.writesFrom + 1) s.writesFrom ∧
            u.tagsSeen = (p.src, p.tag) :: s.tagsSeen ∧
            (p.len = 4 → u.dev = s.dev.store (s.storeAddr p.addr.toNat) (p.data.take 4) (p.mask.getLsbD 0))) ∧
        (s.accepts p = true → p.vote = 0 → p.kind = Packet.read → s.cxlLost p.addr.toNat = false →
          let home := Place.dev p.addr.toNat
          ∃ u, exec (.packetReceived port bs) s = .next u ∧
            heard (((s.noteCxl home 0 false).noteReceived p).answer p (s.readHome home p.len .none).1 (s.homeMask home p.len)) u ∧
            SameMem s u ∧ u.me = s.me ∧ u.others = s.others))) ∧
    (∀ k h t e i v x, s.freshHead k h = some (t, e) → e.body = .atomic i → i.access.place = .remote v x →
      s.releaseOk k h i.order i.scope = true →
      s.homeClear t.cluster i.access.place (if i.w64 then 8 else 4) = true → t.live = true → t.events.length < 8 →
      ∃ u, exec (.remoteTimeout (.head k h)) s = .next u ∧ SameMem s u ∧ ∃ t', u.strand? k = some t' ∧
        (∃ a, t'.events = t.events ++ [⟨0x13, a, 0⟩]) ∧ t'.queue h = (t.queue h).drop 1 ∧
        ∀ d, i.dest = some d → t'.xr d = 0 ∧ t'.xPois d = (d != 0)) ∧
    (∀ p, p < 12 → s.portUp p = true → (s.peerFails p).links =
      mapSet ⟨0, false, false⟩ p { s.port p with peer := true } s.links) ∧
    (∀ p, p < 2 → (s.cxlDown.contains p = false →
        exec (.cxlPortDown p) s = .next ({ s with cxlDown := p :: s.cxlDown }.setReady (30 + p) false)) ∧
      (s.cxlDown.contains p = true → 8 ≤ s.boot.step →
        exec (.cxlPortUp p) s = .next ({ s with cxlDown := s.cxlDown.filter fun q => q != p }.setReady (30 + p) true))) ∧
    ((s.bar 0x340000).getLsbD 63 = true →
      ∃ t bytes, exec .hotPagePeriodEnd s = .next t ∧
        t.hot = s.hot.map (fun h => { h with count := 0, pinned := false }) ∧ t.dev = s.dev ∧ t.tiles = s.tiles ∧ t.me = s.me ∧
        t.others = s.others ∧ t.host = s.host.store (s.bar 0x340008 &&& bitsMask 63 6).toNat bytes false ∧
        bytes.take 8 = bytesOf 8 (s.barField 0x340010 63 32))

/-- R64, R231, R232, R273, R274, R282, R283: a copy engine starts its queued jobs in order, performs element operations
(a fill of one element of the crew's own tiles writes exactly its bytes), and completes jobs; row-stream banks and
keep-copies. Which of the started jobs an engine runs at once where keep-copies go on, that a row stream whose
destination is no stack's needs no bank, that an engine out of service ends a keep-copy, and the corners of faults are
the model's choices (log entries 28 and 29). -/
def Obligations.EnginesRun : Prop :=
  ∀ (s : State) (e slot : Nat),
    (∀ j, s.jobs.find? (fun j => j.engine == e && j.state == .queued && j.leader.isNone) = some j → j.slot = slot →
      s.runningJobs e < 8 → exec (.jobStart e slot) s = .next { s with
        jobs := s.jobs.map fun k => if k.engine = e ∧ k.slot = slot then { k with state := .running } else k }) ∧
    (∀ j n rs, s.jobAt? e slot = some j → j.goesOn = true → s.runsNow j = true → j.keep = none → n < j.opCount → n ∉ j.performed →
      (j.block.op = 3 → j.bank = true) →
      (∀ g w, s.gather j ⟨[], false, 0, 0, none⟩ rs (j.opElems n) = .ok g → g.1.elemStore j g.2.1 g.2.2 = .ok w →
        exec (.elementOperation e slot n ⟨rs, []⟩) s =
          .next ((if j.pays w.2 = true then s.jobBars j else []).foldl (fun (t : State) (b : Nat × Nat) => t.testBar b.1 b.2)
            (w.1.elemDone j n g.2.1 w.2))) ∧
      (∀ m y z, s.elementEvent e slot n rs = some y → y.1.barEvent m = some z →
        (z.2.any fun b => y.2.contains b) = true → exec (.elementOperation e slot n ⟨rs, [m]⟩) s =
          .next ((y.2 ++ z.2).eraseDups.foldl (fun (t : State) (b : Nat × Nat) => t.testBar b.1 b.2) z.1)) ∧
      (∀ w k ats t, s.gather j ⟨[], false, 0, 0, none⟩ rs (j.opElems n) = .error (.wait w k ats) →
        s.askUnit w k ats = some t → exec (.elementOperation e slot n ⟨rs, []⟩) s = .next t) ∧
      (∀ t c a, s.gather j ⟨[], false, 0, 0, none⟩ rs (j.opElems n) = .error (.fault t c a) →
        exec (.elementOperation e slot n ⟨rs, []⟩) s = .next { t with
          jobs := t.jobs.map fun k => if k.engine = e ∧ k.slot = slot then { k with fault := some (c, a) } else k }) ∧
      (∀ x c, j.block.op = 2 → j.block.doneKind ≠ 2 → j.nibbles = false → j.opElems n = [x] → j.dst.space = 1 →
        j.dst.inside (j.dstOf x) = true → 0 ≤ j.dst.addr (j.dstOf x) → s.jobCrews j = [c] → s.coreOpen c.core = true →
        let b := j.dst.banked (j.dst.addr (j.dstOf x)).toNat
        let width := typeWidth j.block.dstType
        let a := tileAddr c.core c.tileBase b
        s.jobHas j b ((width + 7) / 8) = true → s.parkedTile? (a / 2 ^ 20) (a / 4096 % 256) = none →
        exec (.elementOperation e slot n ⟨rs, []⟩) s = .next { s with
          tiles := s.tiles.store a (bytesOf (width / 8) (j.block.fill % 2 ^ width)) false
          jobs := s.jobs.map fun k => if k.engine = e ∧ k.slot = slot then { k with
            performed := n :: k.performed, wrote := (k.wrote ++ [a / 4096]).eraseDups } else k } ∧
        ∀ y, y < a ∨ a + width / 8 ≤ y →
          (s.tiles.store a (bytesOf (width / 8) (j.block.fill % 2 ^ width)) false).read y = s.tiles.read y)) ∧
    (∀ j, s.jobAt? e slot = some j → j.keep = none → j.block.scale = 0 → j.block.status = false → j.block.doneKind = 0 →
      (s.ending? j = some .done ∨ s.ending? j = some .aborted → ∀ st, s.ending? j = some st →
        ∃ t, exec (.completionAction e slot .none) s = .next t ∧ t = { s with jobs := t.jobs, banks := t.banks } ∧
          (∀ k ∈ t.jobs, k.engine = e → k.slot = slot → k.state = st) ∧
          t.jobs.length = s.jobs.length) ∧
      (∀ c a t, s.ending? j = some .faulted → j.fault = some (c, a) → s.strand? j.owner = some t → t.live = true →
        t.events.length < 8 →
        s.jobs.filter (fun k => (k.engine == e && k.slot == slot) || k.leader == some (e, slot)) = [j] →
        ∃ u, exec (.completionAction e slot .none) s = .next u ∧ SameMem s u ∧
          (∀ k ∈ u.jobs, k.engine = e → k.slot = slot → k.state = .faulted) ∧
          ∃ t', u.strand? j.owner = some t' ∧ t'.events = t.events ++ [⟨0x0F, a, ticket e slot j.seq⟩])) ∧
    (∀ j, s.jobAt? e slot = some j → j.goesOn = true → j.block.op = 3 → j.bank = false →
      let got := s.jobs.map fun k => if k.engine = e ∧ k.slot = slot then { k with bank := true } else k
      (s.rowStack? j = none → exec (.rowstreamReservation e slot) s = .next { s with jobs := got }) ∧
      ∀ d, s.rowStack? j = some d →
        let held := fun b : Bank => b.stack == d && b.engine == e && b.owner == j.owner && b.h == j.h && b.job.isNone
        (∀ i, s.banks.findIdx? held = some i → exec (.rowstreamReservation e slot) s = .next { s with
          jobs := got, banks := setNth s.banks i ⟨d, e, j.owner, j.h, some slot⟩ }) ∧
        (s.banks.countP (fun b => b.stack == d) < 4 → s.banks.findIdx? held = none →
          exec (.rowstreamReservation e slot) s = .next { s with
            jobs := got, banks := s.banks ++ [⟨d, e, j.owner, j.h, some slot⟩] })) ∧
    (∀ i b, s.banks[i]? = some b → b.job = none →
      ∃ t, exec (.rowstreamIdleRelease i) s = .next t ∧ t = { s with banks := s.banks.eraseIdx i, bar0 := t.bar0 }) ∧
    (∀ n id u c, s.liveUnit? n = some u → s.claim? n id = some (u, c) → c.busy = false → s.keepable n c c.next = true →
      (s.cpState (s.keepEngine n) ≠ 0 ∨ s.clusterState (s.keepEngine n) ≠ 1 → ∀ t, s.truncateClaim n id 0 = .ok t →
        exec (.keepCopySubmit n id slot) s = .next t) ∧
      (s.cpState (s.keepEngine n) = 0 → s.clusterState (s.keepEngine n) = 1 → slot ∈ s.freeSlots (s.keepEngine n) →
        s.jobs.countP (fun j => j.engine == s.keepEngine n && j.keep.isSome && j.state.alive) < 32 →
        ∃ t j, exec (.keepCopySubmit n id slot) s = .next t ∧ SameMem s t ∧ j ∈ t.jobs ∧ j.engine = s.keepEngine n ∧
          j.slot = slot ∧ j.state = .queued ∧ j.keep = some (n, id) ∧ j.block.box.headD 0 = s.keepBudget n c)) ∧
    (∀ j k, s.jobAt? e slot = some j → j.keep = some k →
      (j.goesOn = true → s.runsNow j = true → s.keepOver j k.1 k.2 = false → ∀ rs,
        (∀ n t, s.keepOne j k.1 k.2 rs = .ok t → exec (.elementOperation e slot n ⟨rs, []⟩) s = .next t) ∧
        ∀ t c a u, s.keepOne j k.1 k.2 rs = .error (.fault t c a) →
          ((t.endJob j .faulted).endKeep j k.1 k.2).truncateClaim k.1 k.2 a = .ok u →
          (∀ n, exec (.elementOperation e slot n ⟨rs, []⟩) s = .next u) ∧
          (rs = [] → exec (.keepCopyFault e slot) s = .next u)) ∧
      (s.ending? j = some .done →
        exec (.completionAction e slot .none) s = .next ((s.endJob j .done).endKeep j k.1 k.2)))

/-- R246 to R252, R254, R255, R270, R271: rings start and stop, and frames come in. Where the ring block lies in device
memory, an enable reads the colour matrix and PERIOD there, sets the counters and the logs to 0 and each DEADFROM to all
ones, HEAD and PROD to 0. A good frame gives START and HEAD where it is the first, its samples wait for the writer, and
a gap before it, samples with a wrong CRC-8 and saturated ones count and are logged in the ring block; a dropped frame
changes one counter. Elsewhere the work is the same by the unit's own accesses. A ring that stops closes its claims with
what they have copied. The reasons that drops leave for the next gap, and what a PERIOD of 0 leaves open, are the
model's choices (log entry 30). -/
def Obligations.RingsIngest : Prop :=
  ∀ (s : State) (n : Nat),
    (∀ u, s.unit? n = some u → s.rgEnabled n = true → u.stopping = true →
      (∀ (c : Nat → Nat) (q a : Nat), (∀ i, i < 12 → s.ringReaches n .load (s.ringBlock n (4 * i)) (c i) s.dev) →
        s.ringReaches n .load (s.ringBlock n 0x030) q s.dev → s.ringReaches n .store (s.ringBlock n 0x040) a s.dev →
        let period := s.dev.readWord (s.storeAddr q) 8
        let cleared := (List.range 0x340).map fun i => if i < 0x100 ∧ 0x38 ≤ i % 0x40 then 0xFF#8 else 0#8
        ∃ t v, exec (.ringEnable n) s = .next t ∧
          RingStep s t n ((s.setRing n 4 0).setRing n 11 (withField (s.ring n 11) 31 0 0)).ringRegs
            (s.dev.store (s.storeAddr a) cleared false) v ∧
          v = { u with
            stopping := false
            started := s.rgProgram n
            colour := (List.range 12).map fun i => natOfBytes (s.dev.readBytes (s.storeAddr (c i)) 4)
            period := v.period } ∧
          (period ≠ 0 → v.period = period) ∧
          ∀ y, y < s.storeAddr a ∨ s.storeAddr a + 0x340 ≤ y → t.dev.read y = s.dev.read y) ∧
      (∀ t, s.startRing n u = .ok t → exec (.ringEnable n) s = .next t) ∧
      (∀ k ats t, s.startRing n u = .error (.wait k ats) → s.askUnit (s.ringWho n) k ats = some t →
        exec (.ringEnable n) s = .next t) ∧
      ∀ a t, s.startRing n u = .error (.fault a) → s.strand? u.owner = some t → t.live = true → t.events.length < 8 →
        ∃ v, exec (.ringEnable n) s = .next v ∧ SameMem s v ∧ v.rings = s.rings.filter (fun r => r.1 != n) ∧
          v.ringRegs = (s.setRing n 0 (withBit (s.ring n 0) 63 false)).ringRegs ∧
          ∃ t', v.strand? u.owner = some t' ∧ t'.events = t.events ++ [⟨0x10, a, 0⟩]) ∧
    (∀ u, s.unit? n = some u → s.rgEnabled n = false → u.stopping = true →
      (u.claims = [] → exec (.ringDisable n) s = .next { s with rings := s.rings.filter fun r => r.1 != n }) ∧
      ∀ c, u.claims.find? (fun c => !c.busy) = some c → s.headerRoom n = true →
        (∀ a, s.ringReaches n .store (s.headerSlot n) a s.dev → ∃ t, exec (.ringDisable n) s = .next t ∧
          HeaderWritten s t n u c (idx ((c.reached : Int) - 1)) (s.storeAddr a)) ∧
        (∀ t, s.closeStopped n c = .ok t → exec (.ringDisable n) s = .next t) ∧
        (∀ k ats t, s.ringPlace n .store (s.headerSlot n) = .error (.wait k ats) →
          s.askUnit (s.ringWho n) k ats = some t → exec (.ringDisable n) s = .next t) ∧
        ∀ a, s.ringPlace n .store (s.headerSlot n) = .error (.fault a) → exec (.ringDisable n) s = .next
          (((s.setUnit n { u with claims := u.claims.filter fun d => d.id != c.id }).forgetPage (s.ringWho n)
            a).faultRecord (s.barField (rngown n) 59 56) 0x10 0 a)) ∧
    (∀ port bs, port < 8 →
      (datagram? bs = none → exec (.frameReceived port bs) s = .next s) ∧
      (∀ d, datagram? bs = some d → s.ringFor? port d = none → fcsOk bs = true → d.checksumOk = true →
        exec (.frameReceived port bs) s = .next { s with
          unmatched := mapSet 0 port (mapGet 0 port s.unmatched + 1) s.unmatched }) ∧
      (∀ u k, s.unit? n = some u → s.blockAt n k →
        let counts := fun (off : Nat) (v : RingUnit) => ∃ t, exec (.frameReceived port bs) s = .next t ∧
          RingStep s t n s.ringRegs (s.dev.counted (k + off) 1) v ∧
          ∀ y, y < k + off ∨ k + off + 8 ≤ y → t.dev.read y = s.dev.read y
        (s.frameFate port bs = .damaged n → counts 0x160 { u with reason := 0 }) ∧
        (s.frameFate port bs = .badHeader n → counts 0x160 { u with reason := min u.reason 1 }) ∧
        (s.frameFate port bs = .stale n → counts 0x168 u)) ∧
      (∀ t, s.frameFate port bs = .damaged n → (s.noteDrop n 0).ringCount n RingBlock.droppedFrames 1 = .ok t →
        exec (.frameReceived port bs) s = .next t) ∧
      (∀ t, s.frameFate port bs = .badHeader n → (s.noteDrop n 1).ringCount n RingBlock.droppedFrames 1 = .ok t →
        exec (.frameReceived port bs) s = .next t) ∧
      (∀ t, s.frameFate port bs = .stale n → s.ringCount n RingBlock.staleFrames 1 = .ok t →
        exec (.frameReceived port bs) s = .next t) ∧
      (∀ p t, s.frameFate port bs = .good n p → s.bufferFull port n bs = false → s.goodFrame n p = .ok t →
        exec (.frameReceived port bs) s = .next t) ∧
      ∀ p u, s.frameFate port bs = .good n p → s.unit? n = some u →
        let h := SampleHeader.ofBytes p
        let size := sampleBytes (fieldOf (s.ring n 0) 43 41)
        let step := size + if h.crc then 1 else 0
        let wire := fun i => (p.drop (32 + i * step)).take size
        let bad := fun i => h.crc && crc8 (wire i) != (p.drop (32 + i * step + size)).headD 0
        let crcs := (List.range h.count).countP bad
        let sat := ((List.range h.count).map fun i => (s.storedSample n u (wire i)).2).sum
        let gap := if u.started then (idxDiff h.first u.expected).toNat else 0
        (∀ k, s.bufferFull port n bs = false → (gap = 0 ∧ crcs = 0 ∧ sat = 0) ∨ s.blockAt n k →
          let begun := if u.started then u else { u with
            start := h.first, expected := h.first, started := true, block := h.first / max 1 (s.rgBlock n) }
          let behind := if gap = 0 then begun else { begun with
            pending := begun.pending ++ [.gap gap begun.reason]
            expected := idx ((begun.expected : Int) + gap)
            reason := 2 }
          let logged := if gap = 0 then s.dev else s.dev.gapLogged k u.expected gap u.reason
          let poisoned := if crcs = 0 then logged else logged.counted (k + 0x150) crcs
          let d := if sat = 0 then poisoned else poisoned.counted (k + 0x158) sat
          ∃ t, exec (.frameReceived port bs) s = .next t ∧
            RingStep s t n (if u.started then s.ringRegs else (s.setRing n 4 (num h.first)).ringRegs) d { behind with
              pending := behind.pending ++ (List.range h.count).map fun i =>
                .sample (s.storedSample n u (wire i)).1 (bad i)
              expected := idx ((behind.expected : Int) + h.count)
              sref := if h.timed then h.first else u.sref
              tref := if h.timed then h.timecode else u.tref
              timed := u.timed || h.timed } ∧
            ∀ y, y < k ∨ k + 0x380 ≤ y → t.dev.read y = s.dev.read y) ∧
        (s.bufferFull port n bs = true →
          let g := (idxDiff h.first u.expected).toNat + h.count
          (∀ k, s.blockAt n k → ∃ t, exec (.frameBufferDrop port bs) s = .next t ∧
            RingStep s t n s.ringRegs ((s.dev.gapLogged k u.expected g 3).counted (k + 0x160) 1) { u with
              pending := u.pending ++ [.gap g 3]
              expected := idx ((u.expected : Int) + g)
              reason := 2 } ∧
            ∀ y, y < k ∨ k + 0x380 ≤ y → t.dev.read y = s.dev.read y) ∧
          ∀ t, (s.openGap n g 3).bind (fun s => s.ringCount n RingBlock.droppedFrames 1) = .ok t →
            exec (.frameBufferDrop port bs) s = .next t))

/-- R378 to R386, R388: the power controllers. A row of R381 that holds moves the controller, and STATE, QACK, CLKRUN
and both PG follow; a drain, a save, a restore, a ramp and an INIT end; a rail that fails leaves OFF with code 3. -/
def Obligations.ControllersMove : Prop :=
  ∀ (s : State) (c : Nat), c < 96 →
    let p := (s.pulse? c).getD .none
    let quiet : State := { s with pulses := s.pulses.filter fun q => q.1 != c }
    let qreq := (s.cp c 0).getLsbD 0
    let clken := (s.cp c 0).getLsbD 1
    let en := (s.cp c 3).getLsbD 63
    let quietReads := ∀ t ∈ s.strands, ∀ a ∈ t.asked, (a.2 - 0x400) / 8 ≠ c
    let moved := fun (t : State) => (.next (t.answerAsked c) : Host.Outcome State Fault Refusal)
    (∀ st, st < 10 → ∃ r x, s.cpGo c st = (s.setCp c 1 r).setCp c 3 x ∧ fieldOf r 15 12 = st ∧
      (r.getLsbD 0 = true ↔ 2 ≤ st) ∧ (r.getLsbD 1 = true ↔ st ≤ 4 ∨ st = 9) ∧ (r.getLsbD 2 = true ↔ st ≠ 6 ∧ st ≠ 7) ∧
      (x.getLsbD 62 = true ↔ st ≠ 6 ∧ st ≠ 7)) ∧
    (p.save = false → p.restore = false →
      (s.cpState c = 0 → p.rise = true →
        (s.cpDenial c = 0 → exec (.qreqRise c) s =
          moved ((quiet.setCp c 1 (withField (s.cp c 1) 10 8 0)).cpGo c 1)) ∧
        (s.cpDenial c ≠ 0 → exec (.qreqRise c) s =
          moved (quiet.setCp c 1 (withField (s.cp c 1) 10 8 (s.cpDenial c))))) ∧
      (s.cpState c = 1 → qreq = false → exec (.qreqClear c) s = moved (quiet.cpGo c 0)) ∧
      (s.cpState c = 2 → qreq = false → exec (.qreqClear c) s =
        moved ((quiet.setCp c 1 (withBit (s.cp c 1) 3 false)).cpGo c 0)) ∧
      (s.cpState c = 2 → qreq = true → clken = false → exec (.clkenClear c) s = moved (quiet.cpGo c 5)) ∧
      (s.cpState c = 5 → clken = true → exec (.clkenSet c) s = moved (quiet.cpGo c 2)) ∧
      (s.cpState c = 8 → en = true → clken = true → exec (.clkenSet c) s = moved (quiet.cpGo c 9)) ∧
      (s.cpState c = 5 → clken = false → en = false → exec (.railOff c) s = moved (quiet.cpOff c)) ∧
      (s.cpState c = 7 ∨ s.cpState c = 8 → en = false → exec (.railOff c) s = moved (quiet.cpOff c)) ∧
      (s.cpState c = 6 → en = true → c ∉ s.railHeld → exec (.railOn c) s = moved (quiet.cpGo c 7)) ∧
      (s.cpState c = 7 → exec (.powerGood c) s = moved (quiet.cpGo c 8) ∧
        exec (.rampTimeout c) s = moved (quiet.cpFault c)) ∧
      (s.cpState c = 1 → qreq = true → s.clusterIdle c = true →
        (∀ d ∈ s.crewsOf c, d.onCore = false ∧ d.place ≠ .gone) →
        exec (.quiesceDrainComplete c) s = moved (quiet.cpGo c 2)) ∧
      (s.cpState c = 3 →
        (s.cpImage? c = none → exec (.saveDone c) s =
          moved (((quiet.cpGo c 2).setCpValid c false).cpError c 1)) ∧
        (∀ a, s.cpImage? c = some a → ∃ t, exec (.saveDone c) s = .next t ∧ t.host = s.host ∧ t.tiles = s.tiles ∧
          (quietReads → t.me = s.me ∧ t.others = s.others) ∧
          t.dev = s.dev.store (s.storeAddr a) (s.imageBody c ++ sha3 (s.imageBody c)) false)) ∧
      (s.cpState c = 4 → (s.cpImage? c = none → exec (.restoreDone c) s =
          moved (((quiet.cpGo c 2).setCpValid c false).cpError c 2)) ∧
        (∀ a, s.cpImage? c = some a → ∃ t, exec (.restoreDone c) s = .next t ∧ SameMem s t ∧
          (quietReads → t.me = s.me ∧ t.others = s.others) ∧
          let image := s.readHome (.dev a) 4096 .none
          t = if image.2 = true ∨ sha3 (image.1.take 0xFC0) ≠ image.1.drop 0xFC0
            then (((quiet.cpGo c 2).setCpValid c false).cpError c 2).answerAsked c
            else ((quiet.cpGo c 2).loadRetained c image.1).answerAsked c)) ∧
      (s.cpState c = 9 → ∃ t, exec (.initDone c) s = .next t ∧ t.dev = s.dev ∧ t.host = s.host ∧
        (quietReads → t.me = s.me ∧ t.others = s.others) ∧ (∀ a, t.tiles.read a = if a / 2 ^ 24 = c then 0 else s.tiles.read a) ∧
        (∀ x ∈ t.cycles, x.1 / 16 ≠ c) ∧ (∀ x ∈ t.seqs, x.1 ≠ c) ∧ ∀ j ∈ t.jobs, j.engine = c → j.state.alive = true)) ∧
    (s.cpState c = 2 → qreq = true → p.save = true → p.restore = false →
      exec (.save c) s = moved (quiet.cpGo c 3)) ∧
    (s.cpState c = 2 → qreq = true → p.save = false → p.restore = true → (s.cp c 1).getLsbD 3 = true →
      exec (.restore c) s = moved (quiet.cpGo c 4)) ∧
    (s.cpState c = 0 → p.rise = false → p.save = true ∨ p.restore = true →
      exec (.controllerEvaluation c) s = moved (quiet.cpError c 4)) ∧
    (∀ r, s.cpRow? c = some r → exec (.controllerEvaluation c) s = .next (s.cpEvaluate c (some r))) ∧
    (∀ by_, s.reachesCluster by_ c = true → s.ready (c / 12) = true → s.barOpen by_ = true →
      exec (.wake by_ c) s = .next (s.setCp c 4 (withBit (s.cp c 4) 0 true)) ∧
      exec (.wakeClr by_ c) s = .next (s.setCp c 4 (withBit (s.cp c 4) 0 false))) ∧
    (∀ slot j, s.jobAt? c slot = some j → s.cpState c = 1 → j.state = .running → j.abort = false →
      exec (.quiesceJobLimit c slot) s = .next (({ s with
        jobs := s.jobs.map fun k => if k.engine = c ∧ k.slot = slot then { k with abort := true } else k } : State).setCp c 5
          (withField (s.cp c 5) 63 32 (fieldOf (s.cp c 5) 63 32 + 1)))) ∧
    (s.cpState c ≠ 6 → ∃ t, exec (.railFault c) s = .next t ∧ t.dev = s.dev ∧ t.tiles = s.tiles ∧
      (quietReads → t.cpState c = 6 ∧ fieldOf (t.cp c 1) 7 5 = 3 ∧ (t.cp c 3).getLsbD 61 = true))

/-- R390, R392, R393, R396, R398, R399, R401 to R406, R408: soft errors, control faults, map-out, bring-up,
attestation, power and temperature. The bytes of the SPDM messages rest on SPDM 1.3 (log entry 36). What taking the
package out of service does, and that a control fault of a dispatcher tears its partition down without a record, is the
model's choice (log entry 35); the syndromes, channels and words that no rule fixes are free (log entry 9). -/
def Obligations.PackageServes : Prop :=
  ∀ s : State,
    (∀ n, n < 1536 → (∀ c ∈ s.crews, c.core ≠ n ∨ c.onCore = false) →
      let off := 8 * (32 * (n / 16 % 12) + n % 16)
      exec (.controlFault (.core n)) s = .next ((s.setBarField (errReg (n / 192) off) 63 32
        (min (s.barField (errReg (n / 192) off) 63 32 + 1) (2 ^ 32 - 1))).freshWord.2.errorRecord
        ⟨8, n / 192, off / 8, (s.clusterPart (n / 16)).getD 0xFF, 0, s.freshWord.1⟩)) ∧
    (∀ p, p < 16 → (s.dispatcher p).tearing = false → exec (.controlFault (.dispatcher p)) s = .next (s.tearDown p)) ∧
    (∀ d a, d < 8 → a % 64 = 0 → d * 2 ^ 36 ≤ a → a < d * 2 ^ 36 + s.barField (stackReg d 0) 4 0 * 2 ^ 32 →
      (s.bar (stackReg d 0x10)).getLsbD 63 = true → s.ready (10 + d) = true →
      exec (.patrolScrub d a false .none) s = .next s ∧
      exec (.patrolScrub d a true .none) s = .next (s.setBarField (stackReg d 0x10) 31 0
        (s.barField (stackReg d 0x10) 31 0 + 1))) ∧
    (∀ d, d < 8 →
      let mo := stackReg d 8
      let layers := s.barField (stackReg d 0) 4 0
      (s.barField mo 62 60 = 2 ∨ s.barField mo 62 60 = 1 ∧ s.barField mo 7 4 = layers - 1 ∧ s.barField mo 0 0 = 1) →
      layers ≤ 16 → (∀ x, x < 16 → mapGet x (16 * d + x) s.layers < 16) →
      ∃ t, exec (.mapoutSwitch d) s = .next t ∧ t.tiles = s.tiles ∧ t.me = s.me ∧ t.others = s.others ∧
        (s.barField mo 7 4 = layers - 1 → t.dev = s.dev ∧ t.layers = s.layers) ∧
        ∀ a, a / 2 ^ 36 ≠ d → t.dev.read a = s.dev.read a) ∧
    (∀ d e, d < 8 → e < 4 → s.ready d = true → exec (.weltReplay d e false) s =
        .next (s.freshWord.2.countCorr d (0xD80 + 8 * e) 0xFF 0 s.freshWord.1) ∧
      exec (.weltReplay d e true) s =
        .next (s.freshWord.2.countCorr d (0xD80 + 8 * e) 0xFF 0 s.freshWord.1).outOfService) ∧
    (∀ p, s.ready (railBit p) = true → exec (.dieRailFault p) s =
      .next (if hasRail p then (s.setReady (railBit p) false).outOfService else s.setReady (railBit p) false)) ∧
    (s.boot.step ≠ 0 → exec .thermalShutdown s = .next s.outOfService) ∧
    (s.boot.step = 0 → ∃ t, exec .powerUp s = .next t ∧ t.dev = s.dev ∧ t.host = s.host ∧ t.tiles = Mem.empty ∧
      t.boot.step = 1 ∧ t.crews = [] ∧ t.launches = [] ∧ t.others = [] ∧ t.me.live = false) ∧
    (∀ p ok, p ∈ bringParts s.boot.step → p ∉ s.boot.settled → s.partEnds p ok = true →
      ∃ t, exec (.bringupStepDone p ok) s = .next t ∧ t.host = s.host ∧ t.tiles = s.tiles ∧ t.others.length = s.others.length ∧
        (ok = true ∨ p = .nyset → s.boot.recovery = false → ∀ b, bringBit? p = some b → t.ready b = true) ∧
        (p = .rom → t.dev = s.dev ∧ t.boot.recovery = !imageAccepted s.nysetImage ∧
          (imageAccepted s.nysetImage = true → s.me.key = ⟨0, 0⟩ → t.me.live = true ∧ t.me.pc = Config.nysetEntry)) ∧
        (p ≠ .rom → t.me = s.me ∧ t.others = s.others) ∧
        (ok = false → p ≠ .rom → p ≠ .nyset → t = { s with boot := t.boot, cpRegs := t.cpRegs }) ∧
        ((∀ d, p ≠ .hbm d) → t.dev = s.dev) ∧
        (∀ d, p = .hbm d → ok = true →
          ∀ a, t.dev.read a = if d * 2 ^ 36 ≤ a ∧ a < (d + 1) * 2 ^ 36 then 0 else s.dev.read a) ∧
        (∀ c, p = .cluster c → ok = true → ∀ i, i < 8 → t.cp c i = cpReset (cpNum c i)) ∧
        ∀ q, p = .cxl q → ok = true → t.cxlDown = s.cxlDown.filter fun x => x != q) ∧
    (∀ w k, s.ready 41 = true →
      let u := s.setBar 0x208 (num (w % 2 ^ 16 + 2 ^ 16 *
        (if s.barField 0x200 15 0 ≤ w % 2 ^ 16 then min (s.barField 0x208 31 16 + 1) 0xFFFF else s.barField 0x208 31 16) +
        2 ^ 32 * (k % 2 ^ 16)))
      exec (.powerSample w k) s = .next (if 105 ≤ k % 2 ^ 16 then u.outOfService else u)) ∧
    (∀ req : List Byte, s.ready 41 = true →
      let tells := fun (i : Instr) (t : State) (r : List Byte) =>
        exec i s = .next t ∧ t = { s with boot := t.boot, out := .spdm r :: s.out, free := t.free }
      (fieldAt req 1 1 = 0x84 → ∃ t, tells (.getVersion req) t [0x10, 0x04, 0, 0, 0, 1, 0x00, 0x13] ∧
        t.boot.spdm = 1) ∧
      (fieldAt req 1 1 = 0xE1 → 1 ≤ s.boot.spdm → ∃ t r, tells (.getCapabilities req) t r ∧
        r.take 4 = [0x13, 0x61, 0, 0] ∧ t.boot.spdm = 2) ∧
      (fieldAt req 1 1 = 0xE3 → 2 ≤ s.boot.spdm → ∃ t r, tells (.negotiateAlgorithms req) t r ∧
        r.take 4 = [0x13, 0x63, 0, 0] ∧ t.boot.spdm = 3) ∧
      (fieldAt req 1 1 = 0x81 → 3 ≤ s.boot.spdm → ∃ t,
        tells (.getDigests req) t ([0x13, 0x01, 1, 1] ++ sha3 identityChain)) ∧
      (fieldAt req 1 1 = 0x82 → 3 ≤ s.boot.spdm → fieldAt req 2 1 % 16 = 0 →
        fieldAt req 4 2 < identityChain.length → ∃ t r, tells (.getCertificate req) t r ∧
          r.drop 8 = (identityChain.drop (fieldAt req 4 2)).take (fieldAt req 6 2)) ∧
      (fieldAt req 1 1 = 0x83 → 3 ≤ s.boot.spdm → fieldAt req 2 1 = 0 → ∃ t r, tells (.challenge req) t r ∧
        r.take 4 = [0x13, 0x03, 0, 1]) ∧
      (fieldAt req 1 1 = 0xE0 → 3 ≤ s.boot.spdm → fieldAt req 3 1 ≤ 4 ∨ fieldAt req 3 1 = 0xFF →
        ∃ t r, tells (.getMeasurements req) t r ∧ r.take 2 = [0x13, 0x60])) ∧
    (∀ req : List Byte, s.ready 41 = false → ∀ i ∈ [Instr.getVersion req, .getCapabilities req, .negotiateAlgorithms req,
        .getDigests req, .getCertificate req, .challenge req, .getMeasurements req],
      exec i s = .next { s with out := .spdm [0x13, 0x7F, 0x03, 0] :: s.out })

/-! ### Decoding, issue, reset and the whole machine -/

/-- R106: the guard reads its condition register at issue, as the last instruction that wrote it left it, and waits on
nothing. The guard of Q = 0 and QN = 0 always executes; a word with Q = 0 and QN = 1 is ILLEGAL. A word that is ILLEGAL
traps whatever its guard. A guarded-off instruction changes no register and nothing else, appends nothing, takes no trap
and waits on nothing; PC moves past its length, with MOVL past its literal too. -/
def Obligations.GuardedOff : Prop :=
  (∀ s : State, s.guardOn ⟨false, 0⟩ = true) ∧
  (∀ w lit : Word, w.extractLsb' 30 3 = 0 → w.getLsbD 33 = true → ∃ e, decodeWord w lit = .error e) ∧
  (∀ (i : Instr) (s : State) (d : CReg) (b : Prop) (fl : Flags), CDone i s d b fl → d ≠ 0 →
    ∃ t, exec i s = .next t ∧ (t.guardOn ⟨false, d⟩ = true ↔ b) ∧ (t.guardOn ⟨true, d⟩ = true ↔ ¬ b)) ∧
  (∀ (s t : State) (bs : List Byte) (e : DecodeError), s.agenda = [] → s.issuable = true → s.fetch = .bytes bs t →
    decode bs = .error e → ∃ u, step s = .next u ∧ u.me = (t.illegal e.info).me ∧
      (t.me.inHandler = false → InHandler t.tick (t.illegal e.info) 0x01 0 e.info)) ∧
  ∀ (s : State) (g : Guard), s.guardOn g = false →
    (∀ i ∈ [Instr.nop g, Instr.brk g, Instr.eret g, Instr.roinv g, Instr.exit g, Instr.yield g], Nothing i
      s) ∧
    (∀ o : TrapOp, Nothing (.trap g o) s) ∧
    (∀ o : SrdOp, Nothing (.srd g o) s) ∧
    (∀ o : SwrOp, Nothing (.swr g o) s) ∧
    (∀ o : ScopeOp, ∀ i ∈ [Instr.fence g o, .hjoina g o], Nothing i s) ∧
    (∀ o : RangeOp, Nothing (.fencer g o) s) ∧
    (∀ o : SrcX, ∀ i ∈ [Instr.chk g o, .waiti g o, .jr g o, .ret g o, .psetx g o, .park g o, .cpyabort g o],
      Nothing i s) ∧
    (∀ o : ChkvOp, Nothing (.chkv g o) s) ∧
    (∀ o : TlbiOp, Nothing (.tlbi g o) s) ∧
    (∀ o : JmpOp, Nothing (.jmp g o) s) ∧
    (∀ o : CallOp, Nothing (.call g o) s) ∧
    (∀ o : X2, ∀ i ∈ [Instr.callr g o, .cpystat g o], Nothing i s) ∧
    (∀ o : MovlOp, ∃ t, exec (.movl g o) s = .next t ∧ Ended s t 16 ∧ OnlyRegs s t [] [] [] [] 0) ∧
    (∀ o : X3w, ∀ i ∈ [Instr.add g o, .sub g o, .shl g o, .shr g o, .sar g o, .rol g o, .ror g o, .mul g o,
      .mulh g o, .mulhn g o, .div g o, .divn g o, .rem g o, .remn g o, .min g o, .max g o, .minn g o, .maxn g
      o], Nothing i s) ∧
    (∀ o : X3, ∀ i ∈ [Instr.and g o, .or g o, .xor g o, .andn g o, .orn g o, .sext g o, .zext g o], Nothing
      i s) ∧
    (∀ o : X4w, Nothing (.madd g o) s) ∧
    (∀ o : SelOp, Nothing (.sel g o) s) ∧
    (∀ o : X2w, ∀ i ∈ [Instr.clz g o, .ctz g o, .pop g o, .brev g o, .bswap g o], Nothing i s) ∧
    (∀ o : X4, ∀ i ∈ [Instr.bfx g o, .bfi g o], Nothing i s) ∧
    (∀ o : XIw, ∀ i ∈ [Instr.iopiAdd g o, .iopiShl g o, .iopiShr g o, .iopiSar g o, .iopiRol g o, .iopiRor g
      o, .iopiMul g o, .iopiMin g o, .iopiMax g o, .iopiMinn g o, .iopiMaxn g o], Nothing i s) ∧
    (∀ o : XI, ∀ i ∈ [Instr.iopiAnd g o, .iopiOr g o, .iopiXor g o], Nothing i s) ∧
    (∀ o : ExtI, ∀ i ∈ [Instr.iopiSext g o, .iopiZext g o], Nothing i s) ∧
    (∀ o : BfI, ∀ i ∈ [Instr.iopiBfx g o, .iopiBfi g o], Nothing i s) ∧
    (∀ o : CmpOp, ∀ i ∈ [Instr.cmpEq g o, .cmpNe g o, .cmpLt g o, .cmpGe g o, .cmpLe g o, .cmpGt g o,
      .cmpLtn g o, .cmpGen g o, .cmpLen g o, .cmpGtn g o, .cmpTst g o, .cmpNtst g o], Nothing i s) ∧
    (∀ o : CmpIOp, ∀ i ∈ [Instr.cmpiEq g o, .cmpiNe g o, .cmpiLt g o, .cmpiGe g o, .cmpiLe g o, .cmpiGt g o,
      .cmpiLtn g o, .cmpiGen g o, .cmpiLen g o, .cmpiGtn g o, .cmpiTst g o, .cmpiNtst g o], Nothing i s) ∧
    (∀ o : MovwOp, ∀ i ∈ [Instr.movw g o, .movk g o], Nothing i s) ∧
    (∀ o : LeaOp, Nothing (.lea g o) s) ∧
    (∀ o : C3, ∀ i ∈ [Instr.pand g o, .por g o, .pxor g o, .pandn g o], Nothing i s) ∧
    (∀ o : C2, Nothing (.pnot g o) s) ∧
    (∀ o : DstX, Nothing (.xgetp g o) s) ∧
    (∀ o : F3, ∀ i ∈ [Instr.fadd g o, .fsub g o, .fmul g o, .fdiv g o], Nothing i s) ∧
    (∀ o : F4, Nothing (.ffma g o) s) ∧
    (∀ o : F2, ∀ i ∈ [Instr.fsqrt g o, .fcvtw g o], Nothing i s) ∧
    (∀ o : F3n, ∀ i ∈ [Instr.fmin g o, .fmax g o], Nothing i s) ∧
    (∀ o : F2n, ∀ i ∈ [Instr.fabs g o, .fneg g o, .fclass g o], Nothing i s) ∧
    (∀ o : FcvtOp, ∀ i ∈ [Instr.fcvti g o, .fcvtf g o], Nothing i s) ∧
    (∀ o : FcmpOp, ∀ i ∈ [Instr.feq g o, .flt g o, .fle g o, .fun_ g o], Nothing i s) ∧
    (∀ o : LdOp, Nothing (.ld g o) s) ∧
    (∀ o : StOp, ∀ i ∈ [Instr.st g o, .tst g o], Nothing i s) ∧
    (∀ o : AtomOp, ∀ i ∈ [Instr.atomXchg g o, .atomAdd g o, .atomAnd g o, .atomOr g o, .atomXor g o,
      .atomMin g o, .atomMax g o, .atomMinn g o, .atomMaxn g o, .atomIncw g o, .atomDecw g o], Nothing i s) ∧
    (∀ o : AtomCasOp, Nothing (.atomCas g o) s) ∧
    (∀ o : AtomFOp, ∀ i ∈ [Instr.atomFadd g o, .atomFmin g o, .atomFmax g o], Nothing i s) ∧
    (∀ o : VMemOp, ∀ i ∈ [Instr.vld g o, .vlds g o, .vldb g o, .vst g o, .vsts g o, .tldv g o, .tldvs g o,
      .tstv g o, .tstvs g o], Nothing i s) ∧
    (∀ o : VgsOp, ∀ i ∈ [Instr.vgather g o, .vscatter g o, .vscadd g o], Nothing i s) ∧
    (∀ o : PrefOp, ∀ i ∈ [Instr.prefetchDc g o, .prefetchCs g o], Nothing i s) ∧
    (∀ o : TldOp, Nothing (.tld g o) s) ∧
    (∀ o : MmaOp, Nothing (.mma g o) s) ∧
    (∀ o : MmaROp, Nothing (.mmaReg g o) s) ∧
    (∀ o : MmasOp, Nothing (.mmas g o) s) ∧
    (∀ o : MmasROp, Nothing (.mmasReg g o) s) ∧
    (∀ o : Z1, Nothing (.zzero g o) s) ∧
    (∀ o : ZldOp, Nothing (.zld g o) s) ∧
    (∀ o : ZstOp, Nothing (.zst g o) s) ∧
    (∀ o : ZstsOp, Nothing (.zsts g o) s) ∧
    (∀ o : ZbiasOp, Nothing (.zbias g o) s) ∧
    (∀ o : TarmOp, Nothing (.tarm g o) s) ∧
    (∀ o : TwaitOp, Nothing (.twait g o) s) ∧
    (∀ o : TagOp, ∀ i ∈ [Instr.ttake g o, .tmark g o, .tpois g o, .tzero g o], Nothing i s) ∧
    (∀ o : TstatOp, Nothing (.tstat g o) s) ∧
    (∀ o : TagAOp, ∀ i ∈ [Instr.tscls g o, .barexp g o], Nothing i s) ∧
    (∀ o : TsclgOp, Nothing (.tsclg g o) s) ∧
    (∀ o : SendOp, Nothing (.tsend g o) s) ∧
    (∀ o : SendVOp, Nothing (.tsendv g o) s) ∧
    (∀ o : AbcOp, ∀ i ∈ [Instr.tsendx g o, .rgput g o], Nothing i s) ∧
    (∀ o : BmdOp, ∀ i ∈ [Instr.tnote g o, .trgmark g o], Nothing i s) ∧
    (∀ o : HforkOp, ∀ i ∈ [Instr.hfork g o, .hjoin g o], Nothing i s) ∧
    (∀ o : HwaitOp, Nothing (.hwait g o) s) ∧
    (∀ o : HpassOp, Nothing (.hpass g o) s) ∧
    (∀ o : HrecvOp, Nothing (.hrecv g o) s) ∧
    (∀ o : HcntOp, Nothing (.hcnt g o) s) ∧
    (∀ o : BarinitOp, Nothing (.barinit g o) s) ∧
    (∀ o : BararrOp, Nothing (.bararr g o) s) ∧
    (∀ o : BararxOp, Nothing (.bararx g o) s) ∧
    (∀ o : BarwaitOp, Nothing (.barwait g o) s) ∧
    (∀ o : BartryOp, Nothing (.bartry g o) s) ∧
    (∀ o : BarinvOp, Nothing (.barinv g o) s) ∧
    (∀ o : SpawnOp, Nothing (.spawn g o) s) ∧
    (∀ o : CpygoOp, Nothing (.cpygo g o) s) ∧
    (∀ o : LayOp, ∀ i ∈ [Instr.layset g o, .layget g o], Nothing i s) ∧
    (∀ o : RgreadOp, Nothing (.rgread g o) s) ∧
    (∀ o : RgposOp, ∀ i ∈ [Instr.rgpos g o, .trgnext g o], Nothing i s) ∧
    (∀ o : TrgOp, ∀ i ∈ [Instr.trgfwd g o, .trgacc g o], Nothing i s) ∧
    (∀ o : TrgrejOp, Nothing (.trgrej g o) s) ∧
    (∀ o : V3i, ∀ i ∈ [Instr.vadd g o, .vsub g o, .vmul g o, .vmulh g o, .vmadd g o, .vand g o, .vor g o,
      .vxor g o, .vshl g o, .vshr g o, .vsar g o, .vmin g o, .vmax g o, .vadds g o, .vsubs g o, .vdot4 g o,
      .vsel g o], Nothing i s) ∧
    (∀ o : V2i, ∀ i ∈ [Instr.vabs g o, .vneg g o, .vpop g o, .vclz g o], Nothing i s) ∧
    (∀ o : V3f, ∀ i ∈ [Instr.vfadd g o, .vfsub g o, .vfmul g o, .vffma g o, .vffms g o, .vfdiv g o, .vfscl g
      o], Nothing i s) ∧
    (∀ o : V3fn, ∀ i ∈ [Instr.vfmin g o, .vfmax g o], Nothing i s) ∧
    (∀ o : V2fn, ∀ i ∈ [Instr.vfabs g o, .vfneg g o], Nothing i s) ∧
    (∀ o : V2f, ∀ i ∈ [Instr.vfsqrt g o, .vfrcp g o, .vfrsq g o, .vfexp2 g o, .vflog2 g o], Nothing i s) ∧
    (∀ o : VcvtOp, Nothing (.vcvt g o) s) ∧
    (∀ o : VcvtscOp, Nothing (.vcvtsc g o) s) ∧
    (∀ o : V3m, Nothing (.vperm g o) s) ∧
    (∀ o : VxOp, ∀ i ∈ [Instr.vbcast g o, .viota g o], Nothing i s) ∧
    (∀ o : VinsOp, Nothing (.vins g o) s) ∧
    (∀ o : VextOp, Nothing (.vext g o) s) ∧
    (∀ o : VredOp, Nothing (.vred g o) s) ∧
    (∀ o : VscanOp, Nothing (.vscan g o) s) ∧
    (∀ o : V2m, ∀ i ∈ [Instr.vcomp g o, .vexpd g o, .vmov g o], Nothing i s) ∧
    (∀ o : VslideOp, Nothing (.vslide g o) s) ∧
    (∀ o : VcmpOp, ∀ i ∈ [Instr.vcmpEq g o, .vcmpNe g o, .vcmpLt g o, .vcmpGe g o, .vcmpLe g o, .vcmpGt g o,
      .vcmpLtn g o, .vcmpGen g o, .vcmpLen g o, .vcmpGtn g o, .vcmpTst g o, .vcmpNtst g o, .vcmpFeq g o,
      .vcmpFlt g o, .vcmpFle g o, .vcmpFun g o], Nothing i s) ∧
    (∀ o : VrandOp, Nothing (.vrand g o) s) ∧
    (∀ o : VmoviOp, Nothing (.vmovi g o) s) ∧
    (∀ o : K3, ∀ i ∈ [Instr.kand g o, .kor g o, .kxor g o], Nothing i s) ∧
    (∀ o : K2, Nothing (.knot g o) s) ∧
    (∀ o : KsetxOp, Nothing (.ksetx g o) s) ∧
    (∀ o : KgetxOp, ∀ i ∈ [Instr.kgetx g o, .kpop g o], Nothing i s) ∧
    (∀ o : VdotOp, Nothing (.vbdot g o) s) ∧
    (∀ o : VdotsOp, Nothing (.vbdots g o) s)

/-- R104 to R113: the words the assembly chapter works out, field by field, decode to what they are written for: the
formats R, I, M, J and X, the guard, rounding with DYN, orders, scopes and handles. -/
def Obligations.DecodeSamples : Prop :=
  let g : Guard := ⟨false, 0⟩
  decodeTableWord 64 0x0000000000000001 = some (.nop g) ∧
  decodeTableWord 64 0x00000000001C6148 = some (.add g ⟨5, 6, 7, false⟩) ∧
  decodeTableWord 64 0x00000000C01C6148 = some (.add ⟨false, 3⟩ ⟨5, 6, 7, false⟩) ∧
  decodeTableWord 64 0x00000002C01C6148 = some (.add ⟨true, 3⟩ ⟨5, 6, 7, false⟩) ∧
  decodeTableWord 64 0x00000001001C6148 = some (.add ⟨false, 4⟩ ⟨5, 6, 7, false⟩) ∧
  decodeTableWord 64 0xFFF400003F006149 = some (.iopiAdd g ⟨5, 6, .ofInt 22 (-12), false⟩) ∧
  decodeTableWord 64 0x000C000000006149 = some (.iopiAdd g ⟨5, 6, 12, false⟩) ∧
  decodeTableWord 64 0x00105A18001441D0 = some (.ld g ⟨7, 4, 5, 16, .s32, true, .plain, .acquire, .die, 2⟩) ∧
  decodeTableWord 64 0x00105A08001441D0 = some (.ld g ⟨7, 4, 5, 16, .s32, false, .plain, .acquire, .die, 2⟩) ∧
  decodeTableWord 64 0x00105A38001441D0 = some (.ld g ⟨7, 4, 5, 16, .s32, true, .spec, .acquire, .die, 2⟩) ∧
  decodeTableWord 64 0x00101A18001441D0 = some (.ld g ⟨7, 4, 5, 16, .s32, true, .plain, .plain, .die, 2⟩) ∧
  decodeTableWord 64 0x00106218001441D0 = some (.ld g ⟨7, 4, 5, 16, .s32, true, .plain, .acquire, .package, 2⟩) ∧
  decodeTableWord 64 0x00105818001441D0 = some (.ld g ⟨7, 4, 5, 16, .s32, true, .plain, .acquire, .die, 0⟩) ∧
  decodeTableWord 64 0xFFF05A18001441D0 =
    some (.ld g ⟨7, 4, 5, .ofInt 16 (-16), .s32, true, .plain, .acquire, .die, 2⟩) ∧
  decodeTableWord 64 0x0008A30C00009291 = some (.st g ⟨10, 9, 0, 8, .s64, .release, .package, 3⟩) ∧
  decodeTableWord 64 0x8000080C020810E9 = some (.vffma g ⟨3, 1, 2, 2, .f32, .dyn⟩) ∧
  decodeTableWord 64 0x0000080C020810E9 = some (.vffma g ⟨3, 1, 2, 2, .f32, .rne⟩) ∧
  decodeTableWord 64 0x0000180C020810E9 = some (.vffma g ⟨3, 1, 2, 2, .f32, .rtz⟩) ∧
  decodeTableWord 64 0xFFFFFFF400000002 = some (.jmp g ⟨.ofInt 30 (-3)⟩) ∧
  decodeTableWord 64 0x00000000C0000002 = some (.jmp ⟨false, 3⟩ ⟨0⟩) ∧
  decodeTableWord 64 0x0000001400000F83 = some (.call g ⟨62, 5⟩) ∧
  decodeTableWord 128 0x0123456789ABCDEF00000000000001C6 = some (.movl g ⟨7, 0x0123456789ABCDEF⟩) ∧
  decodeTableWord 64 0x000000040000001E = some (.exit g)

/-- R131, R132: the words the opcode map works out as ILLEGAL: the check each fails is the one
TRAP_INFO reports, of an ILLEGAL trap that leaves the rest as a precise trap does. -/
def Obligations.IllegalWords : Prop :=
  ∀ w e n, (w, e, n) ∈
      [(0x0000000000000000#64, DecodeError.major, 1#64), (0x0123456789ABCDEF, .major, 1),
       (0x00000088001C6148, .function, 2), (0x00105A68001441D0, .function, 2), (0xFFF400003F046149, .mustBeZero, 3),
       (0x0000080C02081A29, .register, 4), (0x00107A18001441D0, .modifier, 5), (0x0000000200000001, .guard, 6)] →
    (∀ lit, decodeWord w lit = .error e) ∧ e.info = n ∧
    ∀ s : State, s.me.inHandler = false → InHandler s.tick (s.illegal e.info) 0x01 0 n

/-- R29, R105, R113, R314: with nothing on the agenda, a strand that may issue executes the instruction its fetched
bytes decode to, after at least one cycle of its core; a word that is none traps ILLEGAL, and a fetch that faults or
walks stops. The fetch is a read of the core's read-only copy of the line, filled where it is absent, or of the tile,
and changes no memory, no strand and no register. The head of the agenda says which step is taken otherwise. After the
step the wait words that it has written are read again, which changes launches alone. (The agenda is the model's own:
log entry 2.) -/
def Obligations.StepRunsDecoded : Prop :=
  let after := fun (s : State) (r : Host.Outcome State Fault Refusal) => match r with
    | .next t => .next (t.rereadWaits s)
    | .fault f => .fault f
    | .refused x => .refused x
  (∀ (s t : State) (bs rest : List Byte) (i : Instr), s.agenda = [] → s.issuable = true → s.fetch = .bytes bs t →
    decode bs = .ok (i, rest) → step s = after s (exec i t.tick)) ∧
  (∀ (s t : State) (bs : List Byte) (e : DecodeError), s.agenda = [] → s.issuable = true → s.fetch = .bytes bs t →
    decode bs = .error e → step s = after s (.next (t.illegal e.info))) ∧
  (∀ (s t : State) (e : Eff), s.agenda = [] → s.issuable = true → s.fetch = .stop t e →
    step s = after s (.next (t.fetchStop e))) ∧
  (∀ s : State, s.agenda = [] → s.issuable = false → step s = after s (.next s)) ∧
  (∀ s t : State, t.rereadWaits s = { t with launches := (t.rereadWaits s).launches } ∧
    ((∀ l ∈ t.launches, l.finished = true ∨ l.waited = true) → t.rereadWaits s = t)) ∧
  (∀ (s : State) (acc : Access) (c : LineCopy), s.checkPlace .fetch s.me.pc 0 .fetch = .pass acc →
    acc.place.isTile = false → acc.place.isRemote = false → (∀ a, acc.place = .dev a → s.cxlLost a = false) →
    let o := CopySet.core s.me.core
    let t := if (s.copy? o acc.place.line).isSome then s
      else (s.noteCxl acc.place (acc.asid.getD 0) acc.pin).fill o acc.place.line ([], [])
    t.copy? o acc.place.line = some c → (c.read acc.place 8).2 = false →
    isLong (wordOfBytes (c.read acc.place 8).1) = false → s.fetch = .bytes (c.read acc.place 8).1 t) ∧
  (∀ (s : State) (acc : Access), s.checkPlace .fetch s.me.pc 0 .fetch = .pass acc → acc.place.isTile = true →
    (s.readHome acc.place 8 .none).2 = false → isLong (wordOfBytes (s.readHome acc.place 8 .none).1) = false →
    s.fetch = .bytes (s.readHome acc.place 8 .none).1 s) ∧
  (∀ (s t : State) (bs : List Byte), s.fetch = .bytes bs t →
    t = { s with copies := t.copies, free := t.free, hot := t.hot, out := t.out }) ∧
  (∀ (s t : State) (rest : List Input), s.agenda = [] →
    (∀ i, let u := { s with agenda := .event i :: rest }; step u = after u (exec i { s with agenda := rest })) ∧
    (∀ k, let v := { s with agenda := .issue k :: rest }
      t = State.select { s with agenda := rest } k → t.issuable = true → t.me.key = k →
      (∀ bs u i more, t.fetch = .bytes bs u → decode bs = .ok (i, more) → step v = after v (exec i u.tick)) ∧
      (∀ bs u e, t.fetch = .bytes bs u → decode bs = .error e → step v = after v (.next (u.illegal e.info))) ∧
      ∀ u e, t.fetch = .stop u e → step v = after v (.next (u.fetchStop e))))

/-- R18, R379, R398, R403, R408: at reset PWRLIM is 2,400 W, each stack has 16 layer ranges and a patrol scrub of
period 2^40, each cluster's controller is OFF with its rail off, and every other register outside a strand is 0. No
core has counted a cycle, no memory lists a byte, and no CXL port is up. The values that R379 gives a controller's
registers are what bring-up sets. (State.reset is the moment before the package is powered: log entry 4; a register
the spec gives no reset value for is 0: log entry 5.) -/
def Obligations.ResetValues : Prop :=
  let s := State.reset
  s.bar 0x200 = 2400 ∧
  (∀ d, d < 8 → s.bar (stackReg d 0) = 16 ∧ s.bar (stackReg d 0x10) = 0x8028000000000000) ∧
  (∀ off, off ≠ 0x200 → (∀ d, d < 8 → off ≠ stackReg d 0 ∧ off ≠ stackReg d 0x10) → s.bar off = 0) ∧
  (∀ c, c < 96 → s.cp c 0 = 2 ∧ s.cp c 1 = 0x6001 ∧ s.cp c 2 = 0 ∧ s.cp c 3 = 0x003C000000000100 ∧ s.cp c 4 = 0 ∧
    s.cp c 5 = 0x10000 ∧ s.cpState c = 6 ∧ s.clusterReady c = false) ∧
  (∀ c, cpReset (cpNum c 0) = 2 ∧ cpReset (cpNum c 1) = 6 ∧ cpReset (cpNum c 2) = 0 ∧
    cpReset (cpNum c 3) = 0xC03C000000000100 ∧ cpReset (cpNum c 4) = 0 ∧ cpReset (cpNum c 5) = 0x10000) ∧
  (∀ n i, s.ring n i = 0) ∧ (∀ core, s.coreCycles core = 0) ∧ s.cxlDown = [0, 1] ∧
  ∀ a, s.dev.read a = 0 ∧ s.host.read a = 0 ∧ s.tiles.read a = 0

/-- The invariant that `StepKeepsInvariant` states holds at reset. -/
def Obligations.ResetMeetsInvariant : Prop := State.reset.memWf

/-- R4, R391: every step, of every kind, keeps the three memories canonical: addresses strictly rising, no entry equal
to what an unlisted byte reads as, poisoned words strictly rising, so that equal memories are equal data. -/
def Obligations.StepKeepsInvariant : Prop :=
  ∀ s t : State, s.memWf → step s = .next t → t.memWf

/-- R104 to R111, R126 to R132: of every instruction that a word encodes, the bytes of its encoding decode to it, with
every operand at every value the encoding admits; and a word that decodes at all is the encoding of what it decodes to,
a well-formed instruction, so no two words are one instruction. -/
def Obligations.DecodeEncode : Prop :=
  (∀ (i : Instr) (ws : List Word), i.wf = true → encode i = some ws →
    decode (ws.flatMap bytesOfWord) = .ok (i, [])) ∧
  (∀ (w lit : Word) (i : Instr), decodeWord w lit = .ok i → i.wf = true ∧ encode i = some (w :: encodeLiteral i))

/-- R246, R247, R251, R253, R254, R259 to R261, R266, R268, R293: what is pending is written, delivered and closed. A
sample goes to its position, s mod N, with its bit of the bitmap, HEAD passes it, and no other byte changes; a gap of N
or more makes every position zero and poisoned and moves HEAD over it. A block of samples is sent as HEAD passes it,
where its tile is vacant. A closed claim has its 64 bytes in the header area, and PROD advances. A fault disables the
ring, HEAD and PROD staying. Which accesses a gap of N or more makes, and that it leaves the blocks it jumps unsent, are
the model's choices (log entry 30). -/
def Obligations.RingsWrite : Prop :=
  (∀ (s : State) (n : Nat) (u : RingUnit), s.liveUnit? n = some u →
    let x := s.rgHead n
    let size := s.rgSize n
    (∀ bs p left, s.writerStalled n = false → s.nextSample n u bs p left →
      let pos := x % s.rgN n
      let bit := s.ring n 2 + num (pos / 8)
      let thr := s.ring n 8
      let val := elemVal (elemOf (s.rgType n)) (packedElem bs (typeWidth (s.rgType n)) 0)
      let limit := absVal (Fmt.f32.decode (fieldOf thr 31 0))
      let seeds := thr.getLsbD 63 = true ∧ p = false ∧ (∀ y, u.seedUntil = some y → idxLe x y = false) ∧
        val.isNan = false ∧ limit.isNan = false ∧ ltVal (absVal val) limit = false
      (∀ t, (s.setUnit n { u with pending := left }).writeSample n bs p = .ok t → exec (.sampleWrite n) s = .next t) ∧
      ∀ a b, s.ringReaches n .load bit b s.dev → s.ringReaches n .store bit b s.dev →
        s.ringReaches n .store (s.ring n 1 + num (pos * size)) a s.dev →
        s.ringReaches n .store bit b (s.dev.store (s.storeAddr a) bs false) →
        ¬seeds ∨ (u.queue 0).length < s.rgDepth n 0 →
        let old := s.dev.read (s.storeAddr b)
        let m : Byte := 1#8 <<< (pos % 8)
        let d := (s.dev.store (s.storeAddr a) bs false).store (s.storeAddr b)
          [if p then old ||| m else old &&& ~~~m] (s.dev.poisoned (s.storeAddr b) 1)
        ∃ t v, exec (.sampleWrite n) s = .next t ∧
          RingStep s t n (s.setRing n 4 (num ((x + 1) % 2 ^ 48))).ringRegs d v ∧
          v = { u with
            pending := left
            queues := v.queues
            seedUntil := v.seedUntil
            recent := if s.rgBlock n = 0 then u.recent else u.recent ++ [(x, (bs, p))]
            block := v.block, due := v.due, vacA := v.vacA, vacB := v.vacB } ∧
          (¬seeds → v.queues = u.queues ∧ v.seedUntil = u.seedUntil) ∧
          (seeds → v.seedUntil = some (idx ((x : Int) + fieldOf thr 55 32)) ∧ v.queues = (u.setQueue 0 (u.queue 0 ++
            [⟨num (x + 2 ^ 48 * n), num (convertTo .f32 .rne false (isIntType (elemOf (s.rgType n))) val).code⟩])).queues) ∧
          (s.rgBlock n = 0 → v.block = u.block ∧ v.due = u.due ∧ v.vacA = u.vacA ∧ v.vacB = u.vacB) ∧
          (s.rgBlock n ≠ 0 → x + 1 = (u.block + 1) * s.rgBlock n → x + 1 < 2 ^ 48 → v.block = u.block + 1 ∧
            v.due = u.due ++ [⟨u.block, 1, u.blockVacant (s.ring n 6) (s.ring n 7) u.block⟩]) ∧
          ∀ y, (y < s.storeAddr a ∨ s.storeAddr a + bs.length ≤ y) → y ≠ s.storeAddr b → t.dev.read y = s.dev.read y) ∧
    (∀ g r rest, s.writerStalled n = false → u.pending = .gap g r :: rest → s.rgN n ≤ g →
      (∀ t, (s.setUnit n { u with pending := rest }).jumpHead n g = .ok t → exec (.sampleWrite n) s = .next t) ∧
      ∀ a b : Nat → Nat,
        (∀ i, i < s.rgN n → ∀ d, s.ringReaches n .store (s.ring n 1 + num (i * size)) (a i) d ∧
          s.ringReaches n .store (s.ring n 2 + num (i / 8)) (b (i / 8)) d) →
        ∃ t v, exec (.sampleWrite n) s = .next t ∧
          RingStep s t n (s.setRing n 4 (num (idx ((x : Int) + g)))).ringRegs t.dev v ∧ v.pending = rest ∧
          (s.rgBlock n = 0 → v = { u with pending := rest }) ∧
          (∀ y, (∀ i, i < s.rgN n → (y < s.storeAddr (a i) ∨ s.storeAddr (a i) + size ≤ y) ∧
            y ≠ s.storeAddr (b (i / 8))) → t.dev.read y = s.dev.read y) ∧
          (s.dev.wf = true → (∀ i j, i < s.rgN n → j < s.rgN n →
              s.storeAddr (b (j / 8)) < s.storeAddr (a i) ∨ s.storeAddr (a i) + size ≤ s.storeAddr (b (j / 8))) →
            ∀ i, i < s.rgN n → t.dev.read (s.storeAddr (b (i / 8))) = 0xFF#8 ∧
              ∀ y, s.storeAddr (a i) ≤ y → y < s.storeAddr (a i) + size → t.dev.read y = 0)) ∧
    (∀ d rest, u.due = d :: rest →
      let dst := s.ring n (if d.block % 2 = 1 then 7 else 6)
      let later := u.recent.filter fun r => idxLe (idx ((d.block + d.count) * s.rgBlock n : Nat)) r.1
      (d.send = true → s.targetDenied (s.ringWho n).part (s.ringWho n).secure dst = none →
        ∃ t v, exec (.headDelivery n) s = .next t ∧ SameMem s t ∧ t.me = s.me ∧ t.others = s.others ∧
          t.nextId = s.nextId + 1 ∧ t.unit? n = some v ∧ v.due = rest ∧ v.recent = later ∧ v.skipped = 0 ∧
          t.bag = s.bag ++ [⟨s.nextId, [], none, dst, s.tileVia (s.ringWho n).part dst, (s.blockTransfer n u d.block).1,
            (s.blockTransfer n u d.block).2, (s.ringWho n).part, (s.ringWho n).secure,
            some ⟨n, d.block % 2 == 1, u.skipped⟩, none, .plain, .domain⟩]) ∧
      ∀ k, s.blockAt n k →
        (d.send = true → ∀ r, s.targetDenied (s.ringWho n).part (s.ringWho n).secure dst = some r →
          ∃ t, exec (.headDelivery n) s = .next (t.faultRecord (s.ringWho n).part 0x05 (num (r * 2 ^ 12)) dst) ∧
            RingStep s t n s.ringRegs (s.dev.counted (k + 0x040) (s.rgBlock n)) { u with
              due := rest
              recent := later
              skipped := u.skipped + s.rgBlock n
              vacA := u.vacA || d.block % 2 == 0
              vacB := u.vacB || d.block % 2 == 1 }) ∧
        (d.send = false → ∃ t, exec (.headDelivery n) s = .next t ∧
          RingStep s t n s.ringRegs (s.dev.counted (k + 0x040) (d.count * s.rgBlock n)) { u with
            due := rest, recent := later, skipped := u.skipped + d.count * s.rgBlock n } ∧
          ∀ y, y < k + 0x040 ∨ k + 0x048 ≤ y → t.dev.read y = s.dev.read y)) ∧
    (∀ isB, s.ring n (if isB then 7 else 6) ≠ 0 → s.isOwnNode (gtNode (s.ring n (if isB then 7 else 6))) = false →
      exec (.vacancyNotice n isB) s =
        .next (s.setUnit n { u with vacA := u.vacA || !isB, vacB := u.vacB || isB })) ∧
    (∀ id c, u.claims.find? (fun c => c.id == id) = some c → s.claimDone n c = true →
      (∀ a, s.ringReaches n .store (s.headerSlot n) a s.dev → ∃ t, exec (.claimClose n id) s = .next t ∧
        HeaderWritten s t n u c c.last (s.storeAddr a)) ∧
      ∀ t, s.writeHeader n u c c.last = .ok t → exec (.claimClose n id) s = .next t) ∧
    (∀ a, s.ringFaultAt? n u = some a → RingFaults s n u a) ∧
    (∀ bs p left a, s.writerStalled n = false → s.nextSample n u bs p left →
      s.ringPlace n .load (s.ring n 2 + num (x % s.rgN n / 8)) = .error (.fault a) → RingFaults s n u a)) ∧
  ∀ (c : Claim) (n last seq size kn : Nat) (split : Bool),
    let h := c.header n last seq size kn split
    h.length = 64 ∧ fieldAt h 0x00 6 = c.first % 2 ^ 48 ∧ fieldAt h 0x06 1 = n % 256 ∧
    (fieldAt h 0x07 1).testBit 0 = (c.truncated != 0 || c.dead) ∧ (fieldAt h 0x07 1).testBit 1 = c.joined ∧
    (fieldAt h 0x07 1).testBit 2 = c.late ∧ (fieldAt h 0x07 1).testBit 3 = c.super.isSome ∧
    (fieldAt h 0x07 1).testBit 4 = c.group ∧ fieldAt h 0x07 1 / 32 = min 7 (c.accs.length - 1) ∧
    fieldAt h 0x08 4 = idxCount c.first last % 2 ^ 32 ∧ fieldAt h 0x0C 4 = c.poisoned % 2 ^ 32 ∧
    fieldAt h 0x10 4 = c.lost % 2 ^ 32 ∧ fieldAt h 0x14 4 = c.truncated % 2 ^ 32 ∧ fieldAt h 0x18 4 = seq % 2 ^ 32 ∧
    (∀ q, c.super = some q → fieldAt h 0x1C 4 = q % 2 ^ 32) ∧
    fieldAt h 0x20 8 = (if split then c.offset % (kn * size) else c.first % kn * size) % 2 ^ 64 ∧
    ∀ i, i < 4 → fieldAt h (0x28 + 6 * i) 6 = (match c.accs[i]? with
      | some a => a.2 % 2 ^ 48
      | none => 2 ^ 48 - 1)
end

