-- ==== Sys2Proof/Laws/State.lean ====
section
/-!
SUPPORT. Laws/State.lean: what each update of the machine and of a strand leaves as it was, field by field, and what a
register reads after a write.
-/

namespace Sys2Proof.Machine

/-! ### Updates of the executing strand leave the rest of the machine alone -/

@[simp] theorem State.onMe_me (s : State) (f : Strand → Strand) : (s.onMe f).me = f s.me := rfl
@[simp] theorem State.onMe_others (s : State) (f : Strand → Strand) : (s.onMe f).others = s.others := rfl
@[simp] theorem State.onMe_crews (s : State) (f : Strand → Strand) : (s.onMe f).crews = s.crews := rfl
@[simp] theorem State.onMe_launches (s : State) (f : Strand → Strand) : (s.onMe f).launches = s.launches := rfl
@[simp] theorem State.onMe_dispatchers (s : State) (f : Strand → Strand) : (s.onMe f).dispatchers = s.dispatchers := rfl
@[simp] theorem State.onMe_dev (s : State) (f : Strand → Strand) : (s.onMe f).dev = s.dev := rfl
@[simp] theorem State.onMe_host (s : State) (f : Strand → Strand) : (s.onMe f).host = s.host := rfl
@[simp] theorem State.onMe_tiles (s : State) (f : Strand → Strand) : (s.onMe f).tiles = s.tiles := rfl
@[simp] theorem State.onMe_tags (s : State) (f : Strand → Strand) : (s.onMe f).tags = s.tags := rfl
@[simp] theorem State.onMe_bars (s : State) (f : Strand → Strand) : (s.onMe f).bars = s.bars := rfl
@[simp] theorem State.onMe_copies (s : State) (f : Strand → Strand) : (s.onMe f).copies = s.copies := rfl
@[simp] theorem State.onMe_uplinks (s : State) (f : Strand → Strand) : (s.onMe f).uplinks = s.uplinks := rfl
@[simp] theorem State.onMe_fabric (s : State) (f : Strand → Strand) : (s.onMe f).fabric = s.fabric := rfl
@[simp] theorem State.onMe_bag (s : State) (f : Strand → Strand) : (s.onMe f).bag = s.bag := rfl
@[simp] theorem State.onMe_votes (s : State) (f : Strand → Strand) : (s.onMe f).votes = s.votes := rfl
@[simp] theorem State.onMe_voteBufs (s : State) (f : Strand → Strand) : (s.onMe f).voteBufs = s.voteBufs := rfl
@[simp] theorem State.onMe_matrix (s : State) (f : Strand → Strand) : (s.onMe f).matrix = s.matrix := rfl
@[simp] theorem State.onMe_cycles (s : State) (f : Strand → Strand) : (s.onMe f).cycles = s.cycles := rfl
@[simp] theorem State.onMe_tlb (s : State) (f : Strand → Strand) : (s.onMe f).tlb = s.tlb := rfl
@[simp] theorem State.onMe_upper (s : State) (f : Strand → Strand) : (s.onMe f).upper = s.upper := rfl
@[simp] theorem State.onMe_atc (s : State) (f : Strand → Strand) : (s.onMe f).atc = s.atc := rfl
@[simp] theorem State.onMe_ats (s : State) (f : Strand → Strand) : (s.onMe f).ats = s.ats := rfl
@[simp] theorem State.onMe_pri (s : State) (f : Strand → Strand) : (s.onMe f).pri = s.pri := rfl
@[simp] theorem State.onMe_priStopped (s : State) (f : Strand → Strand) : (s.onMe f).priStopped = s.priStopped := rfl
@[simp] theorem State.onMe_priLimits (s : State) (f : Strand → Strand) : (s.onMe f).priLimits = s.priLimits := rfl
@[simp] theorem State.onMe_pageFailed (s : State) (f : Strand → Strand) : (s.onMe f).pageFailed = s.pageFailed := rfl
@[simp] theorem State.onMe_removals (s : State) (f : Strand → Strand) : (s.onMe f).removals = s.removals := rfl
@[simp] theorem State.onMe_jobs (s : State) (f : Strand → Strand) : (s.onMe f).jobs = s.jobs := rfl
@[simp] theorem State.onMe_seqs (s : State) (f : Strand → Strand) : (s.onMe f).seqs = s.seqs := rfl
@[simp] theorem State.onMe_banks (s : State) (f : Strand → Strand) : (s.onMe f).banks = s.banks := rfl
@[simp] theorem State.onMe_rings (s : State) (f : Strand → Strand) : (s.onMe f).rings = s.rings := rfl
@[simp] theorem State.onMe_remoteRings (s : State) (f : Strand → Strand) : (s.onMe f).remoteRings = s.remoteRings := rfl
@[simp] theorem State.onMe_fnSecure (s : State) (f : Strand → Strand) : (s.onMe f).fnSecure = s.fnSecure := rfl
@[simp] theorem State.onMe_releasing (s : State) (f : Strand → Strand) : (s.onMe f).releasing = s.releasing := rfl
@[simp] theorem State.onMe_ringRegs (s : State) (f : Strand → Strand) : (s.onMe f).ringRegs = s.ringRegs := rfl
@[simp] theorem State.onMe_unmatched (s : State) (f : Strand → Strand) : (s.onMe f).unmatched = s.unmatched := rfl
@[simp] theorem State.onMe_cpRegs (s : State) (f : Strand → Strand) : (s.onMe f).cpRegs = s.cpRegs := rfl
@[simp] theorem State.onMe_pulses (s : State) (f : Strand → Strand) : (s.onMe f).pulses = s.pulses := rfl
@[simp] theorem State.onMe_railHeld (s : State) (f : Strand → Strand) : (s.onMe f).railHeld = s.railHeld := rfl
@[simp] theorem State.onMe_bar0 (s : State) (f : Strand → Strand) : (s.onMe f).bar0 = s.bar0 := rfl
@[simp] theorem State.onMe_posted (s : State) (f : Strand → Strand) : (s.onMe f).posted = s.posted := rfl
@[simp] theorem State.onMe_layers (s : State) (f : Strand → Strand) : (s.onMe f).layers = s.layers := rfl
@[simp] theorem State.onMe_links (s : State) (f : Strand → Strand) : (s.onMe f).links = s.links := rfl
@[simp] theorem State.onMe_tagsSeen (s : State) (f : Strand → Strand) : (s.onMe f).tagsSeen = s.tagsSeen := rfl
@[simp] theorem State.onMe_writesTo (s : State) (f : Strand → Strand) : (s.onMe f).writesTo = s.writesTo := rfl
@[simp] theorem State.onMe_writesFrom (s : State) (f : Strand → Strand) : (s.onMe f).writesFrom = s.writesFrom := rfl
@[simp] theorem State.onMe_cxlDown (s : State) (f : Strand → Strand) : (s.onMe f).cxlDown = s.cxlDown := rfl
@[simp] theorem State.onMe_turns (s : State) (f : Strand → Strand) : (s.onMe f).turns = s.turns := rfl
@[simp] theorem State.onMe_walks (s : State) (f : Strand → Strand) : (s.onMe f).walks = s.walks := rfl
@[simp] theorem State.onMe_ports (s : State) (f : Strand → Strand) : (s.onMe f).ports = s.ports := rfl
@[simp] theorem State.onMe_repairs (s : State) (f : Strand → Strand) : (s.onMe f).repairs = s.repairs := rfl
@[simp] theorem State.onMe_markersFrom (s : State) (f : Strand → Strand) : (s.onMe f).markersFrom = s.markersFrom := rfl
@[simp] theorem State.onMe_farVotes (s : State) (f : Strand → Strand) : (s.onMe f).farVotes = s.farVotes := rfl
@[simp] theorem State.onMe_arriving (s : State) (f : Strand → Strand) : (s.onMe f).arriving = s.arriving := rfl
@[simp] theorem State.onMe_hot (s : State) (f : Strand → Strand) : (s.onMe f).hot = s.hot := rfl
@[simp] theorem State.onMe_boot (s : State) (f : Strand → Strand) : (s.onMe f).boot = s.boot := rfl
@[simp] theorem State.onMe_out (s : State) (f : Strand → Strand) : (s.onMe f).out = s.out := rfl
@[simp] theorem State.onMe_free (s : State) (f : Strand → Strand) : (s.onMe f).free = s.free := rfl
@[simp] theorem State.onMe_nextId (s : State) (f : Strand → Strand) : (s.onMe f).nextId = s.nextId := rfl
@[simp] theorem State.onMe_agenda (s : State) (f : Strand → Strand) : (s.onMe f).agenda = s.agenda := rfl

@[simp] theorem State.setX_me (s : State) (r : XReg) (w : Word) (p : Bool) : (s.setX r w p).me = s.me.setX r w p := rfl
@[simp] theorem State.setX_others (s : State) (r : XReg) (w : Word) (p : Bool) : (s.setX r w p).others = s.others := rfl
@[simp] theorem State.setX_crews (s : State) (r : XReg) (w : Word) (p : Bool) : (s.setX r w p).crews = s.crews := rfl
@[simp] theorem State.setX_launches (s : State) (r : XReg) (w : Word) (p : Bool) : (s.setX r w p).launches = s.launches := rfl
@[simp] theorem State.setX_dispatchers (s : State) (r : XReg) (w : Word) (p : Bool) : (s.setX r w p).dispatchers = s.dispatchers := rfl
@[simp] theorem State.setX_dev (s : State) (r : XReg) (w : Word) (p : Bool) : (s.setX r w p).dev = s.dev := rfl
@[simp] theorem State.setX_host (s : State) (r : XReg) (w : Word) (p : Bool) : (s.setX r w p).host = s.host := rfl
@[simp] theorem State.setX_tiles (s : State) (r : XReg) (w : Word) (p : Bool) : (s.setX r w p).tiles = s.tiles := rfl
@[simp] theorem State.setX_tags (s : State) (r : XReg) (w : Word) (p : Bool) : (s.setX r w p).tags = s.tags := rfl
@[simp] theorem State.setX_bars (s : State) (r : XReg) (w : Word) (p : Bool) : (s.setX r w p).bars = s.bars := rfl
@[simp] theorem State.setX_copies (s : State) (r : XReg) (w : Word) (p : Bool) : (s.setX r w p).copies = s.copies := rfl
@[simp] theorem State.setX_uplinks (s : State) (r : XReg) (w : Word) (p : Bool) : (s.setX r w p).uplinks = s.uplinks := rfl
@[simp] theorem State.setX_fabric (s : State) (r : XReg) (w : Word) (p : Bool) : (s.setX r w p).fabric = s.fabric := rfl
@[simp] theorem State.setX_bag (s : State) (r : XReg) (w : Word) (p : Bool) : (s.setX r w p).bag = s.bag := rfl
@[simp] theorem State.setX_votes (s : State) (r : XReg) (w : Word) (p : Bool) : (s.setX r w p).votes = s.votes := rfl
@[simp] theorem State.setX_voteBufs (s : State) (r : XReg) (w : Word) (p : Bool) : (s.setX r w p).voteBufs = s.voteBufs := rfl
@[simp] theorem State.setX_matrix (s : State) (r : XReg) (w : Word) (p : Bool) : (s.setX r w p).matrix = s.matrix := rfl
@[simp] theorem State.setX_cycles (s : State) (r : XReg) (w : Word) (p : Bool) : (s.setX r w p).cycles = s.cycles := rfl
@[simp] theorem State.setX_tlb (s : State) (r : XReg) (w : Word) (p : Bool) : (s.setX r w p).tlb = s.tlb := rfl
@[simp] theorem State.setX_upper (s : State) (r : XReg) (w : Word) (p : Bool) : (s.setX r w p).upper = s.upper := rfl
@[simp] theorem State.setX_atc (s : State) (r : XReg) (w : Word) (p : Bool) : (s.setX r w p).atc = s.atc := rfl
@[simp] theorem State.setX_ats (s : State) (r : XReg) (w : Word) (p : Bool) : (s.setX r w p).ats = s.ats := rfl
@[simp] theorem State.setX_pri (s : State) (r : XReg) (w : Word) (p : Bool) : (s.setX r w p).pri = s.pri := rfl
@[simp] theorem State.setX_priStopped (s : State) (r : XReg) (w : Word) (p : Bool) : (s.setX r w p).priStopped = s.priStopped := rfl
@[simp] theorem State.setX_priLimits (s : State) (r : XReg) (w : Word) (p : Bool) : (s.setX r w p).priLimits = s.priLimits := rfl
@[simp] theorem State.setX_pageFailed (s : State) (r : XReg) (w : Word) (p : Bool) : (s.setX r w p).pageFailed = s.pageFailed := rfl
@[simp] theorem State.setX_removals (s : State) (r : XReg) (w : Word) (p : Bool) : (s.setX r w p).removals = s.removals := rfl
@[simp] theorem State.setX_jobs (s : State) (r : XReg) (w : Word) (p : Bool) : (s.setX r w p).jobs = s.jobs := rfl
@[simp] theorem State.setX_seqs (s : State) (r : XReg) (w : Word) (p : Bool) : (s.setX r w p).seqs = s.seqs := rfl
@[simp] theorem State.setX_banks (s : State) (r : XReg) (w : Word) (p : Bool) : (s.setX r w p).banks = s.banks := rfl
@[simp] theorem State.setX_rings (s : State) (r : XReg) (w : Word) (p : Bool) : (s.setX r w p).rings = s.rings := rfl
@[simp] theorem State.setX_remoteRings (s : State) (r : XReg) (w : Word) (p : Bool) : (s.setX r w p).remoteRings = s.remoteRings := rfl
@[simp] theorem State.setX_fnSecure (s : State) (r : XReg) (w : Word) (p : Bool) : (s.setX r w p).fnSecure = s.fnSecure := rfl
@[simp] theorem State.setX_releasing (s : State) (r : XReg) (w : Word) (p : Bool) : (s.setX r w p).releasing = s.releasing := rfl
@[simp] theorem State.setX_ringRegs (s : State) (r : XReg) (w : Word) (p : Bool) : (s.setX r w p).ringRegs = s.ringRegs := rfl
@[simp] theorem State.setX_unmatched (s : State) (r : XReg) (w : Word) (p : Bool) : (s.setX r w p).unmatched = s.unmatched := rfl
@[simp] theorem State.setX_cpRegs (s : State) (r : XReg) (w : Word) (p : Bool) : (s.setX r w p).cpRegs = s.cpRegs := rfl
@[simp] theorem State.setX_pulses (s : State) (r : XReg) (w : Word) (p : Bool) : (s.setX r w p).pulses = s.pulses := rfl
@[simp] theorem State.setX_railHeld (s : State) (r : XReg) (w : Word) (p : Bool) : (s.setX r w p).railHeld = s.railHeld := rfl
@[simp] theorem State.setX_bar0 (s : State) (r : XReg) (w : Word) (p : Bool) : (s.setX r w p).bar0 = s.bar0 := rfl
@[simp] theorem State.setX_posted (s : State) (r : XReg) (w : Word) (p : Bool) : (s.setX r w p).posted = s.posted := rfl
@[simp] theorem State.setX_layers (s : State) (r : XReg) (w : Word) (p : Bool) : (s.setX r w p).layers = s.layers := rfl
@[simp] theorem State.setX_links (s : State) (r : XReg) (w : Word) (p : Bool) : (s.setX r w p).links = s.links := rfl
@[simp] theorem State.setX_tagsSeen (s : State) (r : XReg) (w : Word) (p : Bool) : (s.setX r w p).tagsSeen = s.tagsSeen := rfl
@[simp] theorem State.setX_writesTo (s : State) (r : XReg) (w : Word) (p : Bool) : (s.setX r w p).writesTo = s.writesTo := rfl
@[simp] theorem State.setX_writesFrom (s : State) (r : XReg) (w : Word) (p : Bool) : (s.setX r w p).writesFrom = s.writesFrom := rfl
@[simp] theorem State.setX_cxlDown (s : State) (r : XReg) (w : Word) (p : Bool) : (s.setX r w p).cxlDown = s.cxlDown := rfl
@[simp] theorem State.setX_turns (s : State) (r : XReg) (w : Word) (p : Bool) : (s.setX r w p).turns = s.turns := rfl
@[simp] theorem State.setX_walks (s : State) (r : XReg) (w : Word) (p : Bool) : (s.setX r w p).walks = s.walks := rfl
@[simp] theorem State.setX_ports (s : State) (r : XReg) (w : Word) (p : Bool) : (s.setX r w p).ports = s.ports := rfl
@[simp] theorem State.setX_repairs (s : State) (r : XReg) (w : Word) (p : Bool) : (s.setX r w p).repairs = s.repairs := rfl
@[simp] theorem State.setX_markersFrom (s : State) (r : XReg) (w : Word) (p : Bool) : (s.setX r w p).markersFrom = s.markersFrom := rfl
@[simp] theorem State.setX_farVotes (s : State) (r : XReg) (w : Word) (p : Bool) : (s.setX r w p).farVotes = s.farVotes := rfl
@[simp] theorem State.setX_arriving (s : State) (r : XReg) (w : Word) (p : Bool) : (s.setX r w p).arriving = s.arriving := rfl
@[simp] theorem State.setX_hot (s : State) (r : XReg) (w : Word) (p : Bool) : (s.setX r w p).hot = s.hot := rfl
@[simp] theorem State.setX_boot (s : State) (r : XReg) (w : Word) (p : Bool) : (s.setX r w p).boot = s.boot := rfl
@[simp] theorem State.setX_out (s : State) (r : XReg) (w : Word) (p : Bool) : (s.setX r w p).out = s.out := rfl
@[simp] theorem State.setX_free (s : State) (r : XReg) (w : Word) (p : Bool) : (s.setX r w p).free = s.free := rfl
@[simp] theorem State.setX_nextId (s : State) (r : XReg) (w : Word) (p : Bool) : (s.setX r w p).nextId = s.nextId := rfl
@[simp] theorem State.setX_agenda (s : State) (r : XReg) (w : Word) (p : Bool) : (s.setX r w p).agenda = s.agenda := rfl

@[simp] theorem State.setC_me (s : State) (r : CReg) (b : Bool) : (s.setC r b).me = s.me.setC r b := rfl
@[simp] theorem State.setC_others (s : State) (r : CReg) (b : Bool) : (s.setC r b).others = s.others := rfl
@[simp] theorem State.setC_crews (s : State) (r : CReg) (b : Bool) : (s.setC r b).crews = s.crews := rfl
@[simp] theorem State.setC_launches (s : State) (r : CReg) (b : Bool) : (s.setC r b).launches = s.launches := rfl
@[simp] theorem State.setC_dispatchers (s : State) (r : CReg) (b : Bool) : (s.setC r b).dispatchers = s.dispatchers := rfl
@[simp] theorem State.setC_dev (s : State) (r : CReg) (b : Bool) : (s.setC r b).dev = s.dev := rfl
@[simp] theorem State.setC_host (s : State) (r : CReg) (b : Bool) : (s.setC r b).host = s.host := rfl
@[simp] theorem State.setC_tiles (s : State) (r : CReg) (b : Bool) : (s.setC r b).tiles = s.tiles := rfl
@[simp] theorem State.setC_tags (s : State) (r : CReg) (b : Bool) : (s.setC r b).tags = s.tags := rfl
@[simp] theorem State.setC_bars (s : State) (r : CReg) (b : Bool) : (s.setC r b).bars = s.bars := rfl
@[simp] theorem State.setC_copies (s : State) (r : CReg) (b : Bool) : (s.setC r b).copies = s.copies := rfl
@[simp] theorem State.setC_uplinks (s : State) (r : CReg) (b : Bool) : (s.setC r b).uplinks = s.uplinks := rfl
@[simp] theorem State.setC_fabric (s : State) (r : CReg) (b : Bool) : (s.setC r b).fabric = s.fabric := rfl
@[simp] theorem State.setC_bag (s : State) (r : CReg) (b : Bool) : (s.setC r b).bag = s.bag := rfl
@[simp] theorem State.setC_votes (s : State) (r : CReg) (b : Bool) : (s.setC r b).votes = s.votes := rfl
@[simp] theorem State.setC_voteBufs (s : State) (r : CReg) (b : Bool) : (s.setC r b).voteBufs = s.voteBufs := rfl
@[simp] theorem State.setC_matrix (s : State) (r : CReg) (b : Bool) : (s.setC r b).matrix = s.matrix := rfl
@[simp] theorem State.setC_cycles (s : State) (r : CReg) (b : Bool) : (s.setC r b).cycles = s.cycles := rfl
@[simp] theorem State.setC_tlb (s : State) (r : CReg) (b : Bool) : (s.setC r b).tlb = s.tlb := rfl
@[simp] theorem State.setC_upper (s : State) (r : CReg) (b : Bool) : (s.setC r b).upper = s.upper := rfl
@[simp] theorem State.setC_atc (s : State) (r : CReg) (b : Bool) : (s.setC r b).atc = s.atc := rfl
@[simp] theorem State.setC_ats (s : State) (r : CReg) (b : Bool) : (s.setC r b).ats = s.ats := rfl
@[simp] theorem State.setC_pri (s : State) (r : CReg) (b : Bool) : (s.setC r b).pri = s.pri := rfl
@[simp] theorem State.setC_priStopped (s : State) (r : CReg) (b : Bool) : (s.setC r b).priStopped = s.priStopped := rfl
@[simp] theorem State.setC_priLimits (s : State) (r : CReg) (b : Bool) : (s.setC r b).priLimits = s.priLimits := rfl
@[simp] theorem State.setC_pageFailed (s : State) (r : CReg) (b : Bool) : (s.setC r b).pageFailed = s.pageFailed := rfl
@[simp] theorem State.setC_removals (s : State) (r : CReg) (b : Bool) : (s.setC r b).removals = s.removals := rfl
@[simp] theorem State.setC_jobs (s : State) (r : CReg) (b : Bool) : (s.setC r b).jobs = s.jobs := rfl
@[simp] theorem State.setC_seqs (s : State) (r : CReg) (b : Bool) : (s.setC r b).seqs = s.seqs := rfl
@[simp] theorem State.setC_banks (s : State) (r : CReg) (b : Bool) : (s.setC r b).banks = s.banks := rfl
@[simp] theorem State.setC_rings (s : State) (r : CReg) (b : Bool) : (s.setC r b).rings = s.rings := rfl
@[simp] theorem State.setC_remoteRings (s : State) (r : CReg) (b : Bool) : (s.setC r b).remoteRings = s.remoteRings := rfl
@[simp] theorem State.setC_fnSecure (s : State) (r : CReg) (b : Bool) : (s.setC r b).fnSecure = s.fnSecure := rfl
@[simp] theorem State.setC_releasing (s : State) (r : CReg) (b : Bool) : (s.setC r b).releasing = s.releasing := rfl
@[simp] theorem State.setC_ringRegs (s : State) (r : CReg) (b : Bool) : (s.setC r b).ringRegs = s.ringRegs := rfl
@[simp] theorem State.setC_unmatched (s : State) (r : CReg) (b : Bool) : (s.setC r b).unmatched = s.unmatched := rfl
@[simp] theorem State.setC_cpRegs (s : State) (r : CReg) (b : Bool) : (s.setC r b).cpRegs = s.cpRegs := rfl
@[simp] theorem State.setC_pulses (s : State) (r : CReg) (b : Bool) : (s.setC r b).pulses = s.pulses := rfl
@[simp] theorem State.setC_railHeld (s : State) (r : CReg) (b : Bool) : (s.setC r b).railHeld = s.railHeld := rfl
@[simp] theorem State.setC_bar0 (s : State) (r : CReg) (b : Bool) : (s.setC r b).bar0 = s.bar0 := rfl
@[simp] theorem State.setC_posted (s : State) (r : CReg) (b : Bool) : (s.setC r b).posted = s.posted := rfl
@[simp] theorem State.setC_layers (s : State) (r : CReg) (b : Bool) : (s.setC r b).layers = s.layers := rfl
@[simp] theorem State.setC_links (s : State) (r : CReg) (b : Bool) : (s.setC r b).links = s.links := rfl
@[simp] theorem State.setC_tagsSeen (s : State) (r : CReg) (b : Bool) : (s.setC r b).tagsSeen = s.tagsSeen := rfl
@[simp] theorem State.setC_writesTo (s : State) (r : CReg) (b : Bool) : (s.setC r b).writesTo = s.writesTo := rfl
@[simp] theorem State.setC_writesFrom (s : State) (r : CReg) (b : Bool) : (s.setC r b).writesFrom = s.writesFrom := rfl
@[simp] theorem State.setC_cxlDown (s : State) (r : CReg) (b : Bool) : (s.setC r b).cxlDown = s.cxlDown := rfl
@[simp] theorem State.setC_turns (s : State) (r : CReg) (b : Bool) : (s.setC r b).turns = s.turns := rfl
@[simp] theorem State.setC_walks (s : State) (r : CReg) (b : Bool) : (s.setC r b).walks = s.walks := rfl
@[simp] theorem State.setC_ports (s : State) (r : CReg) (b : Bool) : (s.setC r b).ports = s.ports := rfl
@[simp] theorem State.setC_repairs (s : State) (r : CReg) (b : Bool) : (s.setC r b).repairs = s.repairs := rfl
@[simp] theorem State.setC_markersFrom (s : State) (r : CReg) (b : Bool) : (s.setC r b).markersFrom = s.markersFrom := rfl
@[simp] theorem State.setC_farVotes (s : State) (r : CReg) (b : Bool) : (s.setC r b).farVotes = s.farVotes := rfl
@[simp] theorem State.setC_arriving (s : State) (r : CReg) (b : Bool) : (s.setC r b).arriving = s.arriving := rfl
@[simp] theorem State.setC_hot (s : State) (r : CReg) (b : Bool) : (s.setC r b).hot = s.hot := rfl
@[simp] theorem State.setC_boot (s : State) (r : CReg) (b : Bool) : (s.setC r b).boot = s.boot := rfl
@[simp] theorem State.setC_out (s : State) (r : CReg) (b : Bool) : (s.setC r b).out = s.out := rfl
@[simp] theorem State.setC_free (s : State) (r : CReg) (b : Bool) : (s.setC r b).free = s.free := rfl
@[simp] theorem State.setC_nextId (s : State) (r : CReg) (b : Bool) : (s.setC r b).nextId = s.nextId := rfl
@[simp] theorem State.setC_agenda (s : State) (r : CReg) (b : Bool) : (s.setC r b).agenda = s.agenda := rfl

@[simp] theorem State.setK_me (s : State) (r : KReg) (w : Word) : (s.setK r w).me = s.me.setK r w := rfl
@[simp] theorem State.setK_others (s : State) (r : KReg) (w : Word) : (s.setK r w).others = s.others := rfl
@[simp] theorem State.setK_crews (s : State) (r : KReg) (w : Word) : (s.setK r w).crews = s.crews := rfl
@[simp] theorem State.setK_launches (s : State) (r : KReg) (w : Word) : (s.setK r w).launches = s.launches := rfl
@[simp] theorem State.setK_dispatchers (s : State) (r : KReg) (w : Word) : (s.setK r w).dispatchers = s.dispatchers := rfl
@[simp] theorem State.setK_dev (s : State) (r : KReg) (w : Word) : (s.setK r w).dev = s.dev := rfl
@[simp] theorem State.setK_host (s : State) (r : KReg) (w : Word) : (s.setK r w).host = s.host := rfl
@[simp] theorem State.setK_tiles (s : State) (r : KReg) (w : Word) : (s.setK r w).tiles = s.tiles := rfl
@[simp] theorem State.setK_tags (s : State) (r : KReg) (w : Word) : (s.setK r w).tags = s.tags := rfl
@[simp] theorem State.setK_bars (s : State) (r : KReg) (w : Word) : (s.setK r w).bars = s.bars := rfl
@[simp] theorem State.setK_copies (s : State) (r : KReg) (w : Word) : (s.setK r w).copies = s.copies := rfl
@[simp] theorem State.setK_uplinks (s : State) (r : KReg) (w : Word) : (s.setK r w).uplinks = s.uplinks := rfl
@[simp] theorem State.setK_fabric (s : State) (r : KReg) (w : Word) : (s.setK r w).fabric = s.fabric := rfl
@[simp] theorem State.setK_bag (s : State) (r : KReg) (w : Word) : (s.setK r w).bag = s.bag := rfl
@[simp] theorem State.setK_votes (s : State) (r : KReg) (w : Word) : (s.setK r w).votes = s.votes := rfl
@[simp] theorem State.setK_voteBufs (s : State) (r : KReg) (w : Word) : (s.setK r w).voteBufs = s.voteBufs := rfl
@[simp] theorem State.setK_matrix (s : State) (r : KReg) (w : Word) : (s.setK r w).matrix = s.matrix := rfl
@[simp] theorem State.setK_cycles (s : State) (r : KReg) (w : Word) : (s.setK r w).cycles = s.cycles := rfl
@[simp] theorem State.setK_tlb (s : State) (r : KReg) (w : Word) : (s.setK r w).tlb = s.tlb := rfl
@[simp] theorem State.setK_upper (s : State) (r : KReg) (w : Word) : (s.setK r w).upper = s.upper := rfl
@[simp] theorem State.setK_atc (s : State) (r : KReg) (w : Word) : (s.setK r w).atc = s.atc := rfl
@[simp] theorem State.setK_ats (s : State) (r : KReg) (w : Word) : (s.setK r w).ats = s.ats := rfl
@[simp] theorem State.setK_pri (s : State) (r : KReg) (w : Word) : (s.setK r w).pri = s.pri := rfl
@[simp] theorem State.setK_priStopped (s : State) (r : KReg) (w : Word) : (s.setK r w).priStopped = s.priStopped := rfl
@[simp] theorem State.setK_priLimits (s : State) (r : KReg) (w : Word) : (s.setK r w).priLimits = s.priLimits := rfl
@[simp] theorem State.setK_pageFailed (s : State) (r : KReg) (w : Word) : (s.setK r w).pageFailed = s.pageFailed := rfl
@[simp] theorem State.setK_removals (s : State) (r : KReg) (w : Word) : (s.setK r w).removals = s.removals := rfl
@[simp] theorem State.setK_jobs (s : State) (r : KReg) (w : Word) : (s.setK r w).jobs = s.jobs := rfl
@[simp] theorem State.setK_seqs (s : State) (r : KReg) (w : Word) : (s.setK r w).seqs = s.seqs := rfl
@[simp] theorem State.setK_banks (s : State) (r : KReg) (w : Word) : (s.setK r w).banks = s.banks := rfl
@[simp] theorem State.setK_rings (s : State) (r : KReg) (w : Word) : (s.setK r w).rings = s.rings := rfl
@[simp] theorem State.setK_remoteRings (s : State) (r : KReg) (w : Word) : (s.setK r w).remoteRings = s.remoteRings := rfl
@[simp] theorem State.setK_fnSecure (s : State) (r : KReg) (w : Word) : (s.setK r w).fnSecure = s.fnSecure := rfl
@[simp] theorem State.setK_releasing (s : State) (r : KReg) (w : Word) : (s.setK r w).releasing = s.releasing := rfl
@[simp] theorem State.setK_ringRegs (s : State) (r : KReg) (w : Word) : (s.setK r w).ringRegs = s.ringRegs := rfl
@[simp] theorem State.setK_unmatched (s : State) (r : KReg) (w : Word) : (s.setK r w).unmatched = s.unmatched := rfl
@[simp] theorem State.setK_cpRegs (s : State) (r : KReg) (w : Word) : (s.setK r w).cpRegs = s.cpRegs := rfl
@[simp] theorem State.setK_pulses (s : State) (r : KReg) (w : Word) : (s.setK r w).pulses = s.pulses := rfl
@[simp] theorem State.setK_railHeld (s : State) (r : KReg) (w : Word) : (s.setK r w).railHeld = s.railHeld := rfl
@[simp] theorem State.setK_bar0 (s : State) (r : KReg) (w : Word) : (s.setK r w).bar0 = s.bar0 := rfl
@[simp] theorem State.setK_posted (s : State) (r : KReg) (w : Word) : (s.setK r w).posted = s.posted := rfl
@[simp] theorem State.setK_layers (s : State) (r : KReg) (w : Word) : (s.setK r w).layers = s.layers := rfl
@[simp] theorem State.setK_links (s : State) (r : KReg) (w : Word) : (s.setK r w).links = s.links := rfl
@[simp] theorem State.setK_tagsSeen (s : State) (r : KReg) (w : Word) : (s.setK r w).tagsSeen = s.tagsSeen := rfl
@[simp] theorem State.setK_writesTo (s : State) (r : KReg) (w : Word) : (s.setK r w).writesTo = s.writesTo := rfl
@[simp] theorem State.setK_writesFrom (s : State) (r : KReg) (w : Word) : (s.setK r w).writesFrom = s.writesFrom := rfl
@[simp] theorem State.setK_cxlDown (s : State) (r : KReg) (w : Word) : (s.setK r w).cxlDown = s.cxlDown := rfl
@[simp] theorem State.setK_turns (s : State) (r : KReg) (w : Word) : (s.setK r w).turns = s.turns := rfl
@[simp] theorem State.setK_walks (s : State) (r : KReg) (w : Word) : (s.setK r w).walks = s.walks := rfl
@[simp] theorem State.setK_ports (s : State) (r : KReg) (w : Word) : (s.setK r w).ports = s.ports := rfl
@[simp] theorem State.setK_repairs (s : State) (r : KReg) (w : Word) : (s.setK r w).repairs = s.repairs := rfl
@[simp] theorem State.setK_markersFrom (s : State) (r : KReg) (w : Word) : (s.setK r w).markersFrom = s.markersFrom := rfl
@[simp] theorem State.setK_farVotes (s : State) (r : KReg) (w : Word) : (s.setK r w).farVotes = s.farVotes := rfl
@[simp] theorem State.setK_arriving (s : State) (r : KReg) (w : Word) : (s.setK r w).arriving = s.arriving := rfl
@[simp] theorem State.setK_hot (s : State) (r : KReg) (w : Word) : (s.setK r w).hot = s.hot := rfl
@[simp] theorem State.setK_boot (s : State) (r : KReg) (w : Word) : (s.setK r w).boot = s.boot := rfl
@[simp] theorem State.setK_out (s : State) (r : KReg) (w : Word) : (s.setK r w).out = s.out := rfl
@[simp] theorem State.setK_free (s : State) (r : KReg) (w : Word) : (s.setK r w).free = s.free := rfl
@[simp] theorem State.setK_nextId (s : State) (r : KReg) (w : Word) : (s.setK r w).nextId = s.nextId := rfl
@[simp] theorem State.setK_agenda (s : State) (r : KReg) (w : Word) : (s.setK r w).agenda = s.agenda := rfl

@[simp] theorem State.setV_me (s : State) (r : VReg) (l : Vector Lane 64) (p : BitVec 64) : (s.setV r l p).me = s.me.setV r l p := rfl
@[simp] theorem State.setV_others (s : State) (r : VReg) (l : Vector Lane 64) (p : BitVec 64) : (s.setV r l p).others = s.others := rfl
@[simp] theorem State.setV_crews (s : State) (r : VReg) (l : Vector Lane 64) (p : BitVec 64) : (s.setV r l p).crews = s.crews := rfl
@[simp] theorem State.setV_launches (s : State) (r : VReg) (l : Vector Lane 64) (p : BitVec 64) : (s.setV r l p).launches = s.launches := rfl
@[simp] theorem State.setV_dispatchers (s : State) (r : VReg) (l : Vector Lane 64) (p : BitVec 64) : (s.setV r l p).dispatchers = s.dispatchers := rfl
@[simp] theorem State.setV_dev (s : State) (r : VReg) (l : Vector Lane 64) (p : BitVec 64) : (s.setV r l p).dev = s.dev := rfl
@[simp] theorem State.setV_host (s : State) (r : VReg) (l : Vector Lane 64) (p : BitVec 64) : (s.setV r l p).host = s.host := rfl
@[simp] theorem State.setV_tiles (s : State) (r : VReg) (l : Vector Lane 64) (p : BitVec 64) : (s.setV r l p).tiles = s.tiles := rfl
@[simp] theorem State.setV_tags (s : State) (r : VReg) (l : Vector Lane 64) (p : BitVec 64) : (s.setV r l p).tags = s.tags := rfl
@[simp] theorem State.setV_bars (s : State) (r : VReg) (l : Vector Lane 64) (p : BitVec 64) : (s.setV r l p).bars = s.bars := rfl
@[simp] theorem State.setV_copies (s : State) (r : VReg) (l : Vector Lane 64) (p : BitVec 64) : (s.setV r l p).copies = s.copies := rfl
@[simp] theorem State.setV_uplinks (s : State) (r : VReg) (l : Vector Lane 64) (p : BitVec 64) : (s.setV r l p).uplinks = s.uplinks := rfl
@[simp] theorem State.setV_fabric (s : State) (r : VReg) (l : Vector Lane 64) (p : BitVec 64) : (s.setV r l p).fabric = s.fabric := rfl
@[simp] theorem State.setV_bag (s : State) (r : VReg) (l : Vector Lane 64) (p : BitVec 64) : (s.setV r l p).bag = s.bag := rfl
@[simp] theorem State.setV_votes (s : State) (r : VReg) (l : Vector Lane 64) (p : BitVec 64) : (s.setV r l p).votes = s.votes := rfl
@[simp] theorem State.setV_voteBufs (s : State) (r : VReg) (l : Vector Lane 64) (p : BitVec 64) : (s.setV r l p).voteBufs = s.voteBufs := rfl
@[simp] theorem State.setV_matrix (s : State) (r : VReg) (l : Vector Lane 64) (p : BitVec 64) : (s.setV r l p).matrix = s.matrix := rfl
@[simp] theorem State.setV_cycles (s : State) (r : VReg) (l : Vector Lane 64) (p : BitVec 64) : (s.setV r l p).cycles = s.cycles := rfl
@[simp] theorem State.setV_tlb (s : State) (r : VReg) (l : Vector Lane 64) (p : BitVec 64) : (s.setV r l p).tlb = s.tlb := rfl
@[simp] theorem State.setV_upper (s : State) (r : VReg) (l : Vector Lane 64) (p : BitVec 64) : (s.setV r l p).upper = s.upper := rfl
@[simp] theorem State.setV_atc (s : State) (r : VReg) (l : Vector Lane 64) (p : BitVec 64) : (s.setV r l p).atc = s.atc := rfl
@[simp] theorem State.setV_ats (s : State) (r : VReg) (l : Vector Lane 64) (p : BitVec 64) : (s.setV r l p).ats = s.ats := rfl
@[simp] theorem State.setV_pri (s : State) (r : VReg) (l : Vector Lane 64) (p : BitVec 64) : (s.setV r l p).pri = s.pri := rfl
@[simp] theorem State.setV_priStopped (s : State) (r : VReg) (l : Vector Lane 64) (p : BitVec 64) : (s.setV r l p).priStopped = s.priStopped := rfl
@[simp] theorem State.setV_priLimits (s : State) (r : VReg) (l : Vector Lane 64) (p : BitVec 64) : (s.setV r l p).priLimits = s.priLimits := rfl
@[simp] theorem State.setV_pageFailed (s : State) (r : VReg) (l : Vector Lane 64) (p : BitVec 64) : (s.setV r l p).pageFailed = s.pageFailed := rfl
@[simp] theorem State.setV_removals (s : State) (r : VReg) (l : Vector Lane 64) (p : BitVec 64) : (s.setV r l p).removals = s.removals := rfl
@[simp] theorem State.setV_jobs (s : State) (r : VReg) (l : Vector Lane 64) (p : BitVec 64) : (s.setV r l p).jobs = s.jobs := rfl
@[simp] theorem State.setV_seqs (s : State) (r : VReg) (l : Vector Lane 64) (p : BitVec 64) : (s.setV r l p).seqs = s.seqs := rfl
@[simp] theorem State.setV_banks (s : State) (r : VReg) (l : Vector Lane 64) (p : BitVec 64) : (s.setV r l p).banks = s.banks := rfl
@[simp] theorem State.setV_rings (s : State) (r : VReg) (l : Vector Lane 64) (p : BitVec 64) : (s.setV r l p).rings = s.rings := rfl
@[simp] theorem State.setV_remoteRings (s : State) (r : VReg) (l : Vector Lane 64) (p : BitVec 64) : (s.setV r l p).remoteRings = s.remoteRings := rfl
@[simp] theorem State.setV_fnSecure (s : State) (r : VReg) (l : Vector Lane 64) (p : BitVec 64) : (s.setV r l p).fnSecure = s.fnSecure := rfl
@[simp] theorem State.setV_releasing (s : State) (r : VReg) (l : Vector Lane 64) (p : BitVec 64) : (s.setV r l p).releasing = s.releasing := rfl
@[simp] theorem State.setV_ringRegs (s : State) (r : VReg) (l : Vector Lane 64) (p : BitVec 64) : (s.setV r l p).ringRegs = s.ringRegs := rfl
@[simp] theorem State.setV_unmatched (s : State) (r : VReg) (l : Vector Lane 64) (p : BitVec 64) : (s.setV r l p).unmatched = s.unmatched := rfl
@[simp] theorem State.setV_cpRegs (s : State) (r : VReg) (l : Vector Lane 64) (p : BitVec 64) : (s.setV r l p).cpRegs = s.cpRegs := rfl
@[simp] theorem State.setV_pulses (s : State) (r : VReg) (l : Vector Lane 64) (p : BitVec 64) : (s.setV r l p).pulses = s.pulses := rfl
@[simp] theorem State.setV_railHeld (s : State) (r : VReg) (l : Vector Lane 64) (p : BitVec 64) : (s.setV r l p).railHeld = s.railHeld := rfl
@[simp] theorem State.setV_bar0 (s : State) (r : VReg) (l : Vector Lane 64) (p : BitVec 64) : (s.setV r l p).bar0 = s.bar0 := rfl
@[simp] theorem State.setV_posted (s : State) (r : VReg) (l : Vector Lane 64) (p : BitVec 64) : (s.setV r l p).posted = s.posted := rfl
@[simp] theorem State.setV_layers (s : State) (r : VReg) (l : Vector Lane 64) (p : BitVec 64) : (s.setV r l p).layers = s.layers := rfl
@[simp] theorem State.setV_links (s : State) (r : VReg) (l : Vector Lane 64) (p : BitVec 64) : (s.setV r l p).links = s.links := rfl
@[simp] theorem State.setV_tagsSeen (s : State) (r : VReg) (l : Vector Lane 64) (p : BitVec 64) : (s.setV r l p).tagsSeen = s.tagsSeen := rfl
@[simp] theorem State.setV_writesTo (s : State) (r : VReg) (l : Vector Lane 64) (p : BitVec 64) : (s.setV r l p).writesTo = s.writesTo := rfl
@[simp] theorem State.setV_writesFrom (s : State) (r : VReg) (l : Vector Lane 64) (p : BitVec 64) : (s.setV r l p).writesFrom = s.writesFrom := rfl
@[simp] theorem State.setV_cxlDown (s : State) (r : VReg) (l : Vector Lane 64) (p : BitVec 64) : (s.setV r l p).cxlDown = s.cxlDown := rfl
@[simp] theorem State.setV_turns (s : State) (r : VReg) (l : Vector Lane 64) (p : BitVec 64) : (s.setV r l p).turns = s.turns := rfl
@[simp] theorem State.setV_walks (s : State) (r : VReg) (l : Vector Lane 64) (p : BitVec 64) : (s.setV r l p).walks = s.walks := rfl
@[simp] theorem State.setV_ports (s : State) (r : VReg) (l : Vector Lane 64) (p : BitVec 64) : (s.setV r l p).ports = s.ports := rfl
@[simp] theorem State.setV_repairs (s : State) (r : VReg) (l : Vector Lane 64) (p : BitVec 64) : (s.setV r l p).repairs = s.repairs := rfl
@[simp] theorem State.setV_markersFrom (s : State) (r : VReg) (l : Vector Lane 64) (p : BitVec 64) : (s.setV r l p).markersFrom = s.markersFrom := rfl
@[simp] theorem State.setV_farVotes (s : State) (r : VReg) (l : Vector Lane 64) (p : BitVec 64) : (s.setV r l p).farVotes = s.farVotes := rfl
@[simp] theorem State.setV_arriving (s : State) (r : VReg) (l : Vector Lane 64) (p : BitVec 64) : (s.setV r l p).arriving = s.arriving := rfl
@[simp] theorem State.setV_hot (s : State) (r : VReg) (l : Vector Lane 64) (p : BitVec 64) : (s.setV r l p).hot = s.hot := rfl
@[simp] theorem State.setV_boot (s : State) (r : VReg) (l : Vector Lane 64) (p : BitVec 64) : (s.setV r l p).boot = s.boot := rfl
@[simp] theorem State.setV_out (s : State) (r : VReg) (l : Vector Lane 64) (p : BitVec 64) : (s.setV r l p).out = s.out := rfl
@[simp] theorem State.setV_free (s : State) (r : VReg) (l : Vector Lane 64) (p : BitVec 64) : (s.setV r l p).free = s.free := rfl
@[simp] theorem State.setV_nextId (s : State) (r : VReg) (l : Vector Lane 64) (p : BitVec 64) : (s.setV r l p).nextId = s.nextId := rfl
@[simp] theorem State.setV_agenda (s : State) (r : VReg) (l : Vector Lane 64) (p : BitVec 64) : (s.setV r l p).agenda = s.agenda := rfl

@[simp] theorem State.raise_me (s : State) (f : Flags) : (s.raise f).me = { s.me with fpflags := s.me.fpflags ||| f } := rfl
@[simp] theorem State.raise_others (s : State) (f : Flags) : (s.raise f).others = s.others := rfl
@[simp] theorem State.raise_crews (s : State) (f : Flags) : (s.raise f).crews = s.crews := rfl
@[simp] theorem State.raise_launches (s : State) (f : Flags) : (s.raise f).launches = s.launches := rfl
@[simp] theorem State.raise_dispatchers (s : State) (f : Flags) : (s.raise f).dispatchers = s.dispatchers := rfl
@[simp] theorem State.raise_dev (s : State) (f : Flags) : (s.raise f).dev = s.dev := rfl
@[simp] theorem State.raise_host (s : State) (f : Flags) : (s.raise f).host = s.host := rfl
@[simp] theorem State.raise_tiles (s : State) (f : Flags) : (s.raise f).tiles = s.tiles := rfl
@[simp] theorem State.raise_tags (s : State) (f : Flags) : (s.raise f).tags = s.tags := rfl
@[simp] theorem State.raise_bars (s : State) (f : Flags) : (s.raise f).bars = s.bars := rfl
@[simp] theorem State.raise_copies (s : State) (f : Flags) : (s.raise f).copies = s.copies := rfl
@[simp] theorem State.raise_uplinks (s : State) (f : Flags) : (s.raise f).uplinks = s.uplinks := rfl
@[simp] theorem State.raise_fabric (s : State) (f : Flags) : (s.raise f).fabric = s.fabric := rfl
@[simp] theorem State.raise_bag (s : State) (f : Flags) : (s.raise f).bag = s.bag := rfl
@[simp] theorem State.raise_votes (s : State) (f : Flags) : (s.raise f).votes = s.votes := rfl
@[simp] theorem State.raise_voteBufs (s : State) (f : Flags) : (s.raise f).voteBufs = s.voteBufs := rfl
@[simp] theorem State.raise_matrix (s : State) (f : Flags) : (s.raise f).matrix = s.matrix := rfl
@[simp] theorem State.raise_cycles (s : State) (f : Flags) : (s.raise f).cycles = s.cycles := rfl
@[simp] theorem State.raise_tlb (s : State) (f : Flags) : (s.raise f).tlb = s.tlb := rfl
@[simp] theorem State.raise_upper (s : State) (f : Flags) : (s.raise f).upper = s.upper := rfl
@[simp] theorem State.raise_atc (s : State) (f : Flags) : (s.raise f).atc = s.atc := rfl
@[simp] theorem State.raise_ats (s : State) (f : Flags) : (s.raise f).ats = s.ats := rfl
@[simp] theorem State.raise_pri (s : State) (f : Flags) : (s.raise f).pri = s.pri := rfl
@[simp] theorem State.raise_priStopped (s : State) (f : Flags) : (s.raise f).priStopped = s.priStopped := rfl
@[simp] theorem State.raise_priLimits (s : State) (f : Flags) : (s.raise f).priLimits = s.priLimits := rfl
@[simp] theorem State.raise_pageFailed (s : State) (f : Flags) : (s.raise f).pageFailed = s.pageFailed := rfl
@[simp] theorem State.raise_removals (s : State) (f : Flags) : (s.raise f).removals = s.removals := rfl
@[simp] theorem State.raise_jobs (s : State) (f : Flags) : (s.raise f).jobs = s.jobs := rfl
@[simp] theorem State.raise_seqs (s : State) (f : Flags) : (s.raise f).seqs = s.seqs := rfl
@[simp] theorem State.raise_banks (s : State) (f : Flags) : (s.raise f).banks = s.banks := rfl
@[simp] theorem State.raise_rings (s : State) (f : Flags) : (s.raise f).rings = s.rings := rfl
@[simp] theorem State.raise_remoteRings (s : State) (f : Flags) : (s.raise f).remoteRings = s.remoteRings := rfl
@[simp] theorem State.raise_fnSecure (s : State) (f : Flags) : (s.raise f).fnSecure = s.fnSecure := rfl
@[simp] theorem State.raise_releasing (s : State) (f : Flags) : (s.raise f).releasing = s.releasing := rfl
@[simp] theorem State.raise_ringRegs (s : State) (f : Flags) : (s.raise f).ringRegs = s.ringRegs := rfl
@[simp] theorem State.raise_unmatched (s : State) (f : Flags) : (s.raise f).unmatched = s.unmatched := rfl
@[simp] theorem State.raise_cpRegs (s : State) (f : Flags) : (s.raise f).cpRegs = s.cpRegs := rfl
@[simp] theorem State.raise_pulses (s : State) (f : Flags) : (s.raise f).pulses = s.pulses := rfl
@[simp] theorem State.raise_railHeld (s : State) (f : Flags) : (s.raise f).railHeld = s.railHeld := rfl
@[simp] theorem State.raise_bar0 (s : State) (f : Flags) : (s.raise f).bar0 = s.bar0 := rfl
@[simp] theorem State.raise_posted (s : State) (f : Flags) : (s.raise f).posted = s.posted := rfl
@[simp] theorem State.raise_layers (s : State) (f : Flags) : (s.raise f).layers = s.layers := rfl
@[simp] theorem State.raise_links (s : State) (f : Flags) : (s.raise f).links = s.links := rfl
@[simp] theorem State.raise_tagsSeen (s : State) (f : Flags) : (s.raise f).tagsSeen = s.tagsSeen := rfl
@[simp] theorem State.raise_writesTo (s : State) (f : Flags) : (s.raise f).writesTo = s.writesTo := rfl
@[simp] theorem State.raise_writesFrom (s : State) (f : Flags) : (s.raise f).writesFrom = s.writesFrom := rfl
@[simp] theorem State.raise_cxlDown (s : State) (f : Flags) : (s.raise f).cxlDown = s.cxlDown := rfl
@[simp] theorem State.raise_turns (s : State) (f : Flags) : (s.raise f).turns = s.turns := rfl
@[simp] theorem State.raise_walks (s : State) (f : Flags) : (s.raise f).walks = s.walks := rfl
@[simp] theorem State.raise_ports (s : State) (f : Flags) : (s.raise f).ports = s.ports := rfl
@[simp] theorem State.raise_repairs (s : State) (f : Flags) : (s.raise f).repairs = s.repairs := rfl
@[simp] theorem State.raise_markersFrom (s : State) (f : Flags) : (s.raise f).markersFrom = s.markersFrom := rfl
@[simp] theorem State.raise_farVotes (s : State) (f : Flags) : (s.raise f).farVotes = s.farVotes := rfl
@[simp] theorem State.raise_arriving (s : State) (f : Flags) : (s.raise f).arriving = s.arriving := rfl
@[simp] theorem State.raise_hot (s : State) (f : Flags) : (s.raise f).hot = s.hot := rfl
@[simp] theorem State.raise_boot (s : State) (f : Flags) : (s.raise f).boot = s.boot := rfl
@[simp] theorem State.raise_out (s : State) (f : Flags) : (s.raise f).out = s.out := rfl
@[simp] theorem State.raise_free (s : State) (f : Flags) : (s.raise f).free = s.free := rfl
@[simp] theorem State.raise_nextId (s : State) (f : Flags) : (s.raise f).nextId = s.nextId := rfl
@[simp] theorem State.raise_agenda (s : State) (f : Flags) : (s.raise f).agenda = s.agenda := rfl

@[simp] theorem State.advance_me (s : State) (n : Word) : (s.advance n).me = { s.me with pc := s.me.pc + n, wait := none, counted := false } := rfl
@[simp] theorem State.advance_others (s : State) (n : Word) : (s.advance n).others = s.others := rfl
@[simp] theorem State.advance_crews (s : State) (n : Word) : (s.advance n).crews = s.crews := rfl
@[simp] theorem State.advance_launches (s : State) (n : Word) : (s.advance n).launches = s.launches := rfl
@[simp] theorem State.advance_dispatchers (s : State) (n : Word) : (s.advance n).dispatchers = s.dispatchers := rfl
@[simp] theorem State.advance_dev (s : State) (n : Word) : (s.advance n).dev = s.dev := rfl
@[simp] theorem State.advance_host (s : State) (n : Word) : (s.advance n).host = s.host := rfl
@[simp] theorem State.advance_tiles (s : State) (n : Word) : (s.advance n).tiles = s.tiles := rfl
@[simp] theorem State.advance_tags (s : State) (n : Word) : (s.advance n).tags = s.tags := rfl
@[simp] theorem State.advance_bars (s : State) (n : Word) : (s.advance n).bars = s.bars := rfl
@[simp] theorem State.advance_copies (s : State) (n : Word) : (s.advance n).copies = s.copies := rfl
@[simp] theorem State.advance_uplinks (s : State) (n : Word) : (s.advance n).uplinks = s.uplinks := rfl
@[simp] theorem State.advance_fabric (s : State) (n : Word) : (s.advance n).fabric = s.fabric := rfl
@[simp] theorem State.advance_bag (s : State) (n : Word) : (s.advance n).bag = s.bag := rfl
@[simp] theorem State.advance_votes (s : State) (n : Word) : (s.advance n).votes = s.votes := rfl
@[simp] theorem State.advance_voteBufs (s : State) (n : Word) : (s.advance n).voteBufs = s.voteBufs := rfl
@[simp] theorem State.advance_matrix (s : State) (n : Word) : (s.advance n).matrix = s.matrix := rfl
@[simp] theorem State.advance_cycles (s : State) (n : Word) : (s.advance n).cycles = s.cycles := rfl
@[simp] theorem State.advance_tlb (s : State) (n : Word) : (s.advance n).tlb = s.tlb := rfl
@[simp] theorem State.advance_upper (s : State) (n : Word) : (s.advance n).upper = s.upper := rfl
@[simp] theorem State.advance_atc (s : State) (n : Word) : (s.advance n).atc = s.atc := rfl
@[simp] theorem State.advance_ats (s : State) (n : Word) : (s.advance n).ats = s.ats := rfl
@[simp] theorem State.advance_pri (s : State) (n : Word) : (s.advance n).pri = s.pri := rfl
@[simp] theorem State.advance_priStopped (s : State) (n : Word) : (s.advance n).priStopped = s.priStopped := rfl
@[simp] theorem State.advance_priLimits (s : State) (n : Word) : (s.advance n).priLimits = s.priLimits := rfl
@[simp] theorem State.advance_pageFailed (s : State) (n : Word) : (s.advance n).pageFailed = s.pageFailed := rfl
@[simp] theorem State.advance_removals (s : State) (n : Word) : (s.advance n).removals = s.removals := rfl
@[simp] theorem State.advance_jobs (s : State) (n : Word) : (s.advance n).jobs = s.jobs := rfl
@[simp] theorem State.advance_seqs (s : State) (n : Word) : (s.advance n).seqs = s.seqs := rfl
@[simp] theorem State.advance_banks (s : State) (n : Word) : (s.advance n).banks = s.banks := rfl
@[simp] theorem State.advance_rings (s : State) (n : Word) : (s.advance n).rings = s.rings := rfl
@[simp] theorem State.advance_remoteRings (s : State) (n : Word) : (s.advance n).remoteRings = s.remoteRings := rfl
@[simp] theorem State.advance_fnSecure (s : State) (n : Word) : (s.advance n).fnSecure = s.fnSecure := rfl
@[simp] theorem State.advance_releasing (s : State) (n : Word) : (s.advance n).releasing = s.releasing := rfl
@[simp] theorem State.advance_ringRegs (s : State) (n : Word) : (s.advance n).ringRegs = s.ringRegs := rfl
@[simp] theorem State.advance_unmatched (s : State) (n : Word) : (s.advance n).unmatched = s.unmatched := rfl
@[simp] theorem State.advance_cpRegs (s : State) (n : Word) : (s.advance n).cpRegs = s.cpRegs := rfl
@[simp] theorem State.advance_pulses (s : State) (n : Word) : (s.advance n).pulses = s.pulses := rfl
@[simp] theorem State.advance_railHeld (s : State) (n : Word) : (s.advance n).railHeld = s.railHeld := rfl
@[simp] theorem State.advance_bar0 (s : State) (n : Word) : (s.advance n).bar0 = s.bar0 := rfl
@[simp] theorem State.advance_posted (s : State) (n : Word) : (s.advance n).posted = s.posted := rfl
@[simp] theorem State.advance_layers (s : State) (n : Word) : (s.advance n).layers = s.layers := rfl
@[simp] theorem State.advance_links (s : State) (n : Word) : (s.advance n).links = s.links := rfl
@[simp] theorem State.advance_tagsSeen (s : State) (n : Word) : (s.advance n).tagsSeen = s.tagsSeen := rfl
@[simp] theorem State.advance_writesTo (s : State) (n : Word) : (s.advance n).writesTo = s.writesTo := rfl
@[simp] theorem State.advance_writesFrom (s : State) (n : Word) : (s.advance n).writesFrom = s.writesFrom := rfl
@[simp] theorem State.advance_cxlDown (s : State) (n : Word) : (s.advance n).cxlDown = s.cxlDown := rfl
@[simp] theorem State.advance_turns (s : State) (n : Word) : (s.advance n).turns = s.turns := rfl
@[simp] theorem State.advance_walks (s : State) (n : Word) : (s.advance n).walks = s.walks := rfl
@[simp] theorem State.advance_ports (s : State) (n : Word) : (s.advance n).ports = s.ports := rfl
@[simp] theorem State.advance_repairs (s : State) (n : Word) : (s.advance n).repairs = s.repairs := rfl
@[simp] theorem State.advance_markersFrom (s : State) (n : Word) : (s.advance n).markersFrom = s.markersFrom := rfl
@[simp] theorem State.advance_farVotes (s : State) (n : Word) : (s.advance n).farVotes = s.farVotes := rfl
@[simp] theorem State.advance_arriving (s : State) (n : Word) : (s.advance n).arriving = s.arriving := rfl
@[simp] theorem State.advance_hot (s : State) (n : Word) : (s.advance n).hot = s.hot := rfl
@[simp] theorem State.advance_boot (s : State) (n : Word) : (s.advance n).boot = s.boot := rfl
@[simp] theorem State.advance_out (s : State) (n : Word) : (s.advance n).out = s.out := rfl
@[simp] theorem State.advance_free (s : State) (n : Word) : (s.advance n).free = s.free := rfl
@[simp] theorem State.advance_nextId (s : State) (n : Word) : (s.advance n).nextId = s.nextId := rfl
@[simp] theorem State.advance_agenda (s : State) (n : Word) : (s.advance n).agenda = s.agenda := rfl

@[simp] theorem State.endInstr_me (s : State) : (s.endInstr).me = { s.me with wait := none, counted := false } := rfl
@[simp] theorem State.endInstr_others (s : State) : (s.endInstr).others = s.others := rfl
@[simp] theorem State.endInstr_crews (s : State) : (s.endInstr).crews = s.crews := rfl
@[simp] theorem State.endInstr_launches (s : State) : (s.endInstr).launches = s.launches := rfl
@[simp] theorem State.endInstr_dispatchers (s : State) : (s.endInstr).dispatchers = s.dispatchers := rfl
@[simp] theorem State.endInstr_dev (s : State) : (s.endInstr).dev = s.dev := rfl
@[simp] theorem State.endInstr_host (s : State) : (s.endInstr).host = s.host := rfl
@[simp] theorem State.endInstr_tiles (s : State) : (s.endInstr).tiles = s.tiles := rfl
@[simp] theorem State.endInstr_tags (s : State) : (s.endInstr).tags = s.tags := rfl
@[simp] theorem State.endInstr_bars (s : State) : (s.endInstr).bars = s.bars := rfl
@[simp] theorem State.endInstr_copies (s : State) : (s.endInstr).copies = s.copies := rfl
@[simp] theorem State.endInstr_uplinks (s : State) : (s.endInstr).uplinks = s.uplinks := rfl
@[simp] theorem State.endInstr_fabric (s : State) : (s.endInstr).fabric = s.fabric := rfl
@[simp] theorem State.endInstr_bag (s : State) : (s.endInstr).bag = s.bag := rfl
@[simp] theorem State.endInstr_votes (s : State) : (s.endInstr).votes = s.votes := rfl
@[simp] theorem State.endInstr_voteBufs (s : State) : (s.endInstr).voteBufs = s.voteBufs := rfl
@[simp] theorem State.endInstr_matrix (s : State) : (s.endInstr).matrix = s.matrix := rfl
@[simp] theorem State.endInstr_cycles (s : State) : (s.endInstr).cycles = s.cycles := rfl
@[simp] theorem State.endInstr_tlb (s : State) : (s.endInstr).tlb = s.tlb := rfl
@[simp] theorem State.endInstr_upper (s : State) : (s.endInstr).upper = s.upper := rfl
@[simp] theorem State.endInstr_atc (s : State) : (s.endInstr).atc = s.atc := rfl
@[simp] theorem State.endInstr_ats (s : State) : (s.endInstr).ats = s.ats := rfl
@[simp] theorem State.endInstr_pri (s : State) : (s.endInstr).pri = s.pri := rfl
@[simp] theorem State.endInstr_priStopped (s : State) : (s.endInstr).priStopped = s.priStopped := rfl
@[simp] theorem State.endInstr_priLimits (s : State) : (s.endInstr).priLimits = s.priLimits := rfl
@[simp] theorem State.endInstr_pageFailed (s : State) : (s.endInstr).pageFailed = s.pageFailed := rfl
@[simp] theorem State.endInstr_removals (s : State) : (s.endInstr).removals = s.removals := rfl
@[simp] theorem State.endInstr_jobs (s : State) : (s.endInstr).jobs = s.jobs := rfl
@[simp] theorem State.endInstr_seqs (s : State) : (s.endInstr).seqs = s.seqs := rfl
@[simp] theorem State.endInstr_banks (s : State) : (s.endInstr).banks = s.banks := rfl
@[simp] theorem State.endInstr_rings (s : State) : (s.endInstr).rings = s.rings := rfl
@[simp] theorem State.endInstr_remoteRings (s : State) : (s.endInstr).remoteRings = s.remoteRings := rfl
@[simp] theorem State.endInstr_fnSecure (s : State) : (s.endInstr).fnSecure = s.fnSecure := rfl
@[simp] theorem State.endInstr_releasing (s : State) : (s.endInstr).releasing = s.releasing := rfl
@[simp] theorem State.endInstr_ringRegs (s : State) : (s.endInstr).ringRegs = s.ringRegs := rfl
@[simp] theorem State.endInstr_unmatched (s : State) : (s.endInstr).unmatched = s.unmatched := rfl
@[simp] theorem State.endInstr_cpRegs (s : State) : (s.endInstr).cpRegs = s.cpRegs := rfl
@[simp] theorem State.endInstr_pulses (s : State) : (s.endInstr).pulses = s.pulses := rfl
@[simp] theorem State.endInstr_railHeld (s : State) : (s.endInstr).railHeld = s.railHeld := rfl
@[simp] theorem State.endInstr_bar0 (s : State) : (s.endInstr).bar0 = s.bar0 := rfl
@[simp] theorem State.endInstr_posted (s : State) : (s.endInstr).posted = s.posted := rfl
@[simp] theorem State.endInstr_layers (s : State) : (s.endInstr).layers = s.layers := rfl
@[simp] theorem State.endInstr_links (s : State) : (s.endInstr).links = s.links := rfl
@[simp] theorem State.endInstr_tagsSeen (s : State) : (s.endInstr).tagsSeen = s.tagsSeen := rfl
@[simp] theorem State.endInstr_writesTo (s : State) : (s.endInstr).writesTo = s.writesTo := rfl
@[simp] theorem State.endInstr_writesFrom (s : State) : (s.endInstr).writesFrom = s.writesFrom := rfl
@[simp] theorem State.endInstr_cxlDown (s : State) : (s.endInstr).cxlDown = s.cxlDown := rfl
@[simp] theorem State.endInstr_turns (s : State) : (s.endInstr).turns = s.turns := rfl
@[simp] theorem State.endInstr_walks (s : State) : (s.endInstr).walks = s.walks := rfl
@[simp] theorem State.endInstr_ports (s : State) : (s.endInstr).ports = s.ports := rfl
@[simp] theorem State.endInstr_repairs (s : State) : (s.endInstr).repairs = s.repairs := rfl
@[simp] theorem State.endInstr_markersFrom (s : State) : (s.endInstr).markersFrom = s.markersFrom := rfl
@[simp] theorem State.endInstr_farVotes (s : State) : (s.endInstr).farVotes = s.farVotes := rfl
@[simp] theorem State.endInstr_arriving (s : State) : (s.endInstr).arriving = s.arriving := rfl
@[simp] theorem State.endInstr_hot (s : State) : (s.endInstr).hot = s.hot := rfl
@[simp] theorem State.endInstr_boot (s : State) : (s.endInstr).boot = s.boot := rfl
@[simp] theorem State.endInstr_out (s : State) : (s.endInstr).out = s.out := rfl
@[simp] theorem State.endInstr_free (s : State) : (s.endInstr).free = s.free := rfl
@[simp] theorem State.endInstr_nextId (s : State) : (s.endInstr).nextId = s.nextId := rfl
@[simp] theorem State.endInstr_agenda (s : State) : (s.endInstr).agenda = s.agenda := rfl

theorem State.countIssue_me (s : State) : (s.countIssue).me = if s.me.counted then s.me else { s.me with issued := s.me.issued + 1, counted := true } := rfl
@[simp] theorem State.countIssue_others (s : State) : (s.countIssue).others = s.others := rfl
@[simp] theorem State.countIssue_crews (s : State) : (s.countIssue).crews = s.crews := rfl
@[simp] theorem State.countIssue_launches (s : State) : (s.countIssue).launches = s.launches := rfl
@[simp] theorem State.countIssue_dispatchers (s : State) : (s.countIssue).dispatchers = s.dispatchers := rfl
@[simp] theorem State.countIssue_dev (s : State) : (s.countIssue).dev = s.dev := rfl
@[simp] theorem State.countIssue_host (s : State) : (s.countIssue).host = s.host := rfl
@[simp] theorem State.countIssue_tiles (s : State) : (s.countIssue).tiles = s.tiles := rfl
@[simp] theorem State.countIssue_tags (s : State) : (s.countIssue).tags = s.tags := rfl
@[simp] theorem State.countIssue_bars (s : State) : (s.countIssue).bars = s.bars := rfl
@[simp] theorem State.countIssue_copies (s : State) : (s.countIssue).copies = s.copies := rfl
@[simp] theorem State.countIssue_uplinks (s : State) : (s.countIssue).uplinks = s.uplinks := rfl
@[simp] theorem State.countIssue_fabric (s : State) : (s.countIssue).fabric = s.fabric := rfl
@[simp] theorem State.countIssue_bag (s : State) : (s.countIssue).bag = s.bag := rfl
@[simp] theorem State.countIssue_votes (s : State) : (s.countIssue).votes = s.votes := rfl
@[simp] theorem State.countIssue_voteBufs (s : State) : (s.countIssue).voteBufs = s.voteBufs := rfl
@[simp] theorem State.countIssue_matrix (s : State) : (s.countIssue).matrix = s.matrix := rfl
@[simp] theorem State.countIssue_cycles (s : State) : (s.countIssue).cycles = s.cycles := rfl
@[simp] theorem State.countIssue_tlb (s : State) : (s.countIssue).tlb = s.tlb := rfl
@[simp] theorem State.countIssue_upper (s : State) : (s.countIssue).upper = s.upper := rfl
@[simp] theorem State.countIssue_atc (s : State) : (s.countIssue).atc = s.atc := rfl
@[simp] theorem State.countIssue_ats (s : State) : (s.countIssue).ats = s.ats := rfl
@[simp] theorem State.countIssue_pri (s : State) : (s.countIssue).pri = s.pri := rfl
@[simp] theorem State.countIssue_priStopped (s : State) : (s.countIssue).priStopped = s.priStopped := rfl
@[simp] theorem State.countIssue_priLimits (s : State) : (s.countIssue).priLimits = s.priLimits := rfl
@[simp] theorem State.countIssue_pageFailed (s : State) : (s.countIssue).pageFailed = s.pageFailed := rfl
@[simp] theorem State.countIssue_removals (s : State) : (s.countIssue).removals = s.removals := rfl
@[simp] theorem State.countIssue_jobs (s : State) : (s.countIssue).jobs = s.jobs := rfl
@[simp] theorem State.countIssue_seqs (s : State) : (s.countIssue).seqs = s.seqs := rfl
@[simp] theorem State.countIssue_banks (s : State) : (s.countIssue).banks = s.banks := rfl
@[simp] theorem State.countIssue_rings (s : State) : (s.countIssue).rings = s.rings := rfl
@[simp] theorem State.countIssue_remoteRings (s : State) : (s.countIssue).remoteRings = s.remoteRings := rfl
@[simp] theorem State.countIssue_fnSecure (s : State) : (s.countIssue).fnSecure = s.fnSecure := rfl
@[simp] theorem State.countIssue_releasing (s : State) : (s.countIssue).releasing = s.releasing := rfl
@[simp] theorem State.countIssue_ringRegs (s : State) : (s.countIssue).ringRegs = s.ringRegs := rfl
@[simp] theorem State.countIssue_unmatched (s : State) : (s.countIssue).unmatched = s.unmatched := rfl
@[simp] theorem State.countIssue_cpRegs (s : State) : (s.countIssue).cpRegs = s.cpRegs := rfl
@[simp] theorem State.countIssue_pulses (s : State) : (s.countIssue).pulses = s.pulses := rfl
@[simp] theorem State.countIssue_railHeld (s : State) : (s.countIssue).railHeld = s.railHeld := rfl
@[simp] theorem State.countIssue_bar0 (s : State) : (s.countIssue).bar0 = s.bar0 := rfl
@[simp] theorem State.countIssue_posted (s : State) : (s.countIssue).posted = s.posted := rfl
@[simp] theorem State.countIssue_layers (s : State) : (s.countIssue).layers = s.layers := rfl
@[simp] theorem State.countIssue_links (s : State) : (s.countIssue).links = s.links := rfl
@[simp] theorem State.countIssue_tagsSeen (s : State) : (s.countIssue).tagsSeen = s.tagsSeen := rfl
@[simp] theorem State.countIssue_writesTo (s : State) : (s.countIssue).writesTo = s.writesTo := rfl
@[simp] theorem State.countIssue_writesFrom (s : State) : (s.countIssue).writesFrom = s.writesFrom := rfl
@[simp] theorem State.countIssue_cxlDown (s : State) : (s.countIssue).cxlDown = s.cxlDown := rfl
@[simp] theorem State.countIssue_turns (s : State) : (s.countIssue).turns = s.turns := rfl
@[simp] theorem State.countIssue_walks (s : State) : (s.countIssue).walks = s.walks := rfl
@[simp] theorem State.countIssue_ports (s : State) : (s.countIssue).ports = s.ports := rfl
@[simp] theorem State.countIssue_repairs (s : State) : (s.countIssue).repairs = s.repairs := rfl
@[simp] theorem State.countIssue_markersFrom (s : State) : (s.countIssue).markersFrom = s.markersFrom := rfl
@[simp] theorem State.countIssue_farVotes (s : State) : (s.countIssue).farVotes = s.farVotes := rfl
@[simp] theorem State.countIssue_arriving (s : State) : (s.countIssue).arriving = s.arriving := rfl
@[simp] theorem State.countIssue_hot (s : State) : (s.countIssue).hot = s.hot := rfl
@[simp] theorem State.countIssue_boot (s : State) : (s.countIssue).boot = s.boot := rfl
@[simp] theorem State.countIssue_out (s : State) : (s.countIssue).out = s.out := rfl
@[simp] theorem State.countIssue_free (s : State) : (s.countIssue).free = s.free := rfl
@[simp] theorem State.countIssue_nextId (s : State) : (s.countIssue).nextId = s.nextId := rfl
@[simp] theorem State.countIssue_agenda (s : State) : (s.countIssue).agenda = s.agenda := rfl

/-! ### Writes of a register leave the other fields of the strand alone -/

@[simp] theorem Strand.setX_key (t : Strand) (r : XReg) (w : Word) (p : Bool) : (t.setX r w p).key = t.key := by
  unfold Strand.setX
  split <;> rfl
@[simp] theorem Strand.setX_ids (t : Strand) (r : XReg) (w : Word) (p : Bool) : (t.setX r w p).ids = t.ids := by
  unfold Strand.setX
  split <;> rfl
@[simp] theorem Strand.setX_c (t : Strand) (r : XReg) (w : Word) (p : Bool) : (t.setX r w p).c = t.c := by
  unfold Strand.setX
  split <;> rfl
@[simp] theorem Strand.setX_k (t : Strand) (r : XReg) (w : Word) (p : Bool) : (t.setX r w p).k = t.k := by
  unfold Strand.setX
  split <;> rfl
@[simp] theorem Strand.setX_v (t : Strand) (r : XReg) (w : Word) (p : Bool) : (t.setX r w p).v = t.v := by
  unfold Strand.setX
  split <;> rfl
@[simp] theorem Strand.setX_vp (t : Strand) (r : XReg) (w : Word) (p : Bool) : (t.setX r w p).vp = t.vp := by
  unfold Strand.setX
  split <;> rfl
@[simp] theorem Strand.setX_pc (t : Strand) (r : XReg) (w : Word) (p : Bool) : (t.setX r w p).pc = t.pc := by
  unfold Strand.setX
  split <;> rfl
@[simp] theorem Strand.setX_level (t : Strand) (r : XReg) (w : Word) (p : Bool) : (t.setX r w p).level = t.level := by
  unfold Strand.setX
  split <;> rfl
@[simp] theorem Strand.setX_secure (t : Strand) (r : XReg) (w : Word) (p : Bool) : (t.setX r w p).secure = t.secure := by
  unfold Strand.setX
  split <;> rfl
@[simp] theorem Strand.setX_issued (t : Strand) (r : XReg) (w : Word) (p : Bool) : (t.setX r w p).issued = t.issued := by
  unfold Strand.setX
  split <;> rfl
@[simp] theorem Strand.setX_fpflags (t : Strand) (r : XReg) (w : Word) (p : Bool) : (t.setX r w p).fpflags = t.fpflags := by
  unfold Strand.setX
  split <;> rfl
@[simp] theorem Strand.setX_fpmode (t : Strand) (r : XReg) (w : Word) (p : Bool) : (t.setX r w p).fpmode = t.fpmode := by
  unfold Strand.setX
  split <;> rfl
@[simp] theorem Strand.setX_spawnCause (t : Strand) (r : XReg) (w : Word) (p : Bool) : (t.setX r w p).spawnCause = t.spawnCause := by
  unfold Strand.setX
  split <;> rfl
@[simp] theorem Strand.setX_spawnErr (t : Strand) (r : XReg) (w : Word) (p : Bool) : (t.setX r w p).spawnErr = t.spawnErr := by
  unfold Strand.setX
  split <;> rfl
@[simp] theorem Strand.setX_trapCause (t : Strand) (r : XReg) (w : Word) (p : Bool) : (t.setX r w p).trapCause = t.trapCause := by
  unfold Strand.setX
  split <;> rfl
@[simp] theorem Strand.setX_trapPc (t : Strand) (r : XReg) (w : Word) (p : Bool) : (t.setX r w p).trapPc = t.trapPc := by
  unfold Strand.setX
  split <;> rfl
@[simp] theorem Strand.setX_trapAddr (t : Strand) (r : XReg) (w : Word) (p : Bool) : (t.setX r w p).trapAddr = t.trapAddr := by
  unfold Strand.setX
  split <;> rfl
@[simp] theorem Strand.setX_trapInfo (t : Strand) (r : XReg) (w : Word) (p : Bool) : (t.setX r w p).trapInfo = t.trapInfo := by
  unfold Strand.setX
  split <;> rfl
@[simp] theorem Strand.setX_trapVec (t : Strand) (r : XReg) (w : Word) (p : Bool) : (t.setX r w p).trapVec = t.trapVec := by
  unfold Strand.setX
  split <;> rfl
@[simp] theorem Strand.setX_trapScratch (t : Strand) (r : XReg) (w : Word) (p : Bool) : (t.setX r w p).trapScratch = t.trapScratch := by
  unfold Strand.setX
  split <;> rfl
@[simp] theorem Strand.setX_prev (t : Strand) (r : XReg) (w : Word) (p : Bool) : (t.setX r w p).prev = t.prev := by
  unfold Strand.setX
  split <;> rfl
@[simp] theorem Strand.setX_async (t : Strand) (r : XReg) (w : Word) (p : Bool) : (t.setX r w p).async = t.async := by
  unfold Strand.setX
  split <;> rfl
@[simp] theorem Strand.setX_inHandler (t : Strand) (r : XReg) (w : Word) (p : Bool) : (t.setX r w p).inHandler = t.inHandler := by
  unfold Strand.setX
  split <;> rfl
@[simp] theorem Strand.setX_ovf (t : Strand) (r : XReg) (w : Word) (p : Bool) : (t.setX r w p).ovf = t.ovf := by
  unfold Strand.setX
  split <;> rfl
@[simp] theorem Strand.setX_asid (t : Strand) (r : XReg) (w : Word) (p : Bool) : (t.setX r w p).asid = t.asid := by
  unfold Strand.setX
  split <;> rfl
@[simp] theorem Strand.setX_queues (t : Strand) (r : XReg) (w : Word) (p : Bool) : (t.setX r w p).queues = t.queues := by
  unfold Strand.setX
  split <;> rfl
@[simp] theorem Strand.setX_events (t : Strand) (r : XReg) (w : Word) (p : Bool) : (t.setX r w p).events = t.events := by
  unfold Strand.setX
  split <;> rfl
@[simp] theorem Strand.setX_deferred (t : Strand) (r : XReg) (w : Word) (p : Bool) : (t.setX r w p).deferred = t.deferred := by
  unfold Strand.setX
  split <;> rfl
@[simp] theorem Strand.setX_wait (t : Strand) (r : XReg) (w : Word) (p : Bool) : (t.setX r w p).wait = t.wait := by
  unfold Strand.setX
  split <;> rfl
@[simp] theorem Strand.setX_counted (t : Strand) (r : XReg) (w : Word) (p : Bool) : (t.setX r w p).counted = t.counted := by
  unfold Strand.setX
  split <;> rfl
@[simp] theorem Strand.setX_appended (t : Strand) (r : XReg) (w : Word) (p : Bool) : (t.setX r w p).appended = t.appended := by
  unfold Strand.setX
  split <;> rfl
@[simp] theorem Strand.setX_live (t : Strand) (r : XReg) (w : Word) (p : Bool) : (t.setX r w p).live = t.live := by
  unfold Strand.setX
  split <;> rfl

@[simp] theorem Strand.setC_key (t : Strand) (r : CReg) (b : Bool) : (t.setC r b).key = t.key := by
  unfold Strand.setC
  split <;> rfl
@[simp] theorem Strand.setC_ids (t : Strand) (r : CReg) (b : Bool) : (t.setC r b).ids = t.ids := by
  unfold Strand.setC
  split <;> rfl
@[simp] theorem Strand.setC_x (t : Strand) (r : CReg) (b : Bool) : (t.setC r b).x = t.x := by
  unfold Strand.setC
  split <;> rfl
@[simp] theorem Strand.setC_xp (t : Strand) (r : CReg) (b : Bool) : (t.setC r b).xp = t.xp := by
  unfold Strand.setC
  split <;> rfl
@[simp] theorem Strand.setC_k (t : Strand) (r : CReg) (b : Bool) : (t.setC r b).k = t.k := by
  unfold Strand.setC
  split <;> rfl
@[simp] theorem Strand.setC_v (t : Strand) (r : CReg) (b : Bool) : (t.setC r b).v = t.v := by
  unfold Strand.setC
  split <;> rfl
@[simp] theorem Strand.setC_vp (t : Strand) (r : CReg) (b : Bool) : (t.setC r b).vp = t.vp := by
  unfold Strand.setC
  split <;> rfl
@[simp] theorem Strand.setC_pc (t : Strand) (r : CReg) (b : Bool) : (t.setC r b).pc = t.pc := by
  unfold Strand.setC
  split <;> rfl
@[simp] theorem Strand.setC_level (t : Strand) (r : CReg) (b : Bool) : (t.setC r b).level = t.level := by
  unfold Strand.setC
  split <;> rfl
@[simp] theorem Strand.setC_secure (t : Strand) (r : CReg) (b : Bool) : (t.setC r b).secure = t.secure := by
  unfold Strand.setC
  split <;> rfl
@[simp] theorem Strand.setC_issued (t : Strand) (r : CReg) (b : Bool) : (t.setC r b).issued = t.issued := by
  unfold Strand.setC
  split <;> rfl
@[simp] theorem Strand.setC_fpflags (t : Strand) (r : CReg) (b : Bool) : (t.setC r b).fpflags = t.fpflags := by
  unfold Strand.setC
  split <;> rfl
@[simp] theorem Strand.setC_fpmode (t : Strand) (r : CReg) (b : Bool) : (t.setC r b).fpmode = t.fpmode := by
  unfold Strand.setC
  split <;> rfl
@[simp] theorem Strand.setC_spawnCause (t : Strand) (r : CReg) (b : Bool) : (t.setC r b).spawnCause = t.spawnCause := by
  unfold Strand.setC
  split <;> rfl
@[simp] theorem Strand.setC_spawnErr (t : Strand) (r : CReg) (b : Bool) : (t.setC r b).spawnErr = t.spawnErr := by
  unfold Strand.setC
  split <;> rfl
@[simp] theorem Strand.setC_trapCause (t : Strand) (r : CReg) (b : Bool) : (t.setC r b).trapCause = t.trapCause := by
  unfold Strand.setC
  split <;> rfl
@[simp] theorem Strand.setC_trapPc (t : Strand) (r : CReg) (b : Bool) : (t.setC r b).trapPc = t.trapPc := by
  unfold Strand.setC
  split <;> rfl
@[simp] theorem Strand.setC_trapAddr (t : Strand) (r : CReg) (b : Bool) : (t.setC r b).trapAddr = t.trapAddr := by
  unfold Strand.setC
  split <;> rfl
@[simp] theorem Strand.setC_trapInfo (t : Strand) (r : CReg) (b : Bool) : (t.setC r b).trapInfo = t.trapInfo := by
  unfold Strand.setC
  split <;> rfl
@[simp] theorem Strand.setC_trapVec (t : Strand) (r : CReg) (b : Bool) : (t.setC r b).trapVec = t.trapVec := by
  unfold Strand.setC
  split <;> rfl
@[simp] theorem Strand.setC_trapScratch (t : Strand) (r : CReg) (b : Bool) : (t.setC r b).trapScratch = t.trapScratch := by
  unfold Strand.setC
  split <;> rfl
@[simp] theorem Strand.setC_prev (t : Strand) (r : CReg) (b : Bool) : (t.setC r b).prev = t.prev := by
  unfold Strand.setC
  split <;> rfl
@[simp] theorem Strand.setC_async (t : Strand) (r : CReg) (b : Bool) : (t.setC r b).async = t.async := by
  unfold Strand.setC
  split <;> rfl
@[simp] theorem Strand.setC_inHandler (t : Strand) (r : CReg) (b : Bool) : (t.setC r b).inHandler = t.inHandler := by
  unfold Strand.setC
  split <;> rfl
@[simp] theorem Strand.setC_ovf (t : Strand) (r : CReg) (b : Bool) : (t.setC r b).ovf = t.ovf := by
  unfold Strand.setC
  split <;> rfl
@[simp] theorem Strand.setC_asid (t : Strand) (r : CReg) (b : Bool) : (t.setC r b).asid = t.asid := by
  unfold Strand.setC
  split <;> rfl
@[simp] theorem Strand.setC_queues (t : Strand) (r : CReg) (b : Bool) : (t.setC r b).queues = t.queues := by
  unfold Strand.setC
  split <;> rfl
@[simp] theorem Strand.setC_events (t : Strand) (r : CReg) (b : Bool) : (t.setC r b).events = t.events := by
  unfold Strand.setC
  split <;> rfl
@[simp] theorem Strand.setC_deferred (t : Strand) (r : CReg) (b : Bool) : (t.setC r b).deferred = t.deferred := by
  unfold Strand.setC
  split <;> rfl
@[simp] theorem Strand.setC_wait (t : Strand) (r : CReg) (b : Bool) : (t.setC r b).wait = t.wait := by
  unfold Strand.setC
  split <;> rfl
@[simp] theorem Strand.setC_counted (t : Strand) (r : CReg) (b : Bool) : (t.setC r b).counted = t.counted := by
  unfold Strand.setC
  split <;> rfl
@[simp] theorem Strand.setC_appended (t : Strand) (r : CReg) (b : Bool) : (t.setC r b).appended = t.appended := by
  unfold Strand.setC
  split <;> rfl
@[simp] theorem Strand.setC_live (t : Strand) (r : CReg) (b : Bool) : (t.setC r b).live = t.live := by
  unfold Strand.setC
  split <;> rfl

@[simp] theorem Strand.setK_key (t : Strand) (r : KReg) (w : Word) : (t.setK r w).key = t.key := by
  unfold Strand.setK
  split <;> rfl
@[simp] theorem Strand.setK_ids (t : Strand) (r : KReg) (w : Word) : (t.setK r w).ids = t.ids := by
  unfold Strand.setK
  split <;> rfl
@[simp] theorem Strand.setK_x (t : Strand) (r : KReg) (w : Word) : (t.setK r w).x = t.x := by
  unfold Strand.setK
  split <;> rfl
@[simp] theorem Strand.setK_xp (t : Strand) (r : KReg) (w : Word) : (t.setK r w).xp = t.xp := by
  unfold Strand.setK
  split <;> rfl
@[simp] theorem Strand.setK_c (t : Strand) (r : KReg) (w : Word) : (t.setK r w).c = t.c := by
  unfold Strand.setK
  split <;> rfl
@[simp] theorem Strand.setK_v (t : Strand) (r : KReg) (w : Word) : (t.setK r w).v = t.v := by
  unfold Strand.setK
  split <;> rfl
@[simp] theorem Strand.setK_vp (t : Strand) (r : KReg) (w : Word) : (t.setK r w).vp = t.vp := by
  unfold Strand.setK
  split <;> rfl
@[simp] theorem Strand.setK_pc (t : Strand) (r : KReg) (w : Word) : (t.setK r w).pc = t.pc := by
  unfold Strand.setK
  split <;> rfl
@[simp] theorem Strand.setK_level (t : Strand) (r : KReg) (w : Word) : (t.setK r w).level = t.level := by
  unfold Strand.setK
  split <;> rfl
@[simp] theorem Strand.setK_secure (t : Strand) (r : KReg) (w : Word) : (t.setK r w).secure = t.secure := by
  unfold Strand.setK
  split <;> rfl
@[simp] theorem Strand.setK_issued (t : Strand) (r : KReg) (w : Word) : (t.setK r w).issued = t.issued := by
  unfold Strand.setK
  split <;> rfl
@[simp] theorem Strand.setK_fpflags (t : Strand) (r : KReg) (w : Word) : (t.setK r w).fpflags = t.fpflags := by
  unfold Strand.setK
  split <;> rfl
@[simp] theorem Strand.setK_fpmode (t : Strand) (r : KReg) (w : Word) : (t.setK r w).fpmode = t.fpmode := by
  unfold Strand.setK
  split <;> rfl
@[simp] theorem Strand.setK_spawnCause (t : Strand) (r : KReg) (w : Word) : (t.setK r w).spawnCause = t.spawnCause := by
  unfold Strand.setK
  split <;> rfl
@[simp] theorem Strand.setK_spawnErr (t : Strand) (r : KReg) (w : Word) : (t.setK r w).spawnErr = t.spawnErr := by
  unfold Strand.setK
  split <;> rfl
@[simp] theorem Strand.setK_trapCause (t : Strand) (r : KReg) (w : Word) : (t.setK r w).trapCause = t.trapCause := by
  unfold Strand.setK
  split <;> rfl
@[simp] theorem Strand.setK_trapPc (t : Strand) (r : KReg) (w : Word) : (t.setK r w).trapPc = t.trapPc := by
  unfold Strand.setK
  split <;> rfl
@[simp] theorem Strand.setK_trapAddr (t : Strand) (r : KReg) (w : Word) : (t.setK r w).trapAddr = t.trapAddr := by
  unfold Strand.setK
  split <;> rfl
@[simp] theorem Strand.setK_trapInfo (t : Strand) (r : KReg) (w : Word) : (t.setK r w).trapInfo = t.trapInfo := by
  unfold Strand.setK
  split <;> rfl
@[simp] theorem Strand.setK_trapVec (t : Strand) (r : KReg) (w : Word) : (t.setK r w).trapVec = t.trapVec := by
  unfold Strand.setK
  split <;> rfl
@[simp] theorem Strand.setK_trapScratch (t : Strand) (r : KReg) (w : Word) : (t.setK r w).trapScratch = t.trapScratch := by
  unfold Strand.setK
  split <;> rfl
@[simp] theorem Strand.setK_prev (t : Strand) (r : KReg) (w : Word) : (t.setK r w).prev = t.prev := by
  unfold Strand.setK
  split <;> rfl
@[simp] theorem Strand.setK_async (t : Strand) (r : KReg) (w : Word) : (t.setK r w).async = t.async := by
  unfold Strand.setK
  split <;> rfl
@[simp] theorem Strand.setK_inHandler (t : Strand) (r : KReg) (w : Word) : (t.setK r w).inHandler = t.inHandler := by
  unfold Strand.setK
  split <;> rfl
@[simp] theorem Strand.setK_ovf (t : Strand) (r : KReg) (w : Word) : (t.setK r w).ovf = t.ovf := by
  unfold Strand.setK
  split <;> rfl
@[simp] theorem Strand.setK_asid (t : Strand) (r : KReg) (w : Word) : (t.setK r w).asid = t.asid := by
  unfold Strand.setK
  split <;> rfl
@[simp] theorem Strand.setK_queues (t : Strand) (r : KReg) (w : Word) : (t.setK r w).queues = t.queues := by
  unfold Strand.setK
  split <;> rfl
@[simp] theorem Strand.setK_events (t : Strand) (r : KReg) (w : Word) : (t.setK r w).events = t.events := by
  unfold Strand.setK
  split <;> rfl
@[simp] theorem Strand.setK_deferred (t : Strand) (r : KReg) (w : Word) : (t.setK r w).deferred = t.deferred := by
  unfold Strand.setK
  split <;> rfl
@[simp] theorem Strand.setK_wait (t : Strand) (r : KReg) (w : Word) : (t.setK r w).wait = t.wait := by
  unfold Strand.setK
  split <;> rfl
@[simp] theorem Strand.setK_counted (t : Strand) (r : KReg) (w : Word) : (t.setK r w).counted = t.counted := by
  unfold Strand.setK
  split <;> rfl
@[simp] theorem Strand.setK_appended (t : Strand) (r : KReg) (w : Word) : (t.setK r w).appended = t.appended := by
  unfold Strand.setK
  split <;> rfl
@[simp] theorem Strand.setK_live (t : Strand) (r : KReg) (w : Word) : (t.setK r w).live = t.live := by
  unfold Strand.setK
  split <;> rfl

@[simp] theorem Strand.setV_key (t : Strand) (r : VReg) (l : Vector Lane 64) (p : BitVec 64) : (t.setV r l p).key = t.key := rfl
@[simp] theorem Strand.setV_ids (t : Strand) (r : VReg) (l : Vector Lane 64) (p : BitVec 64) : (t.setV r l p).ids = t.ids := rfl
@[simp] theorem Strand.setV_x (t : Strand) (r : VReg) (l : Vector Lane 64) (p : BitVec 64) : (t.setV r l p).x = t.x := rfl
@[simp] theorem Strand.setV_xp (t : Strand) (r : VReg) (l : Vector Lane 64) (p : BitVec 64) : (t.setV r l p).xp = t.xp := rfl
@[simp] theorem Strand.setV_c (t : Strand) (r : VReg) (l : Vector Lane 64) (p : BitVec 64) : (t.setV r l p).c = t.c := rfl
@[simp] theorem Strand.setV_k (t : Strand) (r : VReg) (l : Vector Lane 64) (p : BitVec 64) : (t.setV r l p).k = t.k := rfl
@[simp] theorem Strand.setV_pc (t : Strand) (r : VReg) (l : Vector Lane 64) (p : BitVec 64) : (t.setV r l p).pc = t.pc := rfl
@[simp] theorem Strand.setV_level (t : Strand) (r : VReg) (l : Vector Lane 64) (p : BitVec 64) : (t.setV r l p).level = t.level := rfl
@[simp] theorem Strand.setV_secure (t : Strand) (r : VReg) (l : Vector Lane 64) (p : BitVec 64) : (t.setV r l p).secure = t.secure := rfl
@[simp] theorem Strand.setV_issued (t : Strand) (r : VReg) (l : Vector Lane 64) (p : BitVec 64) : (t.setV r l p).issued = t.issued := rfl
@[simp] theorem Strand.setV_fpflags (t : Strand) (r : VReg) (l : Vector Lane 64) (p : BitVec 64) : (t.setV r l p).fpflags = t.fpflags := rfl
@[simp] theorem Strand.setV_fpmode (t : Strand) (r : VReg) (l : Vector Lane 64) (p : BitVec 64) : (t.setV r l p).fpmode = t.fpmode := rfl
@[simp] theorem Strand.setV_spawnCause (t : Strand) (r : VReg) (l : Vector Lane 64) (p : BitVec 64) : (t.setV r l p).spawnCause = t.spawnCause := rfl
@[simp] theorem Strand.setV_spawnErr (t : Strand) (r : VReg) (l : Vector Lane 64) (p : BitVec 64) : (t.setV r l p).spawnErr = t.spawnErr := rfl
@[simp] theorem Strand.setV_trapCause (t : Strand) (r : VReg) (l : Vector Lane 64) (p : BitVec 64) : (t.setV r l p).trapCause = t.trapCause := rfl
@[simp] theorem Strand.setV_trapPc (t : Strand) (r : VReg) (l : Vector Lane 64) (p : BitVec 64) : (t.setV r l p).trapPc = t.trapPc := rfl
@[simp] theorem Strand.setV_trapAddr (t : Strand) (r : VReg) (l : Vector Lane 64) (p : BitVec 64) : (t.setV r l p).trapAddr = t.trapAddr := rfl
@[simp] theorem Strand.setV_trapInfo (t : Strand) (r : VReg) (l : Vector Lane 64) (p : BitVec 64) : (t.setV r l p).trapInfo = t.trapInfo := rfl
@[simp] theorem Strand.setV_trapVec (t : Strand) (r : VReg) (l : Vector Lane 64) (p : BitVec 64) : (t.setV r l p).trapVec = t.trapVec := rfl
@[simp] theorem Strand.setV_trapScratch (t : Strand) (r : VReg) (l : Vector Lane 64) (p : BitVec 64) : (t.setV r l p).trapScratch = t.trapScratch := rfl
@[simp] theorem Strand.setV_prev (t : Strand) (r : VReg) (l : Vector Lane 64) (p : BitVec 64) : (t.setV r l p).prev = t.prev := rfl
@[simp] theorem Strand.setV_async (t : Strand) (r : VReg) (l : Vector Lane 64) (p : BitVec 64) : (t.setV r l p).async = t.async := rfl
@[simp] theorem Strand.setV_inHandler (t : Strand) (r : VReg) (l : Vector Lane 64) (p : BitVec 64) : (t.setV r l p).inHandler = t.inHandler := rfl
@[simp] theorem Strand.setV_ovf (t : Strand) (r : VReg) (l : Vector Lane 64) (p : BitVec 64) : (t.setV r l p).ovf = t.ovf := rfl
@[simp] theorem Strand.setV_asid (t : Strand) (r : VReg) (l : Vector Lane 64) (p : BitVec 64) : (t.setV r l p).asid = t.asid := rfl
@[simp] theorem Strand.setV_queues (t : Strand) (r : VReg) (l : Vector Lane 64) (p : BitVec 64) : (t.setV r l p).queues = t.queues := rfl
@[simp] theorem Strand.setV_events (t : Strand) (r : VReg) (l : Vector Lane 64) (p : BitVec 64) : (t.setV r l p).events = t.events := rfl
@[simp] theorem Strand.setV_deferred (t : Strand) (r : VReg) (l : Vector Lane 64) (p : BitVec 64) : (t.setV r l p).deferred = t.deferred := rfl
@[simp] theorem Strand.setV_wait (t : Strand) (r : VReg) (l : Vector Lane 64) (p : BitVec 64) : (t.setV r l p).wait = t.wait := rfl
@[simp] theorem Strand.setV_counted (t : Strand) (r : VReg) (l : Vector Lane 64) (p : BitVec 64) : (t.setV r l p).counted = t.counted := rfl
@[simp] theorem Strand.setV_appended (t : Strand) (r : VReg) (l : Vector Lane 64) (p : BitVec 64) : (t.setV r l p).appended = t.appended := rfl
@[simp] theorem Strand.setV_live (t : Strand) (r : VReg) (l : Vector Lane 64) (p : BitVec 64) : (t.setV r l p).live = t.live := rfl

/-! ### The count in ISSUED touches two fields -/

@[simp] theorem State.countIssue_me_key (s : State) : s.countIssue.me.key = s.me.key := by
  rw [State.countIssue_me]
  split <;> rfl
@[simp] theorem State.countIssue_me_ids (s : State) : s.countIssue.me.ids = s.me.ids := by
  rw [State.countIssue_me]
  split <;> rfl
@[simp] theorem State.countIssue_me_x (s : State) : s.countIssue.me.x = s.me.x := by
  rw [State.countIssue_me]
  split <;> rfl
@[simp] theorem State.countIssue_me_xp (s : State) : s.countIssue.me.xp = s.me.xp := by
  rw [State.countIssue_me]
  split <;> rfl
@[simp] theorem State.countIssue_me_c (s : State) : s.countIssue.me.c = s.me.c := by
  rw [State.countIssue_me]
  split <;> rfl
@[simp] theorem State.countIssue_me_k (s : State) : s.countIssue.me.k = s.me.k := by
  rw [State.countIssue_me]
  split <;> rfl
@[simp] theorem State.countIssue_me_v (s : State) : s.countIssue.me.v = s.me.v := by
  rw [State.countIssue_me]
  split <;> rfl
@[simp] theorem State.countIssue_me_vp (s : State) : s.countIssue.me.vp = s.me.vp := by
  rw [State.countIssue_me]
  split <;> rfl
@[simp] theorem State.countIssue_me_pc (s : State) : s.countIssue.me.pc = s.me.pc := by
  rw [State.countIssue_me]
  split <;> rfl
@[simp] theorem State.countIssue_me_level (s : State) : s.countIssue.me.level = s.me.level := by
  rw [State.countIssue_me]
  split <;> rfl
@[simp] theorem State.countIssue_me_secure (s : State) : s.countIssue.me.secure = s.me.secure := by
  rw [State.countIssue_me]
  split <;> rfl
@[simp] theorem State.countIssue_me_fpflags (s : State) : s.countIssue.me.fpflags = s.me.fpflags := by
  rw [State.countIssue_me]
  split <;> rfl
@[simp] theorem State.countIssue_me_fpmode (s : State) : s.countIssue.me.fpmode = s.me.fpmode := by
  rw [State.countIssue_me]
  split <;> rfl
@[simp] theorem State.countIssue_me_spawnCause (s : State) : s.countIssue.me.spawnCause = s.me.spawnCause := by
  rw [State.countIssue_me]
  split <;> rfl
@[simp] theorem State.countIssue_me_spawnErr (s : State) : s.countIssue.me.spawnErr = s.me.spawnErr := by
  rw [State.countIssue_me]
  split <;> rfl
@[simp] theorem State.countIssue_me_trapCause (s : State) : s.countIssue.me.trapCause = s.me.trapCause := by
  rw [State.countIssue_me]
  split <;> rfl
@[simp] theorem State.countIssue_me_trapPc (s : State) : s.countIssue.me.trapPc = s.me.trapPc := by
  rw [State.countIssue_me]
  split <;> rfl
@[simp] theorem State.countIssue_me_trapAddr (s : State) : s.countIssue.me.trapAddr = s.me.trapAddr := by
  rw [State.countIssue_me]
  split <;> rfl
@[simp] theorem State.countIssue_me_trapInfo (s : State) : s.countIssue.me.trapInfo = s.me.trapInfo := by
  rw [State.countIssue_me]
  split <;> rfl
@[simp] theorem State.countIssue_me_trapVec (s : State) : s.countIssue.me.trapVec = s.me.trapVec := by
  rw [State.countIssue_me]
  split <;> rfl
@[simp] theorem State.countIssue_me_trapScratch (s : State) : s.countIssue.me.trapScratch = s.me.trapScratch := by
  rw [State.countIssue_me]
  split <;> rfl
@[simp] theorem State.countIssue_me_prev (s : State) : s.countIssue.me.prev = s.me.prev := by
  rw [State.countIssue_me]
  split <;> rfl
@[simp] theorem State.countIssue_me_async (s : State) : s.countIssue.me.async = s.me.async := by
  rw [State.countIssue_me]
  split <;> rfl
@[simp] theorem State.countIssue_me_inHandler (s : State) : s.countIssue.me.inHandler = s.me.inHandler := by
  rw [State.countIssue_me]
  split <;> rfl
@[simp] theorem State.countIssue_me_ovf (s : State) : s.countIssue.me.ovf = s.me.ovf := by
  rw [State.countIssue_me]
  split <;> rfl
@[simp] theorem State.countIssue_me_asid (s : State) : s.countIssue.me.asid = s.me.asid := by
  rw [State.countIssue_me]
  split <;> rfl
@[simp] theorem State.countIssue_me_queues (s : State) : s.countIssue.me.queues = s.me.queues := by
  rw [State.countIssue_me]
  split <;> rfl
@[simp] theorem State.countIssue_me_events (s : State) : s.countIssue.me.events = s.me.events := by
  rw [State.countIssue_me]
  split <;> rfl
@[simp] theorem State.countIssue_me_deferred (s : State) : s.countIssue.me.deferred = s.me.deferred := by
  rw [State.countIssue_me]
  split <;> rfl
@[simp] theorem State.countIssue_me_wait (s : State) : s.countIssue.me.wait = s.me.wait := by
  rw [State.countIssue_me]
  split <;> rfl
@[simp] theorem State.countIssue_me_appended (s : State) : s.countIssue.me.appended = s.me.appended := by
  rw [State.countIssue_me]
  split <;> rfl
@[simp] theorem State.countIssue_me_live (s : State) : s.countIssue.me.live = s.me.live := by
  rw [State.countIssue_me]
  split <;> rfl

/-! ### What a register reads after a write -/

@[simp] theorem Strand.xr_zero (t : Strand) : t.xr 0 = 0 := by simp [Strand.xr]
@[simp] theorem Strand.xPois_zero (t : Strand) : t.xPois 0 = false := by simp [Strand.xPois]
@[simp] theorem Strand.cr_zero (t : Strand) : t.cr 0 = true := by simp [Strand.cr]
@[simp] theorem Strand.kr_zero (t : Strand) : t.kr 0 = BitVec.allOnes 64 := by simp [Strand.kr]

/-- An x register after a write: x0 keeps reading 0, the written register reads the value, another what it held. -/
theorem Strand.xr_setX (t : Strand) (r q : XReg) (w : Word) (p : Bool) :
    (t.setX r w p).xr q = if q = r ∧ r ≠ 0 then w else t.xr q := by
  unfold Strand.setX Strand.xr
  by_cases hr : r = 0#6
  · simp [hr]
  · by_cases hq : q = r
    · subst hq
      simp [hr]
    · have : ¬ r.toNat = q.toNat := fun h => hq (BitVec.toNat_inj.1 h.symm)
      simp [hq, hr, this]

/-- Bit q of a word whose only bit is r. -/
theorem bit_other {n : Nat} {r q : Nat} (h : q ≠ r) : (1#n <<< r).getLsbD q = false := by
  simp only [BitVec.getLsbD_shiftLeft, BitVec.getLsbD_one]
  by_cases hlt : q < r
  · simp [hlt]
  · have : ¬ q - r = 0 := by omega
    simp [this]

/-- The poison of an x register after a write. -/
theorem Strand.xPois_setX (t : Strand) (r q : XReg) (w : Word) (p : Bool) :
    (t.setX r w p).xPois q = if q = r ∧ r ≠ 0 then p else t.xPois q := by
  unfold Strand.setX Strand.xPois
  by_cases hr : r = 0#6
  · simp [hr]
  · have hlt : q.toNat < 64 := q.isLt
    by_cases hq : q = r
    · subst hq
      cases p <;> simp [hr, hlt]
    · have h1 : ¬ q.toNat = r.toNat := fun h => hq (BitVec.toNat_inj.1 h)
      have h2 := bit_other (n := 64) h1
      have hr' : ¬ r = 0 := hr
      cases p <;> simp only [hr', hq, if_false, if_true, false_and, BitVec.getLsbD_or, BitVec.getLsbD_and,
        BitVec.getLsbD_not, h2, hlt, decide_true, Bool.or_false, Bool.not_false, Bool.and_true, Bool.false_eq_true]

@[simp] theorem Strand.xr_setX_other (t : Strand) {r q : XReg} (w : Word) (p : Bool) (h : q ≠ r) :
    (t.setX r w p).xr q = t.xr q := by simp [Strand.xr_setX, h]
@[simp] theorem Strand.xPois_setX_other (t : Strand) {r q : XReg} (w : Word) (p : Bool) (h : q ≠ r) :
    (t.setX r w p).xPois q = t.xPois q := by simp [Strand.xPois_setX, h]

/-- A condition register after a write: c0 keeps reading 1. -/
theorem Strand.cr_setC (t : Strand) (r q : CReg) (b : Bool) :
    (t.setC r b).cr q = if q = r ∧ r ≠ 0 then b else t.cr q := by
  unfold Strand.setC Strand.cr
  by_cases hr : r = 0#3
  · simp [hr]
  · have hlt : q.toNat < 8 := q.isLt
    by_cases hq : q = r
    · subst hq
      cases b <;> simp [hr, hlt]
    · have h1 : ¬ q.toNat = r.toNat := fun h => hq (BitVec.toNat_inj.1 h)
      have h2 := bit_other (n := 8) h1
      have hr' : ¬ r = 0 := hr
      cases b <;> simp only [hr', hq, if_false, if_true, false_and, BitVec.getLsbD_or, BitVec.getLsbD_and,
        BitVec.getLsbD_not, h2, hlt, decide_true, Bool.or_false, Bool.not_false, Bool.and_true, Bool.false_eq_true]

/-- A lane mask after a write: k0 keeps reading all ones. -/
theorem Strand.kr_setK (t : Strand) (r q : KReg) (w : Word) :
    (t.setK r w).kr q = if q = r ∧ r ≠ 0 then w else t.kr q := by
  unfold Strand.setK Strand.kr
  by_cases hr : r = 0#3
  · simp [hr]
  · by_cases hq : q = r
    · subst hq
      simp [hr]
    · have : ¬ r.toNat = q.toNat := fun h => hq (BitVec.toNat_inj.1 h.symm)
      simp [hq, hr, this]

theorem Strand.vr_setV (t : Strand) (r q : VReg) (l : Vector Lane 64) (p : BitVec 64) :
    (t.setV r l p).vr q = if q = r then l else t.vr q := by
  unfold Strand.setV Strand.vr
  by_cases hq : q = r
  · subst hq
    simp
  · have : ¬ r.toNat = q.toNat := fun h => hq (BitVec.toNat_inj.1 h.symm)
    simp [hq, this]

theorem Strand.vPois_setV (t : Strand) (r q : VReg) (l : Vector Lane 64) (p : BitVec 64) :
    (t.setV r l p).vPois q = if q = r then p else t.vPois q := by
  unfold Strand.setV Strand.vPois
  by_cases hq : q = r
  · subst hq
    simp
  · have : ¬ r.toNat = q.toNat := fun h => hq (BitVec.toNat_inj.1 h.symm)
    simp [hq, this]

/-! ### Registers read as before the count -/

theorem State.countIssue_me_eq (s : State) :
    s.countIssue.me = { s.me with issued := s.countIssue.me.issued, counted := s.countIssue.me.counted } := by
  rw [State.countIssue_me]
  split <;> rfl

@[simp] theorem State.countIssue_xr (s : State) (r : XReg) : s.countIssue.xr r = s.xr r := by
  simp [State.xr, Strand.xr]
@[simp] theorem State.countIssue_xPois (s : State) (r : XReg) : s.countIssue.xPois r = s.xPois r := by
  simp [State.xPois, Strand.xPois]
@[simp] theorem State.countIssue_cr (s : State) (r : CReg) : s.countIssue.cr r = s.cr r := by
  simp [State.cr, Strand.cr]
@[simp] theorem State.countIssue_kr (s : State) (r : KReg) : s.countIssue.kr r = s.kr r := by
  simp [State.kr, Strand.kr]
@[simp] theorem State.countIssue_vr (s : State) (r : VReg) : s.countIssue.vr r = s.vr r := by
  simp [State.vr, Strand.vr]
@[simp] theorem State.countIssue_vPois (s : State) (r : VReg) : s.countIssue.vPois r = s.vPois r := by
  simp [State.vPois, Strand.vPois]
@[simp] theorem State.countIssue_mode (s : State) (r : Rnd) : s.countIssue.mode r = s.mode r := by
  cases r <;> simp [State.mode]
@[simp] theorem State.countIssue_queue (s : State) (h : HReg) : s.countIssue.me.queue h = s.me.queue h := by
  simp [Strand.queue]

/-! ### The frame of an instruction -/

/-- Guarded on with its registers ready, an instruction is counted and has its effect. -/
theorem frame_ready {g : Guard} {xs : List XReg} {vs : List VReg} {s : State} (eff : State → Eff)
    (hg : s.guardOn g = true) (hp : s.me.pending xs vs = false) :
    frame g xs vs eff s = .next (s.countIssue.settle 8 (eff s.countIssue)) := by
  simp [frame, frameOf, hg, hp]

/-- Guarded off, an instruction is counted and PC moves past it. -/
theorem frame_off {g : Guard} {xs : List XReg} {vs : List VReg} {s : State} (eff : State → Eff)
    (hg : s.guardOn g = false) : frame g xs vs eff s = .next (s.countIssue.advance 8) := by
  simp [frame, frameOf, hg]

/-- An instruction always answers a next state: it is passed over, it waits for a register, or it has its effect. -/
theorem frame_cases {g : Guard} {xs : List XReg} {vs : List VReg} {s t : State} {eff : State → Eff}
    (h : frame g xs vs eff s = .next t) :
    (s.guardOn g = false ∧ t = s.countIssue.advance 8) ∨
    (s.guardOn g = true ∧ s.me.pending xs vs = true ∧ t = s.await (.regs xs vs)) ∨
    (s.guardOn g = true ∧ s.me.pending xs vs = false ∧ t = s.countIssue.settle 8 (eff s.countIssue)) := by
  unfold frame frameOf at h
  by_cases hg : s.guardOn g = true
  · by_cases hp : s.me.pending xs vs = true
    · simp_all
    · simp_all
  · simp_all

end Sys2Proof.Machine
end

