-- ==== Sys2Proof/Laws/Complete.lean ====
section
/-!
SUPPORT. Laws/Complete.lean: for each way an instruction completes, the equation of its next state that shows it.
-/

namespace Sys2Proof.Machine

theorem ended_advance {s u : State} {len : Word} (hi : u.me.issued = (if s.me.counted then s.me.issued else s.me.issued + 1))
    (hp : u.me.pc = s.me.pc) : Ended s (u.advance len) len := by
  refine ⟨?_, ?_, rfl, rfl⟩
  · rw [← hi]; rfl
  · rw [← hp]; rfl

theorem countIssue_issued (s : State) :
    s.countIssue.me.issued = (if s.me.counted then s.me.issued else s.me.issued + 1) := by
  rw [State.countIssue_me]
  split <;> rfl

/-! ### Reading the register just written -/

theorem Strand.xr_setX_self (t : Strand) (r : XReg) (w : Word) (p : Bool) :
    (t.setX r w p).xr r = if r = 0 then 0 else w := by
  rw [Strand.xr_setX]
  by_cases h : r = 0
  · rw [if_neg (fun c => c.2 h), if_pos h, h]; exact Strand.xr_zero t
  · rw [if_pos ⟨rfl, h⟩, if_neg h]

theorem Strand.xPois_setX_self (t : Strand) (r : XReg) (w : Word) (p : Bool) :
    (t.setX r w p).xPois r = (r != 0 && p) := by
  rw [Strand.xPois_setX]
  by_cases h : r = 0
  · rw [if_neg (fun c => c.2 h), h]; exact Strand.xPois_zero t
  · rw [if_pos ⟨rfl, h⟩, bne_iff_ne.mpr h, Bool.true_and]

theorem Strand.cr_setC_self (t : Strand) (r : CReg) (b : Bool) : (t.setC r b).cr r = (r == 0 || b) := by
  rw [Strand.cr_setC]
  by_cases h : r = 0
  · rw [if_neg (fun c => c.2 h), h]; exact Strand.cr_zero t
  · rw [if_pos ⟨rfl, h⟩, beq_eq_false_iff_ne.mpr h, Bool.false_or]

theorem Strand.kr_setK_self (t : Strand) (r : KReg) (w : Word) :
    (t.setK r w).kr r = if r = 0 then BitVec.allOnes 64 else w := by
  rw [Strand.kr_setK]
  by_cases h : r = 0
  · rw [if_neg (fun c => c.2 h), if_pos h, h]; exact Strand.kr_zero t
  · rw [if_pos ⟨rfl, h⟩, if_neg h]

/-- The end of an instruction, in its strand. -/
def Strand.finish (len : Word) (t : Strand) : Strand := { t with pc := t.pc + len, wait := none, counted := false }

/-- FPFLAGS joined by some flags. -/
def Strand.flag (t : Strand) (fl : Flags) : Strand := { t with fpflags := t.fpflags ||| fl }

/-- An effect on registers alone, between the count and the advance of PC. -/
theorem onlyRegs_of {s : State} {len : Word} {xs : List XReg} {vs : List VReg} {cs : List CReg} {ks : List KReg}
    {fl : Flags} (f : Strand → Strand)
    (hs : ∀ t, f t = t.withRegs (f t)) (hi : ∀ t, (f t).issued = t.issued) (hp : ∀ t, (f t).pc = t.pc)
    (hx : ∀ t r, r ∉ xs → (f t).xr r = t.xr r ∧ (f t).xPois r = t.xPois r)
    (hv : ∀ t r, r ∉ vs → (f t).vr r = t.vr r ∧ (f t).vPois r = t.vPois r)
    (hc : ∀ t r, r ∉ cs → (f t).cr r = t.cr r)
    (hk : ∀ t r, r ∉ ks → (f t).kr r = t.kr r)
    (hf : ∀ t, (f t).fpflags = t.fpflags ||| fl) :
    Ended s ((s.countIssue.onMe f).advance len) len ∧
      OnlyRegs s ((s.countIssue.onMe f).advance len) xs vs cs ks fl := by
  have e := hs s.countIssue.me
  refine ⟨ended_advance ?_ ?_, rfl, ?_, ?_, ?_, ?_, ?_, ?_, ?_⟩
  · rw [State.onMe_me, hi]; exact countIssue_issued s
  · rw [State.onMe_me, hp]; exact State.countIssue_me_pc s
  · show Strand.finish len (f s.countIssue.me) = s.me.withRegs (Strand.finish len (f s.countIssue.me))
    generalize f s.countIssue.me = u at e ⊢
    conv_lhs => rw [e]
    rw [State.countIssue_me]
    split <;> rfl
  · intro r hr
    obtain ⟨h1, h2⟩ := hx s.countIssue.me r hr
    exact ⟨h1.trans (State.countIssue_xr s r), h2.trans (State.countIssue_xPois s r)⟩
  · intro r hr
    obtain ⟨h1, h2⟩ := hv s.countIssue.me r hr
    exact ⟨h1.trans (State.countIssue_vr s r), h2.trans (State.countIssue_vPois s r)⟩
  · intro r hr
    exact (hc s.countIssue.me r hr).trans (State.countIssue_cr s r)
  · intro r hr
    exact (hk s.countIssue.me r hr).trans (State.countIssue_kr s r)
  · exact (hf s.countIssue.me).trans (by rw [State.countIssue_me_fpflags])
  · exact fun a => ⟨rfl, rfl, rfl⟩

theorem bv_or_zero {n : Nat} (f : BitVec n) : f ||| 0 = f := by simp

theorem Nothing.of {i : Instr} {s : State} (h : exec i s = .next (s.countIssue.advance 8)) : Nothing i s := by
  have := onlyRegs_of (s := s) (len := 8) (xs := []) (vs := []) (cs := []) (ks := []) (fl := 0) id (fun t => rfl)
    (fun _ => rfl) (fun _ => rfl) (fun _ _ _ => ⟨rfl, rfl⟩) (fun _ _ _ => ⟨rfl, rfl⟩) (fun _ _ _ => rfl) (fun _ _ _ => rfl)
    (fun t => (bv_or_zero _).symm)
  exact ⟨_, h, this.1, this.2⟩

theorem XDone.of {i : Instr} {s : State} {len : Word} {d : XReg} {w : Word} {p : Bool} {fl : Flags}
    (h : exec i s = .next (((s.countIssue.raise fl).setX d w p).advance len)) : XDone i s len d w p fl := by
  have := onlyRegs_of (s := s) (len := len) (xs := [d]) (vs := []) (cs := []) (ks := []) (fl := fl)
    (fun t => (t.flag fl).setX d w p)
    (by intro t; unfold Strand.setX; split <;> rfl) (by intro t; unfold Strand.setX; split <;> rfl)
    (by intro t; unfold Strand.setX; split <;> rfl)
    (by
      intro t r hr
      have hr : r ≠ d := by simpa using hr
      exact ⟨Strand.xr_setX_other _ w p hr, Strand.xPois_setX_other _ w p hr⟩)
    (by intro t r _; unfold Strand.setX; split <;> exact ⟨rfl, rfl⟩)
    (by intro t r _; unfold Strand.setX; split <;> rfl)
    (by intro t r _; unfold Strand.setX; split <;> rfl)
    (by intro t; unfold Strand.setX; split <;> rfl)
  refine ⟨_, h, this.1, this.2, ?_, ?_⟩
  · exact Strand.xr_setX_self _ d w p
  · exact Strand.xPois_setX_self _ d w p

theorem raise_zero (s : State) : s.raise 0 = s := by
  unfold State.raise State.onMe
  simp

theorem XDone.of' {i : Instr} {s : State} {len : Word} {d : XReg} {w : Word} {p : Bool}
    (h : exec i s = .next ((s.countIssue.setX d w p).advance len)) : XDone i s len d w p 0 :=
  XDone.of (by rw [raise_zero]; exact h)

theorem CDone.of {i : Instr} {s : State} {d : CReg} {b : Bool} {P : Prop} {fl : Flags}
    (h : exec i s = .next (((s.countIssue.raise fl).setC d b).advance 8)) (hb : b = true ↔ P) : CDone i s d P fl := by
  have := onlyRegs_of (s := s) (len := 8) (xs := []) (vs := []) (cs := [d]) (ks := []) (fl := fl)
    (fun t => (t.flag fl).setC d b)
    (by intro t; unfold Strand.setC; split <;> rfl) (by intro t; unfold Strand.setC; split <;> rfl)
    (by intro t; unfold Strand.setC; split <;> rfl)
    (by intro t r _; unfold Strand.setC; split <;> exact ⟨rfl, rfl⟩)
    (by intro t r _; unfold Strand.setC; split <;> exact ⟨rfl, rfl⟩)
    (by
      intro t r hr
      have hr : r ≠ d := by simpa using hr
      show Strand.cr (Strand.setC _ d b) r = _
      rw [Strand.cr_setC]
      simp only [hr, false_and, if_false]
      rfl)
    (by intro t r _; unfold Strand.setC; split <;> rfl)
    (by intro t; unfold Strand.setC; split <;> rfl)
  refine ⟨_, h, this.1, this.2, ?_⟩
  show Strand.cr (Strand.setC _ d b) d = true ↔ _
  rw [Strand.cr_setC_self, ← hb]
  simp

theorem CDone.of' {i : Instr} {s : State} {d : CReg} {b : Bool} {P : Prop}
    (h : exec i s = .next ((s.countIssue.setC d b).advance 8)) (hb : b = true ↔ P) : CDone i s d P 0 :=
  CDone.of (by rw [raise_zero]; exact h) hb

theorem KDone.of {i : Instr} {s : State} {d : KReg} {w : Word} {bit : Nat → Bool} {fl : Flags}
    (h : exec i s = .next (((s.countIssue.raise fl).setK d w).advance 8))
    (hb : ∀ n, n < 64 → w.getLsbD n = bit n) : KDone i s d bit fl := by
  have := onlyRegs_of (s := s) (len := 8) (xs := []) (vs := []) (cs := []) (ks := [d]) (fl := fl)
    (fun t => (t.flag fl).setK d w)
    (by intro t; unfold Strand.setK; split <;> rfl) (by intro t; unfold Strand.setK; split <;> rfl)
    (by intro t; unfold Strand.setK; split <;> rfl)
    (by intro t r _; unfold Strand.setK; split <;> exact ⟨rfl, rfl⟩)
    (by intro t r _; unfold Strand.setK; split <;> exact ⟨rfl, rfl⟩)
    (by intro t r _; unfold Strand.setK; split <;> rfl)
    (by
      intro t r hr
      have hr : r ≠ d := by simpa using hr
      show Strand.kr (Strand.setK _ d w) r = _
      rw [Strand.kr_setK]
      simp only [hr, false_and, if_false]
      rfl)
    (by intro t; unfold Strand.setK; split <;> rfl)
  refine ⟨_, h, this.1, this.2, ?_⟩
  intro n hn
  show (Strand.kr (Strand.setK _ d w) d).getLsbD n = _
  rw [Strand.kr_setK_self]
  by_cases hd : d = 0
  · rw [if_pos hd, BitVec.getLsbD_allOnes, hd]
    simp [hn]
  · rw [if_neg hd, beq_eq_false_iff_ne.mpr hd, Bool.false_or, hb n hn]

theorem KDone.of' {i : Instr} {s : State} {d : KReg} {w : Word} {bit : Nat → Bool}
    (h : exec i s = .next ((s.countIssue.setK d w).advance 8))
    (hb : ∀ n, n < 64 → w.getLsbD n = bit n) : KDone i s d bit 0 :=
  KDone.of (by rw [raise_zero]; exact h) hb

/-! ### Vector registers -/

theorem foldr_bits (n : Nat) (f : Nat → Bool) (l : List Nat) (j : Nat) :
    ((l.foldr (fun i w => if f i then w ||| (1#n <<< i) else w) (0#n)).getLsbD j) =
      (decide (j < n) && l.contains j && f j) := by
  induction l with
  | nil => simp
  | cons i is ih =>
    simp only [List.foldr_cons, List.contains_cons]
    by_cases hf : f i = true
    · simp only [hf, if_true, BitVec.getLsbD_or, ih]
      by_cases hj : j = i
      · subst hj
        by_cases hn : j < n <;> simp [hn, hf]
      · have h1 : (1#n <<< i).getLsbD j = false := bit_other hj
        have h2 : (j == i) = false := by simpa using hj
        rw [h1, h2, Bool.or_false, Bool.false_or]
    · simp only [hf]
      by_cases hj : j = i
      · subst hj
        simp [ih, hf]
      · have h2 : (j == i) = false := by simpa using hj
        simp only [h2, Bool.false_or]
        exact ih

/-- A bit of a mask built from a predicate. -/
theorem maskOf_bit (f : Nat → Bool) {j : Nat} (h : j < 64) : (maskOf f).getLsbD j = f j := by
  have := foldr_bits 64 f (List.range 64) j
  unfold maskOf
  refine this.trans ?_
  simp [h]

/-- A lane of a v register after a masked write. -/
theorem Strand.vr_setVMasked (t : Strand) (r : VReg) (m : Word) (lane : Nat → Lane) (p : Nat → Bool) (n : Fin 64) :
    ((t.setVMasked r m lane p).vr r)[n] = if m.getLsbD n then lane n else (t.vr r)[n] := by
  unfold Strand.setVMasked
  rw [Strand.vr_setV, if_pos rfl]
  simp

/-- The poison of a lane after a masked write. -/
theorem Strand.vPois_setVMasked (t : Strand) (r : VReg) (m : Word) (lane : Nat → Lane) (p : Nat → Bool) (n : Fin 64) :
    ((t.setVMasked r m lane p).vPois r).getLsbD n = if m.getLsbD n then p n else (t.vPois r).getLsbD n := by
  unfold Strand.setVMasked
  rw [Strand.vPois_setV, if_pos rfl]
  exact maskOf_bit _ n.isLt

theorem VDone.of {i : Instr} {s : State} {d : VReg} {m : Word} {lane : Nat → Lane} {p : Nat → Bool} {fl : Flags}
    (h : exec i s = .next (((s.countIssue.raise fl).onMe fun t => t.setVMasked d m lane p).advance 8)) :
    VDone i s d m lane p fl := by
  have := onlyRegs_of (s := s) (len := 8) (xs := []) (vs := [d]) (cs := []) (ks := []) (fl := fl)
    (fun t => (t.flag fl).setVMasked d m lane p)
    (by intro t; rfl) (by intro t; rfl) (by intro t; rfl)
    (by intro t r _; exact ⟨rfl, rfl⟩)
    (by
      intro t r hr
      have hr : r ≠ d := by simpa using hr
      exact ⟨by
          show Strand.vr (Strand.setV _ d _ _) r = _
          rw [Strand.vr_setV, if_neg hr]; rfl,
        by
          show Strand.vPois (Strand.setV _ d _ _) r = _
          rw [Strand.vPois_setV, if_neg hr]; rfl⟩)
    (by intro t r _; rfl)
    (by intro t r _; rfl)
    (by intro t; rfl)
  refine ⟨_, h, this.1, this.2, ?_⟩
  intro n
  constructor
  · refine (Strand.vr_setVMasked (s.countIssue.raise fl).me d m lane p n).trans ?_
    have hv : (s.countIssue.raise fl).me.vr d = s.vr d := State.countIssue_vr s d
    rw [hv]
  · refine (Strand.vPois_setVMasked (s.countIssue.raise fl).me d m lane p n).trans ?_
    have hv : (s.countIssue.raise fl).me.vPois d = s.vPois d := State.countIssue_vPois s d
    rw [hv]

theorem VDone.of' {i : Instr} {s : State} {d : VReg} {m : Word} {lane : Nat → Lane} {p : Nat → Bool}
    (h : exec i s = .next ((s.countIssue.onMe fun t => t.setVMasked d m lane p).advance 8)) :
    VDone i s d m lane p 0 :=
  VDone.of (by rw [raise_zero]; exact h)

end Sys2Proof.Machine
end

