-- ==== Sys2Proof/Laws/Exec.lean ====
section
/-!
SUPPORT. Laws/Exec.lean: the meaning that each instruction is given.
-/

namespace Sys2Proof.Machine

theorem exec_nop (g) (sx : State) : exec (.nop g) sx = execNop g sx := rfl
theorem exec_trap (g o) (sx : State) : exec (.trap g o) sx = execTrap g o sx := rfl
theorem exec_brk (g) (sx : State) : exec (.brk g) sx = execBrk g sx := rfl
theorem exec_eret (g) (sx : State) : exec (.eret g) sx = execEret g sx := rfl
theorem exec_srd (g o) (sx : State) : exec (.srd g o) sx = execSrd g o sx := rfl
theorem exec_swr (g o) (sx : State) : exec (.swr g o) sx = execSwr g o sx := rfl
theorem exec_fence (g o) (sx : State) : exec (.fence g o) sx = execFence g o sx := rfl
theorem exec_fencer (g o) (sx : State) : exec (.fencer g o) sx = execFencer g o sx := rfl
theorem exec_chk (g o) (sx : State) : exec (.chk g o) sx = execChk g o sx := rfl
theorem exec_chkv (g o) (sx : State) : exec (.chkv g o) sx = execChkv g o sx := rfl
theorem exec_roinv (g) (sx : State) : exec (.roinv g) sx = execRoinv g sx := rfl
theorem exec_tlbi (g o) (sx : State) : exec (.tlbi g o) sx = execTlbi g o sx := rfl
theorem exec_waiti (g o) (sx : State) : exec (.waiti g o) sx = execWaiti g o sx := rfl
theorem exec_jmp (g o) (sx : State) : exec (.jmp g o) sx = execJmp g o sx := rfl
theorem exec_call (g o) (sx : State) : exec (.call g o) sx = execCall g o sx := rfl
theorem exec_jr (g o) (sx : State) : exec (.jr g o) sx = execJr g o sx := rfl
theorem exec_callr (g o) (sx : State) : exec (.callr g o) sx = execCallr g o sx := rfl
theorem exec_ret (g o) (sx : State) : exec (.ret g o) sx = execRet g o sx := rfl
theorem exec_movl (g o) (sx : State) : exec (.movl g o) sx = execMovl g o sx := rfl
theorem exec_add (g o) (sx : State) : exec (.add g o) sx = execAdd g o sx := rfl
theorem exec_sub (g o) (sx : State) : exec (.sub g o) sx = execSub g o sx := rfl
theorem exec_and (g o) (sx : State) : exec (.and g o) sx = execAnd g o sx := rfl
theorem exec_or (g o) (sx : State) : exec (.or g o) sx = execOr g o sx := rfl
theorem exec_xor (g o) (sx : State) : exec (.xor g o) sx = execXor g o sx := rfl
theorem exec_andn (g o) (sx : State) : exec (.andn g o) sx = execAndn g o sx := rfl
theorem exec_orn (g o) (sx : State) : exec (.orn g o) sx = execOrn g o sx := rfl
theorem exec_shl (g o) (sx : State) : exec (.shl g o) sx = execShl g o sx := rfl
theorem exec_shr (g o) (sx : State) : exec (.shr g o) sx = execShr g o sx := rfl
theorem exec_sar (g o) (sx : State) : exec (.sar g o) sx = execSar g o sx := rfl
theorem exec_rol (g o) (sx : State) : exec (.rol g o) sx = execRol g o sx := rfl
theorem exec_ror (g o) (sx : State) : exec (.ror g o) sx = execRor g o sx := rfl
theorem exec_mul (g o) (sx : State) : exec (.mul g o) sx = execMul g o sx := rfl
theorem exec_mulh (g o) (sx : State) : exec (.mulh g o) sx = execMulh g o sx := rfl
theorem exec_mulhn (g o) (sx : State) : exec (.mulhn g o) sx = execMulhn g o sx := rfl
theorem exec_madd (g o) (sx : State) : exec (.madd g o) sx = execMadd g o sx := rfl
theorem exec_div (g o) (sx : State) : exec (.div g o) sx = execDiv g o sx := rfl
theorem exec_divn (g o) (sx : State) : exec (.divn g o) sx = execDivn g o sx := rfl
theorem exec_rem (g o) (sx : State) : exec (.rem g o) sx = execRem g o sx := rfl
theorem exec_remn (g o) (sx : State) : exec (.remn g o) sx = execRemn g o sx := rfl
theorem exec_min (g o) (sx : State) : exec (.min g o) sx = execMin g o sx := rfl
theorem exec_max (g o) (sx : State) : exec (.max g o) sx = execMax g o sx := rfl
theorem exec_minn (g o) (sx : State) : exec (.minn g o) sx = execMinn g o sx := rfl
theorem exec_maxn (g o) (sx : State) : exec (.maxn g o) sx = execMaxn g o sx := rfl
theorem exec_sel (g o) (sx : State) : exec (.sel g o) sx = execSel g o sx := rfl
theorem exec_clz (g o) (sx : State) : exec (.clz g o) sx = execClz g o sx := rfl
theorem exec_ctz (g o) (sx : State) : exec (.ctz g o) sx = execCtz g o sx := rfl
theorem exec_pop (g o) (sx : State) : exec (.pop g o) sx = execPop g o sx := rfl
theorem exec_brev (g o) (sx : State) : exec (.brev g o) sx = execBrev g o sx := rfl
theorem exec_bswap (g o) (sx : State) : exec (.bswap g o) sx = execBswap g o sx := rfl
theorem exec_sext (g o) (sx : State) : exec (.sext g o) sx = execSext g o sx := rfl
theorem exec_zext (g o) (sx : State) : exec (.zext g o) sx = execZext g o sx := rfl
theorem exec_bfx (g o) (sx : State) : exec (.bfx g o) sx = execBfx g o sx := rfl
theorem exec_bfi (g o) (sx : State) : exec (.bfi g o) sx = execBfi g o sx := rfl
theorem exec_iopiAdd (g o) (sx : State) : exec (.iopiAdd g o) sx = execIopiAdd g o sx := rfl
theorem exec_iopiAnd (g o) (sx : State) : exec (.iopiAnd g o) sx = execIopiAnd g o sx := rfl
theorem exec_iopiOr (g o) (sx : State) : exec (.iopiOr g o) sx = execIopiOr g o sx := rfl
theorem exec_iopiXor (g o) (sx : State) : exec (.iopiXor g o) sx = execIopiXor g o sx := rfl
theorem exec_iopiShl (g o) (sx : State) : exec (.iopiShl g o) sx = execIopiShl g o sx := rfl
theorem exec_iopiShr (g o) (sx : State) : exec (.iopiShr g o) sx = execIopiShr g o sx := rfl
theorem exec_iopiSar (g o) (sx : State) : exec (.iopiSar g o) sx = execIopiSar g o sx := rfl
theorem exec_iopiRol (g o) (sx : State) : exec (.iopiRol g o) sx = execIopiRol g o sx := rfl
theorem exec_iopiRor (g o) (sx : State) : exec (.iopiRor g o) sx = execIopiRor g o sx := rfl
theorem exec_iopiMul (g o) (sx : State) : exec (.iopiMul g o) sx = execIopiMul g o sx := rfl
theorem exec_iopiMin (g o) (sx : State) : exec (.iopiMin g o) sx = execIopiMin g o sx := rfl
theorem exec_iopiMax (g o) (sx : State) : exec (.iopiMax g o) sx = execIopiMax g o sx := rfl
theorem exec_iopiMinn (g o) (sx : State) : exec (.iopiMinn g o) sx = execIopiMinn g o sx := rfl
theorem exec_iopiMaxn (g o) (sx : State) : exec (.iopiMaxn g o) sx = execIopiMaxn g o sx := rfl
theorem exec_iopiSext (g o) (sx : State) : exec (.iopiSext g o) sx = execIopiSext g o sx := rfl
theorem exec_iopiZext (g o) (sx : State) : exec (.iopiZext g o) sx = execIopiZext g o sx := rfl
theorem exec_iopiBfx (g o) (sx : State) : exec (.iopiBfx g o) sx = execIopiBfx g o sx := rfl
theorem exec_iopiBfi (g o) (sx : State) : exec (.iopiBfi g o) sx = execIopiBfi g o sx := rfl
theorem exec_cmpEq (g o) (sx : State) : exec (.cmpEq g o) sx = execCmpEq g o sx := rfl
theorem exec_cmpNe (g o) (sx : State) : exec (.cmpNe g o) sx = execCmpNe g o sx := rfl
theorem exec_cmpLt (g o) (sx : State) : exec (.cmpLt g o) sx = execCmpLt g o sx := rfl
theorem exec_cmpGe (g o) (sx : State) : exec (.cmpGe g o) sx = execCmpGe g o sx := rfl
theorem exec_cmpLe (g o) (sx : State) : exec (.cmpLe g o) sx = execCmpLe g o sx := rfl
theorem exec_cmpGt (g o) (sx : State) : exec (.cmpGt g o) sx = execCmpGt g o sx := rfl
theorem exec_cmpLtn (g o) (sx : State) : exec (.cmpLtn g o) sx = execCmpLtn g o sx := rfl
theorem exec_cmpGen (g o) (sx : State) : exec (.cmpGen g o) sx = execCmpGen g o sx := rfl
theorem exec_cmpLen (g o) (sx : State) : exec (.cmpLen g o) sx = execCmpLen g o sx := rfl
theorem exec_cmpGtn (g o) (sx : State) : exec (.cmpGtn g o) sx = execCmpGtn g o sx := rfl
theorem exec_cmpTst (g o) (sx : State) : exec (.cmpTst g o) sx = execCmpTst g o sx := rfl
theorem exec_cmpNtst (g o) (sx : State) : exec (.cmpNtst g o) sx = execCmpNtst g o sx := rfl
theorem exec_cmpiEq (g o) (sx : State) : exec (.cmpiEq g o) sx = execCmpiEq g o sx := rfl
theorem exec_cmpiNe (g o) (sx : State) : exec (.cmpiNe g o) sx = execCmpiNe g o sx := rfl
theorem exec_cmpiLt (g o) (sx : State) : exec (.cmpiLt g o) sx = execCmpiLt g o sx := rfl
theorem exec_cmpiGe (g o) (sx : State) : exec (.cmpiGe g o) sx = execCmpiGe g o sx := rfl
theorem exec_cmpiLe (g o) (sx : State) : exec (.cmpiLe g o) sx = execCmpiLe g o sx := rfl
theorem exec_cmpiGt (g o) (sx : State) : exec (.cmpiGt g o) sx = execCmpiGt g o sx := rfl
theorem exec_cmpiLtn (g o) (sx : State) : exec (.cmpiLtn g o) sx = execCmpiLtn g o sx := rfl
theorem exec_cmpiGen (g o) (sx : State) : exec (.cmpiGen g o) sx = execCmpiGen g o sx := rfl
theorem exec_cmpiLen (g o) (sx : State) : exec (.cmpiLen g o) sx = execCmpiLen g o sx := rfl
theorem exec_cmpiGtn (g o) (sx : State) : exec (.cmpiGtn g o) sx = execCmpiGtn g o sx := rfl
theorem exec_cmpiTst (g o) (sx : State) : exec (.cmpiTst g o) sx = execCmpiTst g o sx := rfl
theorem exec_cmpiNtst (g o) (sx : State) : exec (.cmpiNtst g o) sx = execCmpiNtst g o sx := rfl
theorem exec_movw (g o) (sx : State) : exec (.movw g o) sx = execMovw g o sx := rfl
theorem exec_movk (g o) (sx : State) : exec (.movk g o) sx = execMovk g o sx := rfl
theorem exec_lea (g o) (sx : State) : exec (.lea g o) sx = execLea g o sx := rfl
theorem exec_pand (g o) (sx : State) : exec (.pand g o) sx = execPand g o sx := rfl
theorem exec_por (g o) (sx : State) : exec (.por g o) sx = execPor g o sx := rfl
theorem exec_pxor (g o) (sx : State) : exec (.pxor g o) sx = execPxor g o sx := rfl
theorem exec_pandn (g o) (sx : State) : exec (.pandn g o) sx = execPandn g o sx := rfl
theorem exec_pnot (g o) (sx : State) : exec (.pnot g o) sx = execPnot g o sx := rfl
theorem exec_psetx (g o) (sx : State) : exec (.psetx g o) sx = execPsetx g o sx := rfl
theorem exec_xgetp (g o) (sx : State) : exec (.xgetp g o) sx = execXgetp g o sx := rfl
theorem exec_fadd (g o) (sx : State) : exec (.fadd g o) sx = execFadd g o sx := rfl
theorem exec_fsub (g o) (sx : State) : exec (.fsub g o) sx = execFsub g o sx := rfl
theorem exec_fmul (g o) (sx : State) : exec (.fmul g o) sx = execFmul g o sx := rfl
theorem exec_ffma (g o) (sx : State) : exec (.ffma g o) sx = execFfma g o sx := rfl
theorem exec_fdiv (g o) (sx : State) : exec (.fdiv g o) sx = execFdiv g o sx := rfl
theorem exec_fsqrt (g o) (sx : State) : exec (.fsqrt g o) sx = execFsqrt g o sx := rfl
theorem exec_fmin (g o) (sx : State) : exec (.fmin g o) sx = execFmin g o sx := rfl
theorem exec_fmax (g o) (sx : State) : exec (.fmax g o) sx = execFmax g o sx := rfl
theorem exec_fabs (g o) (sx : State) : exec (.fabs g o) sx = execFabs g o sx := rfl
theorem exec_fneg (g o) (sx : State) : exec (.fneg g o) sx = execFneg g o sx := rfl
theorem exec_fcvti (g o) (sx : State) : exec (.fcvti g o) sx = execFcvti g o sx := rfl
theorem exec_fcvtf (g o) (sx : State) : exec (.fcvtf g o) sx = execFcvtf g o sx := rfl
theorem exec_fcvtw (g o) (sx : State) : exec (.fcvtw g o) sx = execFcvtw g o sx := rfl
theorem exec_fclass (g o) (sx : State) : exec (.fclass g o) sx = execFclass g o sx := rfl
theorem exec_feq (g o) (sx : State) : exec (.feq g o) sx = execFeq g o sx := rfl
theorem exec_flt (g o) (sx : State) : exec (.flt g o) sx = execFlt g o sx := rfl
theorem exec_fle (g o) (sx : State) : exec (.fle g o) sx = execFle g o sx := rfl
theorem exec_fun_ (g o) (sx : State) : exec (.fun_ g o) sx = execFun g o sx := rfl
theorem exec_ld (g o) (sx : State) : exec (.ld g o) sx = execLd g o sx := rfl
theorem exec_st (g o) (sx : State) : exec (.st g o) sx = execSt g o sx := rfl
theorem exec_atomXchg (g o) (sx : State) : exec (.atomXchg g o) sx = execAtomXchg g o sx := rfl
theorem exec_atomCas (g o) (sx : State) : exec (.atomCas g o) sx = execAtomCas g o sx := rfl
theorem exec_atomAdd (g o) (sx : State) : exec (.atomAdd g o) sx = execAtomAdd g o sx := rfl
theorem exec_atomAnd (g o) (sx : State) : exec (.atomAnd g o) sx = execAtomAnd g o sx := rfl
theorem exec_atomOr (g o) (sx : State) : exec (.atomOr g o) sx = execAtomOr g o sx := rfl
theorem exec_atomXor (g o) (sx : State) : exec (.atomXor g o) sx = execAtomXor g o sx := rfl
theorem exec_atomMin (g o) (sx : State) : exec (.atomMin g o) sx = execAtomMin g o sx := rfl
theorem exec_atomMax (g o) (sx : State) : exec (.atomMax g o) sx = execAtomMax g o sx := rfl
theorem exec_atomMinn (g o) (sx : State) : exec (.atomMinn g o) sx = execAtomMinn g o sx := rfl
theorem exec_atomMaxn (g o) (sx : State) : exec (.atomMaxn g o) sx = execAtomMaxn g o sx := rfl
theorem exec_atomFadd (g o) (sx : State) : exec (.atomFadd g o) sx = execAtomFadd g o sx := rfl
theorem exec_atomFmin (g o) (sx : State) : exec (.atomFmin g o) sx = execAtomFmin g o sx := rfl
theorem exec_atomFmax (g o) (sx : State) : exec (.atomFmax g o) sx = execAtomFmax g o sx := rfl
theorem exec_atomIncw (g o) (sx : State) : exec (.atomIncw g o) sx = execAtomIncw g o sx := rfl
theorem exec_atomDecw (g o) (sx : State) : exec (.atomDecw g o) sx = execAtomDecw g o sx := rfl
theorem exec_vld (g o) (sx : State) : exec (.vld g o) sx = execVld g o sx := rfl
theorem exec_vlds (g o) (sx : State) : exec (.vlds g o) sx = execVlds g o sx := rfl
theorem exec_vldb (g o) (sx : State) : exec (.vldb g o) sx = execVldb g o sx := rfl
theorem exec_vst (g o) (sx : State) : exec (.vst g o) sx = execVst g o sx := rfl
theorem exec_vsts (g o) (sx : State) : exec (.vsts g o) sx = execVsts g o sx := rfl
theorem exec_vgather (g o) (sx : State) : exec (.vgather g o) sx = execVgather g o sx := rfl
theorem exec_vscatter (g o) (sx : State) : exec (.vscatter g o) sx = execVscatter g o sx := rfl
theorem exec_vscadd (g o) (sx : State) : exec (.vscadd g o) sx = execVscadd g o sx := rfl
theorem exec_prefetchDc (g o) (sx : State) : exec (.prefetchDc g o) sx = execPrefetchDc g o sx := rfl
theorem exec_prefetchCs (g o) (sx : State) : exec (.prefetchCs g o) sx = execPrefetchCs g o sx := rfl
theorem exec_tld (g o) (sx : State) : exec (.tld g o) sx = execTld g o sx := rfl
theorem exec_tldv (g o) (sx : State) : exec (.tldv g o) sx = execTldv g o sx := rfl
theorem exec_tldvs (g o) (sx : State) : exec (.tldvs g o) sx = execTldvs g o sx := rfl
theorem exec_tst (g o) (sx : State) : exec (.tst g o) sx = execTst g o sx := rfl
theorem exec_tstv (g o) (sx : State) : exec (.tstv g o) sx = execTstv g o sx := rfl
theorem exec_tstvs (g o) (sx : State) : exec (.tstvs g o) sx = execTstvs g o sx := rfl
theorem exec_mma (g o) (sx : State) : exec (.mma g o) sx = execMma g o sx := rfl
theorem exec_mmaReg (g o) (sx : State) : exec (.mmaReg g o) sx = execMmaReg g o sx := rfl
theorem exec_mmas (g o) (sx : State) : exec (.mmas g o) sx = execMmas g o sx := rfl
theorem exec_mmasReg (g o) (sx : State) : exec (.mmasReg g o) sx = execMmasReg g o sx := rfl
theorem exec_zzero (g o) (sx : State) : exec (.zzero g o) sx = execZzero g o sx := rfl
theorem exec_zld (g o) (sx : State) : exec (.zld g o) sx = execZld g o sx := rfl
theorem exec_zst (g o) (sx : State) : exec (.zst g o) sx = execZst g o sx := rfl
theorem exec_zsts (g o) (sx : State) : exec (.zsts g o) sx = execZsts g o sx := rfl
theorem exec_zbias (g o) (sx : State) : exec (.zbias g o) sx = execZbias g o sx := rfl
theorem exec_tarm (g o) (sx : State) : exec (.tarm g o) sx = execTarm g o sx := rfl
theorem exec_twait (g o) (sx : State) : exec (.twait g o) sx = execTwait g o sx := rfl
theorem exec_ttake (g o) (sx : State) : exec (.ttake g o) sx = execTtake g o sx := rfl
theorem exec_tstat (g o) (sx : State) : exec (.tstat g o) sx = execTstat g o sx := rfl
theorem exec_tmark (g o) (sx : State) : exec (.tmark g o) sx = execTmark g o sx := rfl
theorem exec_tpois (g o) (sx : State) : exec (.tpois g o) sx = execTpois g o sx := rfl
theorem exec_tscls (g o) (sx : State) : exec (.tscls g o) sx = execTscls g o sx := rfl
theorem exec_tsclg (g o) (sx : State) : exec (.tsclg g o) sx = execTsclg g o sx := rfl
theorem exec_tzero (g o) (sx : State) : exec (.tzero g o) sx = execTzero g o sx := rfl
theorem exec_tsend (g o) (sx : State) : exec (.tsend g o) sx = execTsend g o sx := rfl
theorem exec_tsendv (g o) (sx : State) : exec (.tsendv g o) sx = execTsendv g o sx := rfl
theorem exec_tsendx (g o) (sx : State) : exec (.tsendx g o) sx = execTsendx g o sx := rfl
theorem exec_tnote (g o) (sx : State) : exec (.tnote g o) sx = execTnote g o sx := rfl
theorem exec_hfork (g o) (sx : State) : exec (.hfork g o) sx = execHfork g o sx := rfl
theorem exec_hjoin (g o) (sx : State) : exec (.hjoin g o) sx = execHjoin g o sx := rfl
theorem exec_hjoina (g o) (sx : State) : exec (.hjoina g o) sx = execHjoina g o sx := rfl
theorem exec_hwait (g o) (sx : State) : exec (.hwait g o) sx = execHwait g o sx := rfl
theorem exec_hpass (g o) (sx : State) : exec (.hpass g o) sx = execHpass g o sx := rfl
theorem exec_hrecv (g o) (sx : State) : exec (.hrecv g o) sx = execHrecv g o sx := rfl
theorem exec_hcnt (g o) (sx : State) : exec (.hcnt g o) sx = execHcnt g o sx := rfl
theorem exec_barinit (g o) (sx : State) : exec (.barinit g o) sx = execBarinit g o sx := rfl
theorem exec_bararr (g o) (sx : State) : exec (.bararr g o) sx = execBararr g o sx := rfl
theorem exec_bararx (g o) (sx : State) : exec (.bararx g o) sx = execBararx g o sx := rfl
theorem exec_barexp (g o) (sx : State) : exec (.barexp g o) sx = execBarexp g o sx := rfl
theorem exec_barwait (g o) (sx : State) : exec (.barwait g o) sx = execBarwait g o sx := rfl
theorem exec_bartry (g o) (sx : State) : exec (.bartry g o) sx = execBartry g o sx := rfl
theorem exec_barinv (g o) (sx : State) : exec (.barinv g o) sx = execBarinv g o sx := rfl
theorem exec_spawn (g o) (sx : State) : exec (.spawn g o) sx = execSpawn g o sx := rfl
theorem exec_exit (g) (sx : State) : exec (.exit g) sx = execExit g sx := rfl
theorem exec_yield (g) (sx : State) : exec (.yield g) sx = execYield g sx := rfl
theorem exec_park (g o) (sx : State) : exec (.park g o) sx = execPark g o sx := rfl
theorem exec_cpygo (g o) (sx : State) : exec (.cpygo g o) sx = execCpygo g o sx := rfl
theorem exec_cpystat (g o) (sx : State) : exec (.cpystat g o) sx = execCpystat g o sx := rfl
theorem exec_cpyabort (g o) (sx : State) : exec (.cpyabort g o) sx = execCpyabort g o sx := rfl
theorem exec_layset (g o) (sx : State) : exec (.layset g o) sx = execLayset g o sx := rfl
theorem exec_layget (g o) (sx : State) : exec (.layget g o) sx = execLayget g o sx := rfl
theorem exec_rgput (g o) (sx : State) : exec (.rgput g o) sx = execRgput g o sx := rfl
theorem exec_rgread (g o) (sx : State) : exec (.rgread g o) sx = execRgread g o sx := rfl
theorem exec_rgpos (g o) (sx : State) : exec (.rgpos g o) sx = execRgpos g o sx := rfl
theorem exec_trgnext (g o) (sx : State) : exec (.trgnext g o) sx = execTrgnext g o sx := rfl
theorem exec_trgfwd (g o) (sx : State) : exec (.trgfwd g o) sx = execTrgfwd g o sx := rfl
theorem exec_trgacc (g o) (sx : State) : exec (.trgacc g o) sx = execTrgacc g o sx := rfl
theorem exec_trgrej (g o) (sx : State) : exec (.trgrej g o) sx = execTrgrej g o sx := rfl
theorem exec_trgmark (g o) (sx : State) : exec (.trgmark g o) sx = execTrgmark g o sx := rfl
theorem exec_vadd (g o) (sx : State) : exec (.vadd g o) sx = execVadd g o sx := rfl
theorem exec_vsub (g o) (sx : State) : exec (.vsub g o) sx = execVsub g o sx := rfl
theorem exec_vmul (g o) (sx : State) : exec (.vmul g o) sx = execVmul g o sx := rfl
theorem exec_vmulh (g o) (sx : State) : exec (.vmulh g o) sx = execVmulh g o sx := rfl
theorem exec_vmadd (g o) (sx : State) : exec (.vmadd g o) sx = execVmadd g o sx := rfl
theorem exec_vand (g o) (sx : State) : exec (.vand g o) sx = execVand g o sx := rfl
theorem exec_vor (g o) (sx : State) : exec (.vor g o) sx = execVor g o sx := rfl
theorem exec_vxor (g o) (sx : State) : exec (.vxor g o) sx = execVxor g o sx := rfl
theorem exec_vshl (g o) (sx : State) : exec (.vshl g o) sx = execVshl g o sx := rfl
theorem exec_vshr (g o) (sx : State) : exec (.vshr g o) sx = execVshr g o sx := rfl
theorem exec_vsar (g o) (sx : State) : exec (.vsar g o) sx = execVsar g o sx := rfl
theorem exec_vmin (g o) (sx : State) : exec (.vmin g o) sx = execVmin g o sx := rfl
theorem exec_vmax (g o) (sx : State) : exec (.vmax g o) sx = execVmax g o sx := rfl
theorem exec_vabs (g o) (sx : State) : exec (.vabs g o) sx = execVabs g o sx := rfl
theorem exec_vneg (g o) (sx : State) : exec (.vneg g o) sx = execVneg g o sx := rfl
theorem exec_vadds (g o) (sx : State) : exec (.vadds g o) sx = execVadds g o sx := rfl
theorem exec_vsubs (g o) (sx : State) : exec (.vsubs g o) sx = execVsubs g o sx := rfl
theorem exec_vpop (g o) (sx : State) : exec (.vpop g o) sx = execVpop g o sx := rfl
theorem exec_vclz (g o) (sx : State) : exec (.vclz g o) sx = execVclz g o sx := rfl
theorem exec_vdot4 (g o) (sx : State) : exec (.vdot4 g o) sx = execVdot4 g o sx := rfl
theorem exec_vsel (g o) (sx : State) : exec (.vsel g o) sx = execVsel g o sx := rfl
theorem exec_vfadd (g o) (sx : State) : exec (.vfadd g o) sx = execVfadd g o sx := rfl
theorem exec_vfsub (g o) (sx : State) : exec (.vfsub g o) sx = execVfsub g o sx := rfl
theorem exec_vfmul (g o) (sx : State) : exec (.vfmul g o) sx = execVfmul g o sx := rfl
theorem exec_vffma (g o) (sx : State) : exec (.vffma g o) sx = execVffma g o sx := rfl
theorem exec_vffms (g o) (sx : State) : exec (.vffms g o) sx = execVffms g o sx := rfl
theorem exec_vfmin (g o) (sx : State) : exec (.vfmin g o) sx = execVfmin g o sx := rfl
theorem exec_vfmax (g o) (sx : State) : exec (.vfmax g o) sx = execVfmax g o sx := rfl
theorem exec_vfabs (g o) (sx : State) : exec (.vfabs g o) sx = execVfabs g o sx := rfl
theorem exec_vfneg (g o) (sx : State) : exec (.vfneg g o) sx = execVfneg g o sx := rfl
theorem exec_vfdiv (g o) (sx : State) : exec (.vfdiv g o) sx = execVfdiv g o sx := rfl
theorem exec_vfsqrt (g o) (sx : State) : exec (.vfsqrt g o) sx = execVfsqrt g o sx := rfl
theorem exec_vfrcp (g o) (sx : State) : exec (.vfrcp g o) sx = execVfrcp g o sx := rfl
theorem exec_vfrsq (g o) (sx : State) : exec (.vfrsq g o) sx = execVfrsq g o sx := rfl
theorem exec_vfexp2 (g o) (sx : State) : exec (.vfexp2 g o) sx = execVfexp2 g o sx := rfl
theorem exec_vflog2 (g o) (sx : State) : exec (.vflog2 g o) sx = execVflog2 g o sx := rfl
theorem exec_vfscl (g o) (sx : State) : exec (.vfscl g o) sx = execVfscl g o sx := rfl
theorem exec_vcvt (g o) (sx : State) : exec (.vcvt g o) sx = execVcvt g o sx := rfl
theorem exec_vcvtsc (g o) (sx : State) : exec (.vcvtsc g o) sx = execVcvtsc g o sx := rfl
theorem exec_vperm (g o) (sx : State) : exec (.vperm g o) sx = execVperm g o sx := rfl
theorem exec_vbcast (g o) (sx : State) : exec (.vbcast g o) sx = execVbcast g o sx := rfl
theorem exec_vins (g o) (sx : State) : exec (.vins g o) sx = execVins g o sx := rfl
theorem exec_vext (g o) (sx : State) : exec (.vext g o) sx = execVext g o sx := rfl
theorem exec_vred (g o) (sx : State) : exec (.vred g o) sx = execVred g o sx := rfl
theorem exec_vscan (g o) (sx : State) : exec (.vscan g o) sx = execVscan g o sx := rfl
theorem exec_vcomp (g o) (sx : State) : exec (.vcomp g o) sx = execVcomp g o sx := rfl
theorem exec_vexpd (g o) (sx : State) : exec (.vexpd g o) sx = execVexpd g o sx := rfl
theorem exec_vslide (g o) (sx : State) : exec (.vslide g o) sx = execVslide g o sx := rfl
theorem exec_vcmpEq (g o) (sx : State) : exec (.vcmpEq g o) sx = execVcmpEq g o sx := rfl
theorem exec_vcmpNe (g o) (sx : State) : exec (.vcmpNe g o) sx = execVcmpNe g o sx := rfl
theorem exec_vcmpLt (g o) (sx : State) : exec (.vcmpLt g o) sx = execVcmpLt g o sx := rfl
theorem exec_vcmpGe (g o) (sx : State) : exec (.vcmpGe g o) sx = execVcmpGe g o sx := rfl
theorem exec_vcmpLe (g o) (sx : State) : exec (.vcmpLe g o) sx = execVcmpLe g o sx := rfl
theorem exec_vcmpGt (g o) (sx : State) : exec (.vcmpGt g o) sx = execVcmpGt g o sx := rfl
theorem exec_vcmpLtn (g o) (sx : State) : exec (.vcmpLtn g o) sx = execVcmpLtn g o sx := rfl
theorem exec_vcmpGen (g o) (sx : State) : exec (.vcmpGen g o) sx = execVcmpGen g o sx := rfl
theorem exec_vcmpLen (g o) (sx : State) : exec (.vcmpLen g o) sx = execVcmpLen g o sx := rfl
theorem exec_vcmpGtn (g o) (sx : State) : exec (.vcmpGtn g o) sx = execVcmpGtn g o sx := rfl
theorem exec_vcmpTst (g o) (sx : State) : exec (.vcmpTst g o) sx = execVcmpTst g o sx := rfl
theorem exec_vcmpNtst (g o) (sx : State) : exec (.vcmpNtst g o) sx = execVcmpNtst g o sx := rfl
theorem exec_vcmpFeq (g o) (sx : State) : exec (.vcmpFeq g o) sx = execVcmpFeq g o sx := rfl
theorem exec_vcmpFlt (g o) (sx : State) : exec (.vcmpFlt g o) sx = execVcmpFlt g o sx := rfl
theorem exec_vcmpFle (g o) (sx : State) : exec (.vcmpFle g o) sx = execVcmpFle g o sx := rfl
theorem exec_vcmpFun (g o) (sx : State) : exec (.vcmpFun g o) sx = execVcmpFun g o sx := rfl
theorem exec_vrand (g o) (sx : State) : exec (.vrand g o) sx = execVrand g o sx := rfl
theorem exec_vmov (g o) (sx : State) : exec (.vmov g o) sx = execVmov g o sx := rfl
theorem exec_vmovi (g o) (sx : State) : exec (.vmovi g o) sx = execVmovi g o sx := rfl
theorem exec_viota (g o) (sx : State) : exec (.viota g o) sx = execViota g o sx := rfl
theorem exec_kand (g o) (sx : State) : exec (.kand g o) sx = execKand g o sx := rfl
theorem exec_kor (g o) (sx : State) : exec (.kor g o) sx = execKor g o sx := rfl
theorem exec_kxor (g o) (sx : State) : exec (.kxor g o) sx = execKxor g o sx := rfl
theorem exec_knot (g o) (sx : State) : exec (.knot g o) sx = execKnot g o sx := rfl
theorem exec_ksetx (g o) (sx : State) : exec (.ksetx g o) sx = execKsetx g o sx := rfl
theorem exec_kgetx (g o) (sx : State) : exec (.kgetx g o) sx = execKgetx g o sx := rfl
theorem exec_kpop (g o) (sx : State) : exec (.kpop g o) sx = execKpop g o sx := rfl
theorem exec_vbdot (g o) (sx : State) : exec (.vbdot g o) sx = execVbdot g o sx := rfl
theorem exec_vbdots (g o) (sx : State) : exec (.vbdots g o) sx = execVbdots g o sx := rfl
theorem exec_storePerform (k h) (sx : State) : exec (.storePerform k h) sx = execStorePerform k h sx := rfl
theorem exec_loadPerform (k h ix r) (sx : State) : exec (.loadPerform k h ix r) sx = execLoadPerform k h ix r sx := rfl
theorem exec_atomicPerform (k h r) (sx : State) : exec (.atomicPerform k h r) sx = execAtomicPerform k h r sx := rfl
theorem exec_transferPerform (k h) (sx : State) : exec (.transferPerform k h) sx = execTransferPerform k h sx := rfl
theorem exec_tagItemPerform (k h) (sx : State) : exec (.tagItemPerform k h) sx = execTagItemPerform k h sx := rfl
theorem exec_barrierItemPerform (k x) (sx : State) : exec (.barrierItemPerform k x) sx = execBarrierItemPerform k x sx := rfl
theorem exec_copyCommandPerform (k h) (sx : State) : exec (.copyCommandPerform k h) sx = execCopyCommandPerform k h sx := rfl
theorem exec_ringItemPerform (k h r) (sx : State) : exec (.ringItemPerform k h r) sx = execRingItemPerform k h r sx := rfl
theorem exec_gate (k h) (sx : State) : exec (.gate k h) sx = execGate k h sx := rfl
theorem exec_uplink (cluster) (sx : State) : exec (.uplink cluster) sx = execUplink cluster sx := rfl
theorem exec_fabric (ix r) (sx : State) : exec (.fabric ix r) sx = execFabric ix r sx := rfl
theorem exec_fill (o p) (sx : State) : exec (.fill o p) sx = execFill o p sx := rfl
theorem exec_drop (o p) (sx : State) : exec (.drop o p) sx = execDrop o p sx := rfl
theorem exec_deliver (id l) (sx : State) : exec (.deliver id l) sx = execDeliver id l sx := rfl
theorem exec_waitEnd (k r) (sx : State) : exec (.waitEnd k r) sx = execWaitEnd k r sx := rfl
theorem exec_timedWaitExpiry (k) (sx : State) : exec (.timedWaitExpiry k) sx = execTimedWaitExpiry k sx := rfl
theorem exec_voteWindowExpiry (ix) (sx : State) : exec (.voteWindowExpiry ix) sx = execVoteWindowExpiry ix sx := rfl
theorem exec_voteBufferDiscard (ix) (sx : State) : exec (.voteBufferDiscard ix) sx = execVoteBufferDiscard ix sx := rfl
theorem exec_eventTaken (k) (sx : State) : exec (.eventTaken k) sx = execEventTaken k sx := rfl
theorem exec_deferredPoison (k) (sx : State) : exec (.deferredPoison k) sx = execDeferredPoison k sx := rfl
theorem exec_instructionFetchFault (k) (sx : State) : exec (.instructionFetchFault k) sx = execInstructionFetchFault k sx := rfl
theorem exec_pageWalkEnd (k f) (sx : State) : exec (.pageWalkEnd k f) sx = execPageWalkEnd k f sx := rfl
theorem exec_crewPlacement (launch spots) (sx : State) : exec (.crewPlacement launch spots) sx = execCrewPlacement launch spots sx := rfl
theorem exec_crewRetirement (crew) (sx : State) : exec (.crewRetirement crew) sx = execCrewRetirement crew sx := rfl
theorem exec_doneIncrement (launch r) (sx : State) : exec (.doneIncrement launch r) sx = execDoneIncrement launch r sx := rfl
theorem exec_waitCounterCheck (launch r) (sx : State) : exec (.waitCounterCheck launch r) sx = execWaitCounterCheck launch r sx := rfl
theorem exec_agingStep (launch) (sx : State) : exec (.agingStep launch) sx = execAgingStep launch sx := rfl
theorem exec_preempt (e) (sx : State) : exec (.preempt e) sx = execPreempt e sx := rfl
theorem exec_quantumExpiry (launch) (sx : State) : exec (.quantumExpiry launch) sx = execQuantumExpiry launch sx := rfl
theorem exec_crewRestore (launch spots) (sx : State) : exec (.crewRestore launch spots) sx = execCrewRestore launch spots sx := rfl
theorem exec_hang (crew slots) (sx : State) : exec (.hang crew slots) sx = execHang crew slots sx := rfl
theorem exec_resume (by_ p slot) (sx : State) : exec (.resume by_ p slot) sx = execResume by_ p slot sx := rfl
theorem exec_kill (by_ p slot) (sx : State) : exec (.kill by_ p slot) sx = execKill by_ p slot sx := rfl
theorem exec_teardown (by_ p) (sx : State) : exec (.teardown by_ p) sx = execTeardown by_ p sx := rfl
theorem exec_teardownDone (p) (sx : State) : exec (.teardownDone p) sx = execTeardownDone p sx := rfl
theorem exec_dmwrSubmission (o) (sx : State) : exec (.dmwrSubmission o) sx = execDmwrSubmission o sx := rfl
theorem exec_seqWrite (by_ q off bs) (sx : State) : exec (.seqWrite by_ q off bs) sx = execSeqWrite by_ q off bs sx := rfl
theorem exec_bar4Access (fn off op r) (sx : State) : exec (.bar4Access fn off op r) sx = execBar4Access fn off op r sx := rfl
theorem exec_wqcfgWrite (by_ q w) (sx : State) : exec (.wqcfgWrite by_ q w) sx = execWqcfgWrite by_ q w sx := rfl
theorem exec_pdcfgWrite (by_ p w) (sx : State) : exec (.pdcfgWrite by_ p w) sx = execPdcfgWrite by_ p w sx := rfl
theorem exec_registerWrite (by_ off w) (sx : State) : exec (.registerWrite by_ off w) sx = execRegisterWrite by_ off w sx := rfl
theorem exec_xlinv (by_ asid) (sx : State) : exec (.xlinv by_ asid) sx = execXlinv by_ asid sx := rfl
theorem exec_xlinvDone (sx : State) : exec (.xlinvDone) sx = execXlinvDone sx := rfl
theorem exec_assign (by_ c p) (sx : State) : exec (.assign by_ c p) sx = execAssign by_ c p sx := rfl
theorem exec_release (by_ c) (sx : State) : exec (.release by_ c) sx = execRelease by_ c sx := rfl
theorem exec_releaseEvictDone (c) (sx : State) : exec (.releaseEvictDone c) sx = execReleaseEvictDone c sx := rfl
theorem exec_releaseEngineTimeout (c) (sx : State) : exec (.releaseEngineTimeout c) sx = execReleaseEngineTimeout c sx := rfl
theorem exec_releaseDrainDone (c) (sx : State) : exec (.releaseDrainDone c) sx = execReleaseDrainDone c sx := rfl
theorem exec_mrbaseWrite (by_ r w) (sx : State) : exec (.mrbaseWrite by_ r w) sx = execMrbaseWrite by_ r w sx := rfl
theorem exec_wncfgWrite (by_ p n w) (sx : State) : exec (.wncfgWrite by_ p n w) sx = execWncfgWrite by_ p n w sx := rfl
theorem exec_cxdcfgWrite (by_ ix w) (sx : State) : exec (.cxdcfgWrite by_ ix w) sx = execCxdcfgWrite by_ ix w sx := rfl
theorem exec_linkTrained (p) (sx : State) : exec (.linkTrained p) sx = execLinkTrained p sx := rfl
theorem exec_packetReceived (port bs) (sx : State) : exec (.packetReceived port bs) sx = execPacketReceived port bs sx := rfl
theorem exec_packetCrcFail (p) (sx : State) : exec (.packetCrcFail p) sx = execPacketCrcFail p sx := rfl
theorem exec_linkRetrain (p laneFails) (sx : State) : exec (.linkRetrain p laneFails) sx = execLinkRetrain p laneFails sx := rfl
theorem exec_remoteTimeout (ix) (sx : State) : exec (.remoteTimeout ix) sx = execRemoteTimeout ix sx := rfl
theorem exec_cxlPortDown (p) (sx : State) : exec (.cxlPortDown p) sx = execCxlPortDown p sx := rfl
theorem exec_hpcfgWrite (by_ w) (sx : State) : exec (.hpcfgWrite by_ w) sx = execHpcfgWrite by_ w sx := rfl
theorem exec_hotPagePeriodEnd (sx : State) : exec (.hotPagePeriodEnd) sx = execHotPagePeriodEnd sx := rfl
theorem exec_atsTranslationCompletion (k a) (sx : State) : exec (.atsTranslationCompletion k a) sx = execAtsTranslationCompletion k a sx := rfl
theorem exec_pageRequestResponse (k a) (sx : State) : exec (.pageRequestResponse k a) sx = execPageRequestResponse k a sx := rfl
theorem exec_atsInvalidateRequest (pasid va size itag) (sx : State) : exec (.atsInvalidateRequest pasid va size itag) sx = execAtsInvalidateRequest pasid va size itag sx := rfl
theorem exec_invalidateCompletion (itag) (sx : State) : exec (.invalidateCompletion itag) sx = execInvalidateCompletion itag sx := rfl
theorem exec_hostAtomicopError (k h) (sx : State) : exec (.hostAtomicopError k h) sx = execHostAtomicopError k h sx := rfl
theorem exec_jobStart (engine slot) (sx : State) : exec (.jobStart engine slot) sx = execJobStart engine slot sx := rfl
theorem exec_elementOperation (engine slot n x) (sx : State) : exec (.elementOperation engine slot n x) sx = execElementOperation engine slot n x sx := rfl
theorem exec_completionAction (engine slot r) (sx : State) : exec (.completionAction engine slot r) sx = execCompletionAction engine slot r sx := rfl
theorem exec_rowstreamReservation (engine slot) (sx : State) : exec (.rowstreamReservation engine slot) sx = execRowstreamReservation engine slot sx := rfl
theorem exec_rowstreamIdleRelease (ix) (sx : State) : exec (.rowstreamIdleRelease ix) sx = execRowstreamIdleRelease ix sx := rfl
theorem exec_slotTableWrite (by_ d slice e w) (sx : State) : exec (.slotTableWrite by_ d slice e w) sx = execSlotTableWrite by_ d slice e w sx := rfl
theorem exec_ringEnable (ring) (sx : State) : exec (.ringEnable ring) sx = execRingEnable ring sx := rfl
theorem exec_ringDisable (ring) (sx : State) : exec (.ringDisable ring) sx = execRingDisable ring sx := rfl
theorem exec_ringFault (ring) (sx : State) : exec (.ringFault ring) sx = execRingFault ring sx := rfl
theorem exec_frameReceived (port bs) (sx : State) : exec (.frameReceived port bs) sx = execFrameReceived port bs sx := rfl
theorem exec_frameBufferDrop (port bs) (sx : State) : exec (.frameBufferDrop port bs) sx = execFrameBufferDrop port bs sx := rfl
theorem exec_sampleWrite (ring) (sx : State) : exec (.sampleWrite ring) sx = execSampleWrite ring sx := rfl
theorem exec_headDelivery (ring) (sx : State) : exec (.headDelivery ring) sx = execHeadDelivery ring sx := rfl
theorem exec_vacancyNotice (ring tileB) (sx : State) : exec (.vacancyNotice ring tileB) sx = execVacancyNotice ring tileB sx := rfl
theorem exec_claimClose (ring claim) (sx : State) : exec (.claimClose ring claim) sx = execClaimClose ring claim sx := rfl
theorem exec_keepCopySubmit (ring claim slot) (sx : State) : exec (.keepCopySubmit ring claim slot) sx = execKeepCopySubmit ring claim slot sx := rfl
theorem exec_keepCopyFault (engine slot) (sx : State) : exec (.keepCopyFault engine slot) sx = execKeepCopyFault engine slot sx := rfl
theorem exec_qreqRise (c) (sx : State) : exec (.qreqRise c) sx = execQreqRise c sx := rfl
theorem exec_qreqClear (c) (sx : State) : exec (.qreqClear c) sx = execQreqClear c sx := rfl
theorem exec_save (c) (sx : State) : exec (.save c) sx = execSave c sx := rfl
theorem exec_restore (c) (sx : State) : exec (.restore c) sx = execRestore c sx := rfl
theorem exec_clkenClear (c) (sx : State) : exec (.clkenClear c) sx = execClkenClear c sx := rfl
theorem exec_clkenSet (c) (sx : State) : exec (.clkenSet c) sx = execClkenSet c sx := rfl
theorem exec_railOff (c) (sx : State) : exec (.railOff c) sx = execRailOff c sx := rfl
theorem exec_railOn (c) (sx : State) : exec (.railOn c) sx = execRailOn c sx := rfl
theorem exec_wake (by_ c) (sx : State) : exec (.wake by_ c) sx = execWake by_ c sx := rfl
theorem exec_wakeClr (by_ c) (sx : State) : exec (.wakeClr by_ c) sx = execWakeClr by_ c sx := rfl
theorem exec_quiesceDrainComplete (c) (sx : State) : exec (.quiesceDrainComplete c) sx = execQuiesceDrainComplete c sx := rfl
theorem exec_quiesceJobLimit (c slot) (sx : State) : exec (.quiesceJobLimit c slot) sx = execQuiesceJobLimit c slot sx := rfl
theorem exec_saveDone (c) (sx : State) : exec (.saveDone c) sx = execSaveDone c sx := rfl
theorem exec_restoreDone (c) (sx : State) : exec (.restoreDone c) sx = execRestoreDone c sx := rfl
theorem exec_powerGood (c) (sx : State) : exec (.powerGood c) sx = execPowerGood c sx := rfl
theorem exec_rampTimeout (c) (sx : State) : exec (.rampTimeout c) sx = execRampTimeout c sx := rfl
theorem exec_initDone (c) (sx : State) : exec (.initDone c) sx = execInitDone c sx := rfl
theorem exec_railFault (c) (sx : State) : exec (.railFault c) sx = execRailFault c sx := rfl
theorem exec_controlFault (site) (sx : State) : exec (.controlFault site) sx = execControlFault site sx := rfl
theorem exec_errcfgWrite (by_ w) (sx : State) : exec (.errcfgWrite by_ w) sx = execErrcfgWrite by_ w sx := rfl
theorem exec_mapoutGo (by_ d range) (sx : State) : exec (.mapoutGo by_ d range) sx = execMapoutGo by_ d range sx := rfl
theorem exec_vacated (by_ d) (sx : State) : exec (.vacated by_ d) sx = execVacated by_ d sx := rfl
theorem exec_mapoutSwitch (d) (sx : State) : exec (.mapoutSwitch d) sx = execMapoutSwitch d sx := rfl
theorem exec_patrolScrub (d a last r) (sx : State) : exec (.patrolScrub d a last r) sx = execPatrolScrub d a last r sx := rfl
theorem exec_powerUp (sx : State) : exec (.powerUp) sx = execPowerUp sx := rfl
theorem exec_bringupStepDone (p ok) (sx : State) : exec (.bringupStepDone p ok) sx = execBringupStepDone p ok sx := rfl
theorem exec_getVersion (req) (sx : State) : exec (.getVersion req) sx = execGetVersion req sx := rfl
theorem exec_getCapabilities (req) (sx : State) : exec (.getCapabilities req) sx = execGetCapabilities req sx := rfl
theorem exec_negotiateAlgorithms (req) (sx : State) : exec (.negotiateAlgorithms req) sx = execNegotiateAlgorithms req sx := rfl
theorem exec_getDigests (req) (sx : State) : exec (.getDigests req) sx = execGetDigests req sx := rfl
theorem exec_getCertificate (req) (sx : State) : exec (.getCertificate req) sx = execGetCertificate req sx := rfl
theorem exec_challenge (req) (sx : State) : exec (.challenge req) sx = execChallenge req sx := rfl
theorem exec_getMeasurements (req) (sx : State) : exec (.getMeasurements req) sx = execGetMeasurements req sx := rfl
theorem exec_powerSample (watts tmax) (sx : State) : exec (.powerSample watts tmax) sx = execPowerSample watts tmax sx := rfl
theorem exec_thermalShutdown (sx : State) : exec (.thermalShutdown) sx = execThermalShutdown sx := rfl
theorem exec_matrixInstructionComplete (core) (sx : State) : exec (.matrixInstructionComplete core) sx = execMatrixInstructionComplete core sx := rfl
theorem exec_controllerEvaluation (c) (sx : State) : exec (.controllerEvaluation c) sx = execControllerEvaluation c sx := rfl
theorem exec_weltReplay (d e fails) (sx : State) : exec (.weltReplay d e fails) sx = execWeltReplay d e fails sx := rfl
theorem exec_cxlPortUp (p) (sx : State) : exec (.cxlPortUp p) sx = execCxlPortUp p sx := rfl
theorem exec_dieRailFault (p) (sx : State) : exec (.dieRailFault p) sx = execDieRailFault p sx := rfl

end Sys2Proof.Machine
end

