-- ==== Sys2Proof/Laws/Mem.lean ====
section
/-!
SUPPORT. Laws/Mem.lean: memory reads what was last written to it, a write leaves every other byte alone, and every
memory operation keeps the canonical form.
-/

namespace Sys2Proof.Machine

/-! ### Cells -/

/-- Every address of the cells is above `a`. -/
def cellsAbove (a : Nat) (cs : List Host.Cell) : Prop := ∀ c ∈ cs, a < c.1

theorem cellsWf_cons (c : Host.Cell) (cs : List Host.Cell) :
    cellsWf (c :: cs) = true ↔ c.2 ≠ Mem.unlisted ∧ cellsAbove c.1 cs ∧ cellsWf cs = true := by
  induction cs generalizing c with
  | nil => simp [cellsWf, cellsAbove]
  | cons d ds ih =>
    simp only [cellsWf, Bool.and_eq_true, bne_iff_ne, decide_eq_true_eq, cellsAbove, List.mem_cons,
      forall_eq_or_imp]
    constructor
    · rintro ⟨⟨h, hd⟩, hw⟩
      have := ((ih d).1 hw).2.1
      exact ⟨h, ⟨hd, fun x hx => hd.trans (this x hx)⟩, hw⟩
    · rintro ⟨h, ⟨hd, _⟩, hw⟩
      exact ⟨⟨h, hd⟩, hw⟩

theorem cellsWrite_mem (a : Nat) (b : Byte) (cs : List Host.Cell) :
    ∀ c ∈ cellsWrite a b cs, c ∈ cs ∨ c = (a, b) := by
  induction cs with
  | nil => intro c; unfold cellsWrite; split <;> simp_all
  | cons d ds ih =>
    intro c
    unfold cellsWrite
    split
    · split <;> simp_all
      tauto
    · split
      · split <;> simp_all
        tauto
      · simp only [List.mem_cons]
        rintro (h | h)
        · exact .inl (.inl h)
        · exact (ih c h).imp .inr id

theorem cellsWrite_wf (a : Nat) (b : Byte) (cs : List Host.Cell) (h : cellsWf cs = true) :
    cellsWf (cellsWrite a b cs) = true := by
  induction cs with
  | nil => unfold cellsWrite; split <;> simp_all [cellsWf]
  | cons d ds ih =>
    have hd := (cellsWf_cons d ds).1 h
    unfold cellsWrite
    split
    · rename_i hlt
      split
      · exact h
      · rename_i hb
        refine (cellsWf_cons _ _).2 ⟨hb, ?_, h⟩
        intro c hc
        rcases List.mem_cons.1 hc with rfl | hc
        · exact hlt
        · exact hlt.trans (hd.2.1 c hc)
    · split
      · rename_i he
        split
        · exact hd.2.2
        · rename_i hb
          exact (cellsWf_cons _ _).2 ⟨hb, he ▸ hd.2.1, hd.2.2⟩
      · rename_i hlt hne
        refine (cellsWf_cons _ _).2 ⟨hd.1, ?_, ih hd.2.2⟩
        intro c hc
        rcases cellsWrite_mem a b ds c hc with hc | rfl
        · exact hd.2.1 c hc
        · simp only; omega

theorem cellsRead_above (a : Nat) (cs : List Host.Cell) (h : cellsAbove a cs) : cellsRead a cs = Mem.unlisted := by
  induction cs with
  | nil => rfl
  | cons d ds ih =>
    have := h d (by simp)
    unfold cellsRead
    rw [if_neg (by omega)]
    exact ih fun c hc => h c (by simp [hc])

theorem cellsRead_write_same (a : Nat) (b : Byte) (cs : List Host.Cell) (h : cellsWf cs = true) :
    cellsRead a (cellsWrite a b cs) = b := by
  induction cs with
  | nil => unfold cellsWrite; split <;> simp_all [cellsRead]
  | cons d ds ih =>
    have hd := (cellsWf_cons d ds).1 h
    unfold cellsWrite
    split
    · rename_i hlt
      split
      · rename_i hb
        refine hb ▸ cellsRead_above a _ fun c hc => ?_
        rcases List.mem_cons.1 hc with rfl | hc
        · exact hlt
        · exact hlt.trans (hd.2.1 c hc)
      · simp [cellsRead]
    · split
      · rename_i he
        split
        · rename_i hb
          exact hb ▸ cellsRead_above a _ (he ▸ hd.2.1)
        · simp [cellsRead]
      · rename_i hne
        unfold cellsRead
        rw [if_neg (Ne.symm hne)]
        exact ih hd.2.2

theorem cellsRead_write_other (a c : Nat) (b : Byte) (cs : List Host.Cell) (hc : c ≠ a) :
    cellsRead c (cellsWrite a b cs) = cellsRead c cs := by
  induction cs with
  | nil => unfold cellsWrite; split <;> simp [cellsRead, Ne.symm hc]
  | cons d ds ih =>
    unfold cellsWrite
    split
    · split <;> simp [cellsRead, Ne.symm hc]
    · split
      · rename_i he
        split <;> simp [cellsRead, Ne.symm hc, ← he]
      · simp only [cellsRead, ih]

theorem cellsWf_filter (p : Host.Cell → Bool) (cs : List Host.Cell) (h : cellsWf cs = true) :
    cellsWf (cs.filter p) = true := by
  induction cs with
  | nil => rfl
  | cons d ds ih =>
    have hd := (cellsWf_cons d ds).1 h
    simp only [List.filter_cons]
    split
    · exact (cellsWf_cons _ _).2 ⟨hd.1, fun c hc => hd.2.1 c (List.mem_filter.1 hc).1, ih hd.2.2⟩
    · exact ih hd.2.2

/-! ### Rising lists of numbers -/

theorem natsWf_cons (n : Nat) (ns : List Nat) : natsWf (n :: ns) = true ↔ (∀ m ∈ ns, n < m) ∧ natsWf ns = true := by
  induction ns generalizing n with
  | nil => simp [natsWf]
  | cons d ds ih =>
    simp only [natsWf, Bool.and_eq_true, decide_eq_true_eq, List.mem_cons, forall_eq_or_imp]
    constructor
    · rintro ⟨hd, hw⟩
      exact ⟨⟨hd, fun x hx => hd.trans (((ih d).1 hw).1 x hx)⟩, hw⟩
    · rintro ⟨⟨hd, _⟩, hw⟩
      exact ⟨hd, hw⟩

theorem natsInsert_mem (n : Nat) (ns : List Nat) : ∀ m, m ∈ natsInsert n ns ↔ m = n ∨ m ∈ ns := by
  induction ns with
  | nil => simp [natsInsert]
  | cons d ds ih =>
    intro m
    unfold natsInsert
    split
    · simp
    · split
      · simp_all
      · simp only [List.mem_cons, ih]
        tauto

theorem natsInsert_wf (n : Nat) (ns : List Nat) (h : natsWf ns = true) : natsWf (natsInsert n ns) = true := by
  induction ns with
  | nil => rfl
  | cons d ds ih =>
    have hd := (natsWf_cons d ds).1 h
    unfold natsInsert
    split
    · rename_i hlt
      refine (natsWf_cons _ _).2 ⟨fun m hm => ?_, h⟩
      rcases List.mem_cons.1 hm with rfl | hm
      · exact hlt
      · exact hlt.trans (hd.1 m hm)
    · split
      · rename_i he
        exact he ▸ h
      · refine (natsWf_cons _ _).2 ⟨fun m hm => ?_, ih hd.2⟩
        rcases (natsInsert_mem n ds m).1 hm with rfl | hm
        · omega
        · exact hd.1 m hm

theorem natsWf_filter (p : Nat → Bool) (ns : List Nat) (h : natsWf ns = true) : natsWf (ns.filter p) = true := by
  induction ns with
  | nil => rfl
  | cons d ds ih =>
    have hd := (natsWf_cons d ds).1 h
    simp only [List.filter_cons]
    split
    · exact (natsWf_cons _ _).2 ⟨fun c hc => hd.1 c (List.mem_filter.1 hc).1, ih hd.2⟩
    · exact ih hd.2

/-! ### Memory -/

theorem Mem.wf_iff (m : Mem) : m.wf = true ↔ cellsWf m.cells = true ∧ natsWf m.poison = true := by
  simp [Mem.wf]

@[simp] theorem Mem.empty_wf : Mem.empty.wf = true := rfl

theorem Mem.write_wf {m : Mem} (a : Nat) (b : Byte) (h : m.wf = true) : (m.write a b).wf = true := by
  rw [Mem.wf_iff] at *
  exact ⟨cellsWrite_wf a b _ h.1, h.2⟩

theorem Mem.read_write_same {m : Mem} (a : Nat) (b : Byte) (h : m.wf = true) : (m.write a b).read a = b :=
  cellsRead_write_same a b _ ((Mem.wf_iff m).1 h).1

theorem Mem.read_write_other (m : Mem) (a c : Nat) (b : Byte) (hc : c ≠ a) : (m.write a b).read c = m.read c :=
  cellsRead_write_other a c b _ hc

theorem Mem.writeBytes_wf {m : Mem} (a : Nat) (bs : List Byte) (h : m.wf = true) : (m.writeBytes a bs).wf = true := by
  induction bs generalizing m a with
  | nil => exact h
  | cons b bs ih => exact ih (a + 1) (Mem.write_wf a b h)

theorem Mem.read_writeBytes_other (m : Mem) (a c : Nat) (bs : List Byte) (hc : c < a ∨ a + bs.length ≤ c) :
    (m.writeBytes a bs).read c = m.read c := by
  induction bs generalizing m a with
  | nil => rfl
  | cons b bs ih =>
    simp only [List.length_cons] at hc
    rw [Mem.writeBytes, ih _ _ (by omega), Mem.read_write_other _ _ _ _ (by omega)]

theorem Mem.read_writeBytes_same {m : Mem} (a i : Nat) (bs : List Byte) (h : m.wf = true) (hi : i < bs.length) :
    (m.writeBytes a bs).read (a + i) = bs[i] := by
  induction bs generalizing m a i with
  | nil => simp at hi
  | cons b bs ih =>
    cases i with
    | zero =>
      rw [Mem.writeBytes, Mem.read_writeBytes_other _ _ _ _ (by omega), Nat.add_zero, Mem.read_write_same _ _ h]
      rfl
    | succ i =>
      have := ih (a + 1) i (Mem.write_wf a b h) (by simpa using hi)
      rw [Mem.writeBytes, show a + (i + 1) = a + 1 + i by omega, this]
      rfl

theorem Mem.setPoison_wf {m : Mem} (w : Nat) (p : Bool) (h : m.wf = true) : (m.setPoison w p).wf = true := by
  rw [Mem.wf_iff] at *
  unfold Mem.setPoison
  cases p
  · exact ⟨h.1, natsWf_filter _ _ h.2⟩
  · exact ⟨h.1, natsInsert_wf _ _ h.2⟩

@[simp] theorem Mem.setPoison_read (m : Mem) (w a : Nat) (p : Bool) : (m.setPoison w p).read a = m.read a := rfl

/-- What every step of a fold keeps, the fold keeps. -/
theorem foldl_keeps {α β : Type} (P : β → Prop) (f : β → α → β) (hf : ∀ b a, P b → P (f b a)) (b : β) (as : List α)
    (h : P b) : P (as.foldl f b) := by
  induction as generalizing b with
  | nil => exact h
  | cons a as ih => exact ih _ (hf b a h)

theorem Mem.mergePoison_wf {m : Mem} (a n : Nat) (p : Bool) (h : m.wf = true) : (m.mergePoison a n p).wf = true := by
  refine foldl_keeps (fun m : Mem => m.wf = true) _ (fun m i hm => ?_) m _ h
  simp only
  split
  · exact Mem.setPoison_wf _ _ hm
  · split
    · exact Mem.setPoison_wf _ _ hm
    · exact hm

@[simp] theorem Mem.mergePoison_read (m : Mem) (a n c : Nat) (p : Bool) : (m.mergePoison a n p).read c = m.read c := by
  refine foldl_keeps (fun x : Mem => x.read c = m.read c) _ (fun x i hx => ?_) m _ rfl
  simp only
  split
  · exact hx
  · split
    · exact hx
    · exact hx

theorem Mem.store_wf {m : Mem} (a : Nat) (bs : List Byte) (p : Bool) (h : m.wf = true) : (m.store a bs p).wf = true :=
  Mem.mergePoison_wf _ _ _ (Mem.writeBytes_wf _ _ h)

/-- A store leaves every byte outside its own alone. -/
theorem Mem.read_store_other (m : Mem) (a c : Nat) (bs : List Byte) (p : Bool) (hc : c < a ∨ a + bs.length ≤ c) :
    (m.store a bs p).read c = m.read c := by
  rw [Mem.store, Mem.mergePoison_read, Mem.read_writeBytes_other _ _ _ _ hc]

/-- A store's bytes read back. -/
theorem Mem.read_store_same {m : Mem} (a i : Nat) (bs : List Byte) (p : Bool) (h : m.wf = true) (hi : i < bs.length) :
    (m.store a bs p).read (a + i) = bs[i] := by
  rw [Mem.store, Mem.mergePoison_read, Mem.read_writeBytes_same _ _ _ h hi]

theorem Mem.zero_wf {m : Mem} (a n : Nat) (h : m.wf = true) : (m.zero a n).wf = true := by
  rw [Mem.wf_iff] at *
  exact ⟨cellsWf_filter _ _ h.1, natsWf_filter _ _ h.2⟩

theorem cellsRead_filter (p : Nat → Bool) (a : Nat) (cs : List Host.Cell) :
    cellsRead a (cs.filter fun c => p c.1) = if p a then cellsRead a cs else Mem.unlisted := by
  induction cs with
  | nil => simp [cellsRead]
  | cons d ds ih =>
    simp only [List.filter_cons]
    by_cases hd : d.1 = a
    · subst hd
      by_cases hp : p d.1 = true <;> simp_all [cellsRead]
    · by_cases hp : p d.1 = true <;> simp_all [cellsRead]

/-- A cleared range reads 0, and every other byte is as it was. -/
theorem Mem.read_zero (m : Mem) (a n c : Nat) :
    (m.zero a n).read c = if c < a ∨ a + n ≤ c then m.read c else Mem.unlisted := by
  rw [Mem.read, Mem.zero, cellsRead_filter fun x => decide (x < a) || decide (a + n ≤ x)]
  simp [Mem.read]

/-! ### Maps -/

theorem mapGet_mapSet_other {α : Type} [DecidableEq α] (d : α) (k l : Nat) (v : α) (m : List (Nat × α)) (hl : l ≠ k) :
    mapGet d l (mapSet d k v m) = mapGet d l m := by
  induction m with
  | nil => unfold mapSet; split <;> simp [mapGet, Ne.symm hl]
  | cons e es ih =>
    unfold mapSet
    split
    · split <;> simp [mapGet, Ne.symm hl]
    · split
      · rename_i he
        split <;> simp [mapGet, Ne.symm hl, ← he]
      · simp only [mapGet, ih]

end Sys2Proof.Machine
end

