-- ==== Sys2Proof/Laws/Shapes.lean ====
section
/-!
SUPPORT. Laws/Shapes.lean: what the shared shapes of instruction (xResult and its kin, fResult, cmpOp, vResult) come
to when nothing is pending.
-/

namespace Sys2Proof.Machine

theorem any_xPois (s : State) (l : List XReg) : l.any s.countIssue.xPois = l.any s.xPois := by
  congr 1
  funext r
  exact State.countIssue_xPois s r

theorem xResult_done {i : Instr} {s : State} {g : Guard} {d : XReg} {srcs : List XReg} {f : State → Word} {w : Word} {p : Bool}
    (he : exec i s = xResult g d srcs f s) (hr : s.cleared g (d :: srcs) []) (hw : f s.countIssue = w)
    (hp : srcs.any s.xPois = p) : XDone i s 8 d w p 0 := by
  apply XDone.of'
  rw [he, xResult, frame_ready _ hr.1 hr.2, hw, ← hp]
  rw [any_xPois]
  rfl

theorem alu3w_done {mk : Guard → X3w → Instr} {f : (n : Nat) → BitVec n → BitVec n → BitVec n} (f64 : Word → Word → Word)
   (f32 : Lane → Lane → Lane) (he : ∀ g o s, exec (mk g o) s = alu3w g o f64 f32 s) (h64 : ∀ a b, f64 a b = f 64 a b)
   (h32 : ∀ a b, f32 a b = f 32 a b) : Alu3w mk f := by
  intro s g o hr
  refine xResult_done (he g o s) hr ?_ (by simp)
  simp only [State.countIssue_xr, h64, h32]
  rfl

theorem aluIw_done {mk : Guard → XIw → Instr} {f : (n : Nat) → BitVec n → BitVec n → BitVec n} (f64 : Word → Word → Word)
   (f32 : Lane → Lane → Lane) (he : ∀ g o s, exec (mk g o) s = aluIw g o f64 f32 s) (h64 : ∀ a b, f64 a b = f 64 a b)
   (h32 : ∀ a b, f32 a b = f 32 a b) : AluIw mk f := by
  intro s g o hr
  refine xResult_done (he g o s) hr ?_ (by simp)
  have e : low32 (imm22 o.imm) = o.imm.signExtend 32 := by
    unfold low32 imm22; ext i hi; simp [BitVec.getElem_signExtend, BitVec.getLsbD_signExtend]; by_cases h : i < 22 <;> simp [h] <;> omega
  simp only [State.countIssue_xr, h64, h32, e]
  rfl

theorem alu3_done {mk : Guard → X3 → Instr} {f : Word → Word → Word} (f64 : Word → Word → Word)
   (he : ∀ g o s, exec (mk g o) s = alu3 g o f64 s) (h64 : ∀ a b, f64 a b = f a b) : Alu3 mk f := by
  intro s g o hr
  refine xResult_done (he g o s) hr ?_ (by simp)
  simp only [State.countIssue_xr, h64]

theorem aluI_done {mk : Guard → XI → Instr} {f : Word → Word → Word} (f64 : Word → Word → Word)
   (he : ∀ g o s, exec (mk g o) s = aluI g o f64 s) (h64 : ∀ a b, f64 a b = f a b) : AluI mk f := by
  intro s g o hr
  refine xResult_done (he g o s) hr ?_ (by simp)
  simp only [State.countIssue_xr, h64]; rfl

theorem alu2w_done {mk : Guard → X2w → Instr} {f : (n : Nat) → BitVec n → BitVec n → Prop} (f64 : Word → Word)
   (f32 : Lane → Lane) (he : ∀ g o s, exec (mk g o) s = alu2w g o f64 f32 s) (h64 : ∀ a r, f 64 a r → f64 a = r)
   (h32 : ∀ a r, f 32 a r → f32 a = r) : Alu2w mk f := by
  intro s g o hr
  constructor
  · intro hw r h
    refine xResult_done (he g o s) hr ?_ (by simp)
    simp only [State.countIssue_xr, hw, if_true]
    rw [← h32 _ _ h]; rfl
  · intro hw r h
    refine xResult_done (he g o s) hr ?_ (by simp)
    simp only [State.countIssue_xr, hw]
    rw [← h64 _ _ h]; rfl

/-- What a function of the machine that reads neither ISSUED nor the count's mark says is the same after the count. -/
theorem countIssue_inv {α : Sort _} (F : State → α)
    (h : ∀ (s : State) n b, F { s with me := { s.me with issued := n, counted := b } } = F s) (s : State) :
    F s.countIssue = F s := by
  have : s.countIssue = { s with me := { s.me with issued := s.countIssue.me.issued, counted := s.countIssue.me.counted } } := by
    conv_lhs => rw [State.countIssue, State.onMe]
    rw [State.countIssue_me]
    split <;> rfl
  rw [this]; exact h s _ _

/-! ### Floating point -/

theorem State.countIssue_fr (s : State) (w : FWidth) (r : XReg) : s.countIssue.fr w r = s.fr w r := by
  simp only [State.fr, State.countIssue_xr]

theorem fResult_done {i : Instr} {s : State} {g : Guard} {d : XReg} {srcs : List XReg} {f : State → Rounded}
    {r : Rounded} {p : Bool} (he : exec i s = fResult g d srcs f s) (hr : s.cleared g (d :: srcs) [])
    (hf : f s.countIssue = r) (hp : srcs.any s.xPois = p) : XDone i s 8 d (.ofNat 64 r.code) p r.flags := by
  apply XDone.of
  rw [he, fResult, frame_ready _ hr.1 hr.2, ← hf, ← hp, any_xPois]
  rfl

theorem fop3_done {mk : Guard → F3 → Instr} {f : Fmt → RMode → Nat → Nat → Rounded}
    (he : ∀ g o s, exec (mk g o) s = fop3 g o f s) : Fop3 mk f := by
  intro s g o hr
  refine fResult_done (he g o s) hr ?_ (by simp)
  simp only [State.countIssue_fr, State.countIssue_mode]

end Sys2Proof.Machine
end

