-- ==== Sys2Proof/Tests/Slice0.lean ====
section
/-!
SUPPORT. Slice0.lean: words written out from the encodings of the spec, ill-formed terms, a few worked examples, and a
state and operands that meet the hypotheses of each claim.
-/

namespace Sys2Proof.Tests

open Sys2Proof.Machine

/-! ### Small states -/

/-- A package in service with one strand, at program level on core 0, device memory mapped onto itself. -/
def base : State := State.reset.withFetchWord 64 1

def g0 : Guard := ⟨false, 0⟩
def g5 : Guard := ⟨true, 5⟩

def withX (s : State) (r : XReg) (w : Word) (p : Bool) : State := s.onMe fun t => t.setX r w p

def supervisor : State := base.onMe fun t => { t with level := .supervisor }

/-- `base` with x6 poisoned and x7 = 4. -/
def poisoned : State := withX (withX base 6 0x10 true) 7 4 false

def md0 : Md := ⟨.plain, .die, 2⟩

/-- Word `w` of `n` bits decodes to `i`. -/
def Reads (n w : Nat) (i : Instr) : Prop := decodeTableWord n w = some i

/-! ### Ill-formed terms, one for each check of WellFormed.lean -/

theorem test_wf_guard : (Instr.nop ⟨true, 0⟩).wf = false := by decide
theorem test_wf_destination : (Instr.cmpEq g0 ⟨0, 1, 2, .set, false⟩).wf = false := by decide
theorem test_wf_mask_destination : (Instr.kand g0 ⟨0, 1, 2⟩).wf = false := by decide
theorem test_wf_store_order : (Instr.st g0 ⟨1, 2, 3, 0, .s64, ⟨.acquire, .die, 0⟩⟩).wf = false := by decide
theorem test_wf_load_order : (Instr.ld g0 ⟨1, 2, 3, 0, .s64, false, .plain, ⟨.release, .die, 0⟩⟩).wf = false := by decide
theorem test_wf_load_sign : (Instr.ld g0 ⟨1, 2, 3, 0, .s64, true, .plain, ⟨.plain, .die, 0⟩⟩).wf = false := by decide
theorem test_wf_local_load_sign : (Instr.tld g0 ⟨1, 2, 3, 0, .s64, true, ⟨.plain, .die, 0⟩⟩).wf = false := by decide
theorem test_wf_vector_order : (Instr.vld g0 ⟨1, 2, 3, 0, 0, ⟨.acqRel, .die, 0⟩⟩).wf = false := by decide
theorem test_wf_length : (Instr.iopiBfx g0 ⟨1, 2, 0, 65⟩).wf = false := by decide
theorem test_wf_widening : (Instr.fcvtw g0 ⟨1, 2, .f64, .rtz⟩).wf = false := by decide
theorem test_wf_tile_types : (Instr.mma g0 ⟨1, .e4m3, .i8, 0, 1⟩).wf = false := by decide
theorem test_wf_scaled_types : (Instr.mmas g0 ⟨1, .i8, .i8, .e8m0, 0, 1, 2⟩).wf = false := by decide
theorem test_wf_zst_types : (Instr.zst g0 ⟨1, 2, .i8, .f32, .rne, false, 0⟩).wf = false := by decide
theorem test_wf_zst_sat : (Instr.zst g0 ⟨1, 2, .f32, .f32, .rne, true, 0⟩).wf = false := by decide
theorem test_wf_zst_column : (Instr.zst g0 ⟨1, 2, .f32, .f32, .rne, false, 1⟩).wf = false := by decide
theorem test_wf_zsts_types : (Instr.zsts g0 ⟨1, 1, 2, 3, .i16, .rne, false, 0⟩).wf = false := by decide
theorem test_wf_zsts_sat : (Instr.zsts g0 ⟨1, 1, 2, 3, .e4m3, .rne, true, 0⟩).wf = false := by decide
theorem test_wf_zsts_column : (Instr.zsts g0 ⟨1, 1, 2, 3, .e4m3, .rne, false, 4⟩).wf = false := by decide
theorem test_wf_zbias : (Instr.zbias g0 ⟨1, 2, .n32, .rne⟩).wf = false := by decide
theorem test_wf_zbias_rounding : (Instr.zbias g0 ⟨1, 2, .i32, .dyn⟩).wf = false := by decide
theorem test_wf_send_length : (Instr.tsend g0 ⟨1, 2, 6, ⟨.plain, .cluster, 0⟩⟩).wf = false := by decide
theorem test_wf_send_order : (Instr.tsend g0 ⟨1, 2, 8, ⟨.acquire, .cluster, 0⟩⟩).wf = false := by decide
theorem test_wf_count : (Instr.tarm g0 ⟨.imm 1, 0, 0⟩).wf = false := by decide
theorem test_wf_samples : (Instr.rgread g0 ⟨1, 2, 3, 4, 0, .package⟩).wf = false := by decide
theorem test_wf_pair : (Instr.trgfwd g0 ⟨1, 3, 4, ⟨.plain, .package, 0⟩⟩).wf = false := by decide
theorem test_wf_pair_rejected : (Instr.trgrej g0 ⟨3, 4, ⟨.plain, .package, 0⟩⟩).wf = false := by decide
theorem test_wf_pair_destination : (Instr.trgnext g0 ⟨0, 4, .package⟩).wf = false := by decide
theorem test_wf_reduction : (Instr.vred g0 ⟨1, 2, 0, .max, .f32, .rtz⟩).wf = false := by decide
theorem test_wf_conversion_sat : (Instr.vcvt g0 ⟨1, 2, 0, .f32, .f16, .fixed .rne, true, 0, 0⟩).wf = false := by decide
theorem test_wf_conversion_part : (Instr.vcvt g0 ⟨1, 2, 0, .f32, .f16, .fixed .rne, false, 2, 0⟩).wf = false := by decide
theorem test_wf_signed : (Instr.vabs g0 ⟨1, 2, 0, .n8⟩).wf = false := by decide
theorem test_wf_bytes : (Instr.vdot4 g0 ⟨1, 2, 3, 0, .i16⟩).wf = false := by decide
theorem test_wf_good : (Instr.vdot4 g0 ⟨1, 2, 3, 0, .n8⟩).wf = true := by decide

/-! ### Words of every row of the opcode tables, field by field -/

theorem test_decode_sys :
    Reads 64 0x0000000340000001 (.nop g5) ∧
    Reads 64 0xBEEF000740000001 (.trap g5 ⟨0xBEEF⟩) ∧
    Reads 64 0x0000000B40000001 (.brk g5) ∧
    Reads 64 0x0000000F40000001 (.eret g5) ∧
    Reads 64 0x0021001340000241 (.srd g5 ⟨9, 0x21⟩) ∧
    Reads 64 0x010100174000A001 (.swr g5 ⟨10, 0x101⟩) ∧
    Reads 64 0x0000101B40000001 (.fence g5 ⟨.cluster⟩) ∧
    Reads 64 0x0000101F402CA001 (.fencer g5 ⟨10, 11, .cluster⟩) ∧
    Reads 64 0x000000234000A001 (.chk g5 ⟨10⟩) ∧
    Reads 64 0x0000002746011001 (.chkv g5 ⟨17, 6⟩) ∧
    Reads 64 0x0000002B40000001 (.roinv g5) ∧
    Reads 64 0x0001002F402CA001 (.tlbi g5 ⟨10, 11, .space⟩) ∧
    Reads 64 0x000000334000A001 (.waiti g5 ⟨10⟩) := by unfold Reads; decide

theorem test_decode_jmp :
    Reads 64 0xAAF3784B40000002 (.jmp g5 ⟨0x2ABCDE12⟩) := by unfold Reads; decide

theorem test_decode_call :
    Reads 64 0xAAF3784B40000243 (.call g5 ⟨9, 0x2ABCDE12⟩) := by unfold Reads; decide

theorem test_decode_jreg :
    Reads 64 0x000000034000A004 (.jr g5 ⟨10⟩) ∧
    Reads 64 0x000000074000A244 (.callr g5 ⟨9, 10⟩) ∧
    Reads 64 0x0000000B4000A004 (.ret g5 ⟨10⟩) := by unfold Reads; decide

theorem test_decode_movl :
    Reads 128 0x0123456789ABCDEF0000000340000246 (.movl g5 ⟨9, 0x0123456789ABCDEF⟩) := by unfold Reads; decide

theorem test_decode_iop :
    Reads 64 0x00000103402CA248 (.add g5 ⟨9, 10, 11, true⟩) ∧
    Reads 64 0x00000107402CA248 (.sub g5 ⟨9, 10, 11, true⟩) ∧
    Reads 64 0x0000000B402CA248 (.and g5 ⟨9, 10, 11⟩) ∧
    Reads 64 0x0000000F402CA248 (.or g5 ⟨9, 10, 11⟩) ∧
    Reads 64 0x00000013402CA248 (.xor g5 ⟨9, 10, 11⟩) ∧
    Reads 64 0x00000017402CA248 (.andn g5 ⟨9, 10, 11⟩) ∧
    Reads 64 0x0000001B402CA248 (.orn g5 ⟨9, 10, 11⟩) ∧
    Reads 64 0x0000011F402CA248 (.shl g5 ⟨9, 10, 11, true⟩) ∧
    Reads 64 0x00000123402CA248 (.shr g5 ⟨9, 10, 11, true⟩) ∧
    Reads 64 0x00000127402CA248 (.sar g5 ⟨9, 10, 11, true⟩) ∧
    Reads 64 0x0000012B402CA248 (.rol g5 ⟨9, 10, 11, true⟩) ∧
    Reads 64 0x0000012F402CA248 (.ror g5 ⟨9, 10, 11, true⟩) ∧
    Reads 64 0x00000133402CA248 (.mul g5 ⟨9, 10, 11, true⟩) ∧
    Reads 64 0x00000137402CA248 (.mulh g5 ⟨9, 10, 11, true⟩) ∧
    Reads 64 0x0000013B402CA248 (.mulhn g5 ⟨9, 10, 11, true⟩) ∧
    Reads 64 0x0000013F4C2CA248 (.madd g5 ⟨9, 10, 11, 12, true⟩) ∧
    Reads 64 0x00000143402CA248 (.div g5 ⟨9, 10, 11, true⟩) ∧
    Reads 64 0x00000147402CA248 (.divn g5 ⟨9, 10, 11, true⟩) ∧
    Reads 64 0x0000014B402CA248 (.rem g5 ⟨9, 10, 11, true⟩) ∧
    Reads 64 0x0000014F402CA248 (.remn g5 ⟨9, 10, 11, true⟩) ∧
    Reads 64 0x00000153402CA248 (.min g5 ⟨9, 10, 11, true⟩) ∧
    Reads 64 0x00000157402CA248 (.max g5 ⟨9, 10, 11, true⟩) ∧
    Reads 64 0x0000015B402CA248 (.minn g5 ⟨9, 10, 11, true⟩) ∧
    Reads 64 0x0000015F402CA248 (.maxn g5 ⟨9, 10, 11, true⟩) ∧
    Reads 64 0x00000063462CA248 (.sel g5 ⟨9, 10, 11, 6⟩) ∧
    Reads 64 0x000001674000A248 (.clz g5 ⟨9, 10, true⟩) ∧
    Reads 64 0x0000016B4000A248 (.ctz g5 ⟨9, 10, true⟩) ∧
    Reads 64 0x0000016F4000A248 (.pop g5 ⟨9, 10, true⟩) ∧
    Reads 64 0x000001734000A248 (.brev g5 ⟨9, 10, true⟩) ∧
    Reads 64 0x000001774000A248 (.bswap g5 ⟨9, 10, true⟩) ∧
    Reads 64 0x0000007B402CA248 (.sext g5 ⟨9, 10, 11⟩) ∧
    Reads 64 0x0000007F402CA248 (.zext g5 ⟨9, 10, 11⟩) ∧
    Reads 64 0x000000834C2CA248 (.bfx g5 ⟨9, 10, 11, 12⟩) ∧
    Reads 64 0x000000874C2CA248 (.bfi g5 ⟨9, 10, 11, 12⟩) := by unfold Reads; decide

theorem test_decode_iopi :
    Reads 64 0xFC1801037F00A249 (.iopiAdd g5 ⟨9, 10, .ofInt 22 (-1000), true⟩) ∧
    Reads 64 0xFC18000B7F00A249 (.iopiAnd g5 ⟨9, 10, .ofInt 22 (-1000)⟩) ∧
    Reads 64 0xFC18000F7F00A249 (.iopiOr g5 ⟨9, 10, .ofInt 22 (-1000)⟩) ∧
    Reads 64 0xFC1800137F00A249 (.iopiXor g5 ⟨9, 10, .ofInt 22 (-1000)⟩) ∧
    Reads 64 0xFC18011F7F00A249 (.iopiShl g5 ⟨9, 10, .ofInt 22 (-1000), true⟩) ∧
    Reads 64 0xFC1801237F00A249 (.iopiShr g5 ⟨9, 10, .ofInt 22 (-1000), true⟩) ∧
    Reads 64 0xFC1801277F00A249 (.iopiSar g5 ⟨9, 10, .ofInt 22 (-1000), true⟩) ∧
    Reads 64 0xFC18012B7F00A249 (.iopiRol g5 ⟨9, 10, .ofInt 22 (-1000), true⟩) ∧
    Reads 64 0xFC18012F7F00A249 (.iopiRor g5 ⟨9, 10, .ofInt 22 (-1000), true⟩) ∧
    Reads 64 0xFC1801337F00A249 (.iopiMul g5 ⟨9, 10, .ofInt 22 (-1000), true⟩) ∧
    Reads 64 0xFC1801537F00A249 (.iopiMin g5 ⟨9, 10, .ofInt 22 (-1000), true⟩) ∧
    Reads 64 0xFC1801577F00A249 (.iopiMax g5 ⟨9, 10, .ofInt 22 (-1000), true⟩) ∧
    Reads 64 0xFC18015B7F00A249 (.iopiMinn g5 ⟨9, 10, .ofInt 22 (-1000), true⟩) ∧
    Reads 64 0xFC18015F7F00A249 (.iopiMaxn g5 ⟨9, 10, .ofInt 22 (-1000), true⟩) ∧
    Reads 64 0x000F007B4000A249 (.iopiSext g5 ⟨9, 10, 15⟩) ∧
    Reads 64 0x000F007F4000A249 (.iopiZext g5 ⟨9, 10, 15⟩) ∧
    Reads 64 0x030800834000A249 (.iopiBfx g5 ⟨9, 10, 8, 12⟩) ∧
    Reads 64 0x030800874000A249 (.iopiBfi g5 ⟨9, 10, 8, 12⟩) := by unfold Reads; decide

theorem test_decode_cmp :
    Reads 64 0x00000503402CA14A (.cmpEq g5 ⟨5, 10, 11, .and, true⟩) ∧
    Reads 64 0x00000507402CA14A (.cmpNe g5 ⟨5, 10, 11, .and, true⟩) ∧
    Reads 64 0x0000050B402CA14A (.cmpLt g5 ⟨5, 10, 11, .and, true⟩) ∧
    Reads 64 0x0000050F402CA14A (.cmpGe g5 ⟨5, 10, 11, .and, true⟩) ∧
    Reads 64 0x00000513402CA14A (.cmpLe g5 ⟨5, 10, 11, .and, true⟩) ∧
    Reads 64 0x00000517402CA14A (.cmpGt g5 ⟨5, 10, 11, .and, true⟩) ∧
    Reads 64 0x0000051B402CA14A (.cmpLtn g5 ⟨5, 10, 11, .and, true⟩) ∧
    Reads 64 0x0000051F402CA14A (.cmpGen g5 ⟨5, 10, 11, .and, true⟩) ∧
    Reads 64 0x00000523402CA14A (.cmpLen g5 ⟨5, 10, 11, .and, true⟩) ∧
    Reads 64 0x00000527402CA14A (.cmpGtn g5 ⟨5, 10, 11, .and, true⟩) ∧
    Reads 64 0x0000052B402CA14A (.cmpTst g5 ⟨5, 10, 11, .and, true⟩) ∧
    Reads 64 0x0000052F402CA14A (.cmpNtst g5 ⟨5, 10, 11, .and, true⟩) := by unfold Reads; decide

theorem test_decode_cmpi :
    Reads 64 0xFC1806037F00A14B (.cmpiEq g5 ⟨5, 10, .ofInt 22 (-1000), .or, true⟩) ∧
    Reads 64 0xFC1806077F00A14B (.cmpiNe g5 ⟨5, 10, .ofInt 22 (-1000), .or, true⟩) ∧
    Reads 64 0xFC18060B7F00A14B (.cmpiLt g5 ⟨5, 10, .ofInt 22 (-1000), .or, true⟩) ∧
    Reads 64 0xFC18060F7F00A14B (.cmpiGe g5 ⟨5, 10, .ofInt 22 (-1000), .or, true⟩) ∧
    Reads 64 0xFC1806137F00A14B (.cmpiLe g5 ⟨5, 10, .ofInt 22 (-1000), .or, true⟩) ∧
    Reads 64 0xFC1806177F00A14B (.cmpiGt g5 ⟨5, 10, .ofInt 22 (-1000), .or, true⟩) ∧
    Reads 64 0xFC18061B7F00A14B (.cmpiLtn g5 ⟨5, 10, .ofInt 22 (-1000), .or, true⟩) ∧
    Reads 64 0xFC18061F7F00A14B (.cmpiGen g5 ⟨5, 10, .ofInt 22 (-1000), .or, true⟩) ∧
    Reads 64 0xFC1806237F00A14B (.cmpiLen g5 ⟨5, 10, .ofInt 22 (-1000), .or, true⟩) ∧
    Reads 64 0xFC1806277F00A14B (.cmpiGtn g5 ⟨5, 10, .ofInt 22 (-1000), .or, true⟩) ∧
    Reads 64 0xFC18062B7F00A14B (.cmpiTst g5 ⟨5, 10, .ofInt 22 (-1000), .or, true⟩) ∧
    Reads 64 0xFC18062F7F00A14B (.cmpiNtst g5 ⟨5, 10, .ofInt 22 (-1000), .or, true⟩) := by unfold Reads; decide

theorem test_decode_movw :
    Reads 64 0xBEEF000B4000024C (.movw g5 ⟨9, 2, 0xBEEF⟩) ∧
    Reads 64 0xBEEF001B4000024C (.movk g5 ⟨9, 2, 0xBEEF⟩) ∧
    Reads 64 0xFFF00323402CA24C (.lea g5 ⟨9, 10, 11, 3, 0xFFF0⟩) := by unfold Reads; decide

theorem test_decode_plog :
    Reads 64 0x00000003401C214D (.pand g5 ⟨5, 2, 7⟩) ∧
    Reads 64 0x00000007401C214D (.por g5 ⟨5, 2, 7⟩) ∧
    Reads 64 0x0000000B401C214D (.pxor g5 ⟨5, 2, 7⟩) ∧
    Reads 64 0x0000000F401C214D (.pandn g5 ⟨5, 2, 7⟩) ∧
    Reads 64 0x000000134000214D (.pnot g5 ⟨5, 2⟩) ∧
    Reads 64 0x000000174000A00D (.psetx g5 ⟨10⟩) ∧
    Reads 64 0x0000001B4000024D (.xgetp g5 ⟨9⟩) := by unfold Reads; decide

theorem test_decode_fop :
    Reads 64 0x00000503402CA24E (.fadd g5 ⟨9, 10, 11, .f64, .rdn⟩) ∧
    Reads 64 0x00000507402CA24E (.fsub g5 ⟨9, 10, 11, .f64, .rdn⟩) ∧
    Reads 64 0x0000050B402CA24E (.fmul g5 ⟨9, 10, 11, .f64, .rdn⟩) ∧
    Reads 64 0x8000000F4C2CA24E (.ffma g5 ⟨9, 10, 11, 12, .f32, .dyn⟩) ∧
    Reads 64 0x00000513402CA24E (.fdiv g5 ⟨9, 10, 11, .f64, .rdn⟩) ∧
    Reads 64 0x000002174000A24E (.fsqrt g5 ⟨9, 10, .f32, .rtz⟩) ∧
    Reads 64 0x0000011B402CA24E (.fmin g5 ⟨9, 10, 11, .f64⟩) ∧
    Reads 64 0x0000011F402CA24E (.fmax g5 ⟨9, 10, 11, .f64⟩) ∧
    Reads 64 0x000001234000A24E (.fabs g5 ⟨9, 10, .f64⟩) ∧
    Reads 64 0x000001274000A24E (.fneg g5 ⟨9, 10, .f64⟩) ∧
    Reads 64 0x8002012B4000A24E (.fcvti g5 ⟨9, 10, .f64, .dyn, .i64⟩) ∧
    Reads 64 0x8002012F4000A24E (.fcvtf g5 ⟨9, 10, .f64, .dyn, .i64⟩) ∧
    Reads 64 0x000002334000A24E (.fcvtw g5 ⟨9, 10, .f32, .rtz⟩) ∧
    Reads 64 0x000001374000A24E (.fclass g5 ⟨9, 10, .f64⟩) := by unfold Reads; decide

theorem test_decode_fcmp :
    Reads 64 0x00000603402CA14F (.feq g5 ⟨5, 10, 11, .f64, .or⟩) ∧
    Reads 64 0x00000607402CA14F (.flt g5 ⟨5, 10, 11, .f64, .or⟩) ∧
    Reads 64 0x0000060B402CA14F (.fle g5 ⟨5, 10, 11, .f64, .or⟩) ∧
    Reads 64 0x0000060F402CA14F (.fun_ g5 ⟨5, 10, 11, .f64, .or⟩) := by unfold Reads; decide

theorem test_decode_ld :
    Reads 64 0xFFF05537402CA250 (.ld g5 ⟨9, 10, 11, 0xFFF0, .s16, true, .spec, ⟨.acquire, .cluster, 5⟩⟩) := by unfold Reads; decide

theorem test_decode_st :
    Reads 64 0xFFF0950F402CA251 (.st g5 ⟨9, 10, 11, 0xFFF0, .s64, ⟨.release, .cluster, 5⟩⟩) := by unfold Reads; decide

theorem test_decode_atom :
    Reads 64 0xFFF0D583402CA252 (.atomXchg g5 ⟨9, 10, 11, 0xFFF0, true, ⟨.acqRel, .cluster, 5⟩⟩) ∧
    Reads 64 0xFFF0D5874C2CA252 (.atomCas g5 ⟨9, 10, 11, 0xFFF0, 12, true, ⟨.acqRel, .cluster, 5⟩⟩) ∧
    Reads 64 0xFFF0D58B402CA252 (.atomAdd g5 ⟨9, 10, 11, 0xFFF0, true, ⟨.acqRel, .cluster, 5⟩⟩) ∧
    Reads 64 0xFFF0D58F402CA252 (.atomAnd g5 ⟨9, 10, 11, 0xFFF0, true, ⟨.acqRel, .cluster, 5⟩⟩) ∧
    Reads 64 0xFFF0D593402CA252 (.atomOr g5 ⟨9, 10, 11, 0xFFF0, true, ⟨.acqRel, .cluster, 5⟩⟩) ∧
    Reads 64 0xFFF0D597402CA252 (.atomXor g5 ⟨9, 10, 11, 0xFFF0, true, ⟨.acqRel, .cluster, 5⟩⟩) ∧
    Reads 64 0xFFF0D59B402CA252 (.atomMin g5 ⟨9, 10, 11, 0xFFF0, true, ⟨.acqRel, .cluster, 5⟩⟩) ∧
    Reads 64 0xFFF0D59F402CA252 (.atomMax g5 ⟨9, 10, 11, 0xFFF0, true, ⟨.acqRel, .cluster, 5⟩⟩) ∧
    Reads 64 0xFFF0D5A3402CA252 (.atomMinn g5 ⟨9, 10, 11, 0xFFF0, true, ⟨.acqRel, .cluster, 5⟩⟩) ∧
    Reads 64 0xFFF0D5A7402CA252 (.atomMaxn g5 ⟨9, 10, 11, 0xFFF0, true, ⟨.acqRel, .cluster, 5⟩⟩) ∧
    Reads 64 0xFFF0D52B402CA252 (.atomFadd g5 ⟨9, 10, 11, 0xFFF0, ⟨.acqRel, .cluster, 5⟩⟩) ∧
    Reads 64 0xFFF0D52F402CA252 (.atomFmin g5 ⟨9, 10, 11, 0xFFF0, ⟨.acqRel, .cluster, 5⟩⟩) ∧
    Reads 64 0xFFF0D533402CA252 (.atomFmax g5 ⟨9, 10, 11, 0xFFF0, ⟨.acqRel, .cluster, 5⟩⟩) ∧
    Reads 64 0xFFF0D5B7402CA252 (.atomIncw g5 ⟨9, 10, 11, 0xFFF0, true, ⟨.acqRel, .cluster, 5⟩⟩) ∧
    Reads 64 0xFFF0D5BB402CA252 (.atomDecw g5 ⟨9, 10, 11, 0xFFF0, true, ⟨.acqRel, .cluster, 5⟩⟩) := by unfold Reads; decide

theorem test_decode_vld :
    Reads 64 0xFFF05503462CA0D3 (.vld g5 ⟨3, 10, 11, 0xFFF0, 6, ⟨.acquire, .cluster, 5⟩⟩) ∧
    Reads 64 0xFFF05507462CA0D3 (.vlds g5 ⟨3, 10, 11, 0xFFF0, 6, ⟨.acquire, .cluster, 5⟩⟩) ∧
    Reads 64 0xFFF0550B462CA0D3 (.vldb g5 ⟨3, 10, 11, 0xFFF0, 6, ⟨.acquire, .cluster, 5⟩⟩) := by unfold Reads; decide

theorem test_decode_vst :
    Reads 64 0xFFF09503462CA0D4 (.vst g5 ⟨3, 10, 11, 0xFFF0, 6, ⟨.release, .cluster, 5⟩⟩) ∧
    Reads 64 0xFFF09507462CA0D4 (.vsts g5 ⟨3, 10, 11, 0xFFF0, 6, ⟨.release, .cluster, 5⟩⟩) := by unfold Reads; decide

theorem test_decode_vgs :
    Reads 64 0xFFF05503467CA0D5 (.vgather g5 ⟨3, 10, 31, 0xFFF0, 6, ⟨.acquire, .cluster, 5⟩⟩) ∧
    Reads 64 0xFFF09507467CA0D5 (.vscatter g5 ⟨3, 10, 31, 0xFFF0, 6, ⟨.release, .cluster, 5⟩⟩) ∧
    Reads 64 0xFFF0D50B467CA0D5 (.vscadd g5 ⟨3, 10, 31, 0xFFF0, 6, ⟨.acqRel, .cluster, 5⟩⟩) := by unfold Reads; decide

theorem test_decode_prefetch :
    Reads 64 0xFFF01503402CA016 (.prefetchDc g5 ⟨10, 11, 0xFFF0, .cluster, 5⟩) ∧
    Reads 64 0xFFF01507402CA016 (.prefetchCs g5 ⟨10, 11, 0xFFF0, .cluster, 5⟩) := by unfold Reads; decide

theorem test_decode_tld :
    Reads 64 0xFFF05517402CA258 (.tld g5 ⟨9, 10, 11, 0xFFF0, .s16, true, ⟨.acquire, .cluster, 5⟩⟩) ∧
    Reads 64 0xFFF05523462CA0D8 (.tldv g5 ⟨3, 10, 11, 0xFFF0, 6, ⟨.acquire, .cluster, 5⟩⟩) ∧
    Reads 64 0xFFF05527462CA0D8 (.tldvs g5 ⟨3, 10, 11, 0xFFF0, 6, ⟨.acquire, .cluster, 5⟩⟩) := by unfold Reads; decide

theorem test_decode_tst :
    Reads 64 0xFFF0950F402CA259 (.tst g5 ⟨9, 10, 11, 0xFFF0, .s64, ⟨.release, .cluster, 5⟩⟩) ∧
    Reads 64 0xFFF09523462CA0D9 (.tstv g5 ⟨3, 10, 11, 0xFFF0, 6, ⟨.release, .cluster, 5⟩⟩) ∧
    Reads 64 0xFFF09527462CA0D9 (.tstvs g5 ⟨3, 10, 11, 0xFFF0, 6, ⟨.release, .cluster, 5⟩⟩) := by unfold Reads; decide

theorem test_decode_mma :
    Reads 64 0x4321806B40000130 (.mma g5 ⟨4, .e4m3, .e5m2, 0x21, 0x43⟩) ∧
    Reads 64 0x000000D7402CA130 (.mmaReg g5 ⟨4, .i8, .n8, 10, 11⟩) := by unfold Reads; decide

theorem test_decode_mmas :
    Reads 64 0x43218D6B4C000131 (.mmas g5 ⟨4, .e4m3, .e5m2, .e8m0, 0x21, 0x43, 12⟩) ∧
    Reads 64 0x000009934C2CA131 (.mmasReg g5 ⟨4, .e2m1, .e2m1, .e4m3, 10, 11, 12⟩) := by unfold Reads; decide

theorem test_decode_zop :
    Reads 64 0x0000000340000132 (.zzero g5 ⟨4⟩) ∧
    Reads 64 0x000000074000A132 (.zld g5 ⟨4, 10⟩) ∧
    Reads 64 0x0018B60B4400A032 (.zst g5 ⟨4, 10, .f16, .f32, .rup, true, 1⟩) ∧
    Reads 64 0x8038090F442CA272 (.zsts g5 ⟨9, 4, 10, 11, .e4m3, .dyn, false, 3⟩) ∧
    Reads 64 0x00001813407C0132 (.zbias g5 ⟨4, 31, .f32, .rtz⟩) := by unfold Reads; decide

theorem test_decode_ttag :
    Reads 64 0x214A0003402C001A (.tarm g5 ⟨.imm 0x4A, 33, 11⟩) ∧
    Reads 64 0x800010074C00015A (.twait g5 ⟨5, .reg 12, .cluster⟩) ∧
    Reads 64 0x004A150B4000001A (.ttake g5 ⟨.imm 0x4A, .cluster, 5⟩) ∧
    Reads 64 0x604A000F4000025A (.tstat g5 ⟨9, .imm 0x4A, true, true⟩) ∧
    Reads 64 0x004A15134000001A (.tmark g5 ⟨.imm 0x4A, .cluster, 5⟩) ∧
    Reads 64 0x004A15174000001A (.tpois g5 ⟨.imm 0x4A, .cluster, 5⟩) ∧
    Reads 64 0x004A151B4000A01A (.tscls g5 ⟨.imm 0x4A, 10, .cluster, 5⟩) ∧
    Reads 64 0x8000001F4C00025A (.tsclg g5 ⟨9, .reg 12⟩) ∧
    Reads 64 0x004A15234000001A (.tzero g5 ⟨.imm 0x4A, .cluster, 5⟩) := by unfold Reads; decide

theorem test_decode_tsend :
    Reads 64 0x10009503402CA01B (.tsend g5 ⟨10, 11, 4096, ⟨.release, .cluster, 5⟩⟩) ∧
    Reads 64 0x00009507402C00DB (.tsendv g5 ⟨3, 11, ⟨.release, .cluster, 5⟩⟩) ∧
    Reads 64 0x0000950B4C2CA01B (.tsendx g5 ⟨10, 11, 12, ⟨.release, .cluster, 5⟩⟩) ∧
    Reads 64 0x0000950F402C001B (.tnote g5 ⟨11, ⟨.release, .cluster, 5⟩⟩) := by unfold Reads; decide

theorem test_decode_hop :
    Reads 64 0x00001003400010DC (.hfork g5 ⟨3, 1, .cluster⟩) ∧
    Reads 64 0x00001007400010DC (.hjoin g5 ⟨3, 1, .cluster⟩) ∧
    Reads 64 0x0000100B4000001C (.hjoina g5 ⟨.cluster⟩) ∧
    Reads 64 0x0000100F4000101C (.hwait g5 ⟨1, .cluster⟩) ∧
    Reads 64 0x00001013402C101C (.hpass g5 ⟨1, 11, .cluster⟩) ∧
    Reads 64 0x000010174000A0DC (.hrecv g5 ⟨3, 10, .cluster⟩) ∧
    Reads 64 0x0000001B4000125C (.hcnt g5 ⟨9, 1⟩) := by unfold Reads; decide

theorem test_decode_bar :
    Reads 64 0x004A00034000A01D (.barinit g5 ⟨.imm 0x4A, 10⟩) ∧
    Reads 64 0x004A15074000025D (.bararr g5 ⟨9, .imm 0x4A, .cluster, 5⟩) ∧
    Reads 64 0x8000150B4C00A25D (.bararx g5 ⟨9, .reg 12, 10, .cluster, 5⟩) ∧
    Reads 64 0x004A150F4000A01D (.barexp g5 ⟨.imm 0x4A, 10, .cluster, 5⟩) ∧
    Reads 64 0x004A10134000A01D (.barwait g5 ⟨.imm 0x4A, 10, .cluster⟩) ∧
    Reads 64 0x004A10174000A15D (.bartry g5 ⟨5, .imm 0x4A, 10, .cluster⟩) ∧
    Reads 64 0x8000001B4C00001D (.barinv g5 ⟨.reg 12⟩) := by unfold Reads; decide

theorem test_decode_task :
    Reads 64 0x000015034000A15E (.spawn g5 ⟨5, 10, .cluster, 5⟩) ∧
    Reads 64 0x000000074000001E (.exit g5) ∧
    Reads 64 0x0000000B4000001E (.yield g5) ∧
    Reads 64 0x0000000F4000A01E (.park g5 ⟨10⟩) := by unfold Reads; decide

theorem test_decode_cpy :
    Reads 64 0x000095034000A260 (.cpygo g5 ⟨9, 10, ⟨.release, .cluster, 5⟩⟩) ∧
    Reads 64 0x000000074000A260 (.cpystat g5 ⟨9, 10⟩) ∧
    Reads 64 0x0000000B4000A020 (.cpyabort g5 ⟨10⟩) ∧
    Reads 64 0x002A000F4000A020 (.layset g5 ⟨.imm 0x2A, 10⟩) ∧
    Reads 64 0x002A00134000A020 (.layget g5 ⟨.imm 0x2A, 10⟩) := by unfold Reads; decide

theorem test_decode_ring :
    Reads 64 0x000095034C2CA021 (.rgput g5 ⟨10, 11, 12, ⟨.release, .cluster, 5⟩⟩) ∧
    Reads 64 0x04D210074C2CA261 (.rgread g5 ⟨9, 11, 10, 12, 1234, .cluster⟩) ∧
    Reads 64 0x0000100B402C0221 (.rgpos g5 ⟨8, 11, .cluster⟩) ∧
    Reads 64 0x0000100F402C0221 (.trgnext g5 ⟨8, 11, .cluster⟩) ∧
    Reads 64 0x00009513402CA261 (.trgfwd g5 ⟨9, 10, 11, ⟨.release, .cluster, 5⟩⟩) ∧
    Reads 64 0x00009517402CA261 (.trgacc g5 ⟨9, 10, 11, ⟨.release, .cluster, 5⟩⟩) ∧
    Reads 64 0x0000951B402CA021 (.trgrej g5 ⟨10, 11, ⟨.release, .cluster, 5⟩⟩) ∧
    Reads 64 0x0000951F402C0021 (.trgmark g5 ⟨11, ⟨.release, .cluster, 5⟩⟩) := by unfold Reads; decide

theorem test_decode_viop :
    Reads 64 0x00000403467D10E8 (.vadd g5 ⟨3, 17, 31, 6, .i32⟩) ∧
    Reads 64 0x00000407467D10E8 (.vsub g5 ⟨3, 17, 31, 6, .i32⟩) ∧
    Reads 64 0x0000040B467D10E8 (.vmul g5 ⟨3, 17, 31, 6, .i32⟩) ∧
    Reads 64 0x0000040F467D10E8 (.vmulh g5 ⟨3, 17, 31, 6, .i32⟩) ∧
    Reads 64 0x00000413467D10E8 (.vmadd g5 ⟨3, 17, 31, 6, .i32⟩) ∧
    Reads 64 0x00000417467D10E8 (.vand g5 ⟨3, 17, 31, 6, .i32⟩) ∧
    Reads 64 0x0000041B467D10E8 (.vor g5 ⟨3, 17, 31, 6, .i32⟩) ∧
    Reads 64 0x0000041F467D10E8 (.vxor g5 ⟨3, 17, 31, 6, .i32⟩) ∧
    Reads 64 0x00000423467D10E8 (.vshl g5 ⟨3, 17, 31, 6, .i32⟩) ∧
    Reads 64 0x00000427467D10E8 (.vshr g5 ⟨3, 17, 31, 6, .i32⟩) ∧
    Reads 64 0x0000042B467D10E8 (.vsar g5 ⟨3, 17, 31, 6, .i32⟩) ∧
    Reads 64 0x0000042F467D10E8 (.vmin g5 ⟨3, 17, 31, 6, .i32⟩) ∧
    Reads 64 0x00000433467D10E8 (.vmax g5 ⟨3, 17, 31, 6, .i32⟩) ∧
    Reads 64 0x00000237460110E8 (.vabs g5 ⟨3, 17, 6, .i16⟩) ∧
    Reads 64 0x0000023B460110E8 (.vneg g5 ⟨3, 17, 6, .i16⟩) ∧
    Reads 64 0x0000043F467D10E8 (.vadds g5 ⟨3, 17, 31, 6, .i32⟩) ∧
    Reads 64 0x00000443467D10E8 (.vsubs g5 ⟨3, 17, 31, 6, .i32⟩) ∧
    Reads 64 0x00000247460110E8 (.vpop g5 ⟨3, 17, 6, .i16⟩) ∧
    Reads 64 0x0000024B460110E8 (.vclz g5 ⟨3, 17, 6, .i16⟩) ∧
    Reads 64 0x0000004F467D10E8 (.vdot4 g5 ⟨3, 17, 31, 6, .i8⟩) ∧
    Reads 64 0x00000453467D10E8 (.vsel g5 ⟨3, 17, 31, 6, .i32⟩) := by unfold Reads; decide

theorem test_decode_vfop :
    Reads 64 0x00003703467D10E9 (.vfadd g5 ⟨3, 17, 31, 6, .bf16, .rup⟩) ∧
    Reads 64 0x00003707467D10E9 (.vfsub g5 ⟨3, 17, 31, 6, .bf16, .rup⟩) ∧
    Reads 64 0x0000370B467D10E9 (.vfmul g5 ⟨3, 17, 31, 6, .bf16, .rup⟩) ∧
    Reads 64 0x0000370F467D10E9 (.vffma g5 ⟨3, 17, 31, 6, .bf16, .rup⟩) ∧
    Reads 64 0x00003713467D10E9 (.vffms g5 ⟨3, 17, 31, 6, .bf16, .rup⟩) ∧
    Reads 64 0x00000617467D10E9 (.vfmin g5 ⟨3, 17, 31, 6, .f16⟩) ∧
    Reads 64 0x0000061B467D10E9 (.vfmax g5 ⟨3, 17, 31, 6, .f16⟩) ∧
    Reads 64 0x0000061F460110E9 (.vfabs g5 ⟨3, 17, 6, .f16⟩) ∧
    Reads 64 0x00000623460110E9 (.vfneg g5 ⟨3, 17, 6, .f16⟩) ∧
    Reads 64 0x00003727467D10E9 (.vfdiv g5 ⟨3, 17, 31, 6, .bf16, .rup⟩) ∧
    Reads 64 0x8000082B460110E9 (.vfsqrt g5 ⟨3, 17, 6, .f32, .dyn⟩) ∧
    Reads 64 0x8000082F460110E9 (.vfrcp g5 ⟨3, 17, 6, .f32, .dyn⟩) ∧
    Reads 64 0x80000833460110E9 (.vfrsq g5 ⟨3, 17, 6, .f32, .dyn⟩) ∧
    Reads 64 0x80000837460110E9 (.vfexp2 g5 ⟨3, 17, 6, .f32, .dyn⟩) ∧
    Reads 64 0x8000083B460110E9 (.vflog2 g5 ⟨3, 17, 6, .f32, .dyn⟩) ∧
    Reads 64 0x0000373F467D10E9 (.vfscl g5 ⟨3, 17, 31, 6, .bf16, .rup⟩) := by unfold Reads; decide

theorem test_decode_vcvt :
    Reads 64 0x7518C603460110EA (.vcvt g5 ⟨3, 17, 6, .f16, .f32, .rs 29, true, 1, 2⟩) ∧
    Reads 64 0x81380907462D10EA (.vcvtsc g5 ⟨3, 17, 11, 6, .e4m3, .f32, .fixed .dyn, false, 3, 2⟩) := by unfold Reads; decide

theorem test_decode_vprm :
    Reads 64 0x00000003467D10EB (.vperm g5 ⟨3, 17, 31, 6⟩) ∧
    Reads 64 0x000000074600A0EB (.vbcast g5 ⟨3, 10, 6⟩) ∧
    Reads 64 0x0000000B402CA0EB (.vins g5 ⟨3, 10, 11⟩) ∧
    Reads 64 0x0000000F402D126B (.vext g5 ⟨9, 17, 11⟩) ∧
    Reads 64 0x000205134601126B (.vred g5 ⟨9, 17, 6, .max, .n32, .rne⟩) ∧
    Reads 64 0x80000817460110EB (.vscan g5 ⟨3, 17, 6, .add, .f32, .dyn⟩) ∧
    Reads 64 0x0000001B460110EB (.vcomp g5 ⟨3, 17, 6⟩) ∧
    Reads 64 0x0000001F460110EB (.vexpd g5 ⟨3, 17, 6⟩) ∧
    Reads 64 0x00000023462D10EB (.vslide g5 ⟨3, 17, 11, 6⟩) := by unfold Reads; decide

theorem test_decode_vcmp :
    Reads 64 0x00000403467D116C (.vcmpEq g5 ⟨5, 17, 31, 6⟩) ∧
    Reads 64 0x00000407467D116C (.vcmpNe g5 ⟨5, 17, 31, 6⟩) ∧
    Reads 64 0x0000040B467D116C (.vcmpLt g5 ⟨5, 17, 31, 6⟩) ∧
    Reads 64 0x0000040F467D116C (.vcmpGe g5 ⟨5, 17, 31, 6⟩) ∧
    Reads 64 0x00000413467D116C (.vcmpLe g5 ⟨5, 17, 31, 6⟩) ∧
    Reads 64 0x00000417467D116C (.vcmpGt g5 ⟨5, 17, 31, 6⟩) ∧
    Reads 64 0x0000041B467D116C (.vcmpLtn g5 ⟨5, 17, 31, 6⟩) ∧
    Reads 64 0x0000041F467D116C (.vcmpGen g5 ⟨5, 17, 31, 6⟩) ∧
    Reads 64 0x00000423467D116C (.vcmpLen g5 ⟨5, 17, 31, 6⟩) ∧
    Reads 64 0x00000427467D116C (.vcmpGtn g5 ⟨5, 17, 31, 6⟩) ∧
    Reads 64 0x0000042B467D116C (.vcmpTst g5 ⟨5, 17, 31, 6⟩) ∧
    Reads 64 0x0000042F467D116C (.vcmpNtst g5 ⟨5, 17, 31, 6⟩) ∧
    Reads 64 0x00000843467D116C (.vcmpFeq g5 ⟨5, 17, 31, 6⟩) ∧
    Reads 64 0x00000847467D116C (.vcmpFlt g5 ⟨5, 17, 31, 6⟩) ∧
    Reads 64 0x0000084B467D116C (.vcmpFle g5 ⟨5, 17, 31, 6⟩) ∧
    Reads 64 0x0000084F467D116C (.vcmpFun g5 ⟨5, 17, 31, 6⟩) := by unfold Reads; decide

theorem test_decode_vmsc :
    Reads 64 0x00000003467CA0ED (.vrand g5 ⟨3, 10, 31, 6⟩) ∧
    Reads 64 0x00000007460110ED (.vmov g5 ⟨3, 17, 6⟩) ∧
    Reads 64 0x7800080B4600F0ED (.vmovi g5 ⟨3, 0x7F800, .f32, 6⟩) ∧
    Reads 64 0x0000000F4600A0ED (.viota g5 ⟨3, 10, 6⟩) ∧
    Reads 64 0x00000013401C216D (.kand g5 ⟨5, 2, 7⟩) ∧
    Reads 64 0x00000017401C216D (.kor g5 ⟨5, 2, 7⟩) ∧
    Reads 64 0x0000001B401C216D (.kxor g5 ⟨5, 2, 7⟩) ∧
    Reads 64 0x0000001F4000216D (.knot g5 ⟨5, 2⟩) ∧
    Reads 64 0x000000234000A16D (.ksetx g5 ⟨5, 10⟩) ∧
    Reads 64 0x000000274000226D (.kgetx g5 ⟨9, 2⟩) ∧
    Reads 64 0x0000002B4000226D (.kpop g5 ⟨9, 2⟩) := by unfold Reads; decide

theorem test_decode_vdot :
    Reads 64 0x00060D03487D10EE (.vbdot g5 ⟨3, 17, 31, 8, .e8m0, 6⟩) ∧
    Reads 64 0x00060A07487D126E (.vbdots g5 ⟨9, 17, 31, 8, .e5m2, 6⟩) := by unfold Reads; decide

/-! ### Hypotheses of the claims about one instruction -/

theorem witness_IntegerArithmetic : base.cleared g0 [1, 2, 3] [] ∧ base.cleared g0 [1, 2, 3, 4] [] :=
  ⟨⟨by decide, by decide⟩, ⟨by decide, by decide⟩⟩

theorem witness_LogicAndShifts : base.cleared g0 [0, 2, 2] [] := ⟨by decide, by decide⟩

/-- A field of length 64 at position 63, and one of length 0. -/
theorem witness_BitFields :
    let s := withX (withX base 5 63 false) 6 64 false
    s.cleared g0 [1, 1, 2, 5, 6] [] ∧ s.cleared g0 [1, 2, 5, 0] [] ∧
    (∀ i, i < 64 → (0 : Word).getLsbD i =
      if (s.xr 5).toNat % 64 ≤ i ∧ i < (s.xr 5).toNat % 64 + min (s.xr 6).toNat 64
      then (s.xr 2).getLsbD (i - (s.xr 5).toNat % 64) else (s.xr 1).getLsbD i) :=
  ⟨⟨by decide, by decide⟩, ⟨by decide, by decide⟩, by decide⟩

theorem witness_IntegerImmediates :
    base.cleared g0 [1, 2] [] ∧
    (∀ i, i < 64 → (0 : Word).getLsbD i = if (63#6).toNat ≤ i ∧ i < (63#6).toNat + (64#7).toNat
      then (base.xr 2).getLsbD (i - (63#6).toNat) else (base.xr 1).getLsbD i) :=
  ⟨⟨by decide, by decide⟩, by decide⟩

theorem witness_ComparesAndConditions :
    base.cleared g0 [1, 2] [] ∧ base.xPois 1 = false ∧ base.xPois 2 = false ∧ base.guardOn g0 = true ∧
    (∀ i, i < 64 → (1 : Word).getLsbD i = (decide (i < 8) && base.cr (.ofNat 3 i))) :=
  ⟨⟨by decide, by decide⟩, by decide, by decide, by decide, by decide⟩

theorem witness_Constants :
    base.cleared g0 [1] [] ∧ base.cleared g0 [1, 2, 3] [] ∧
    (∀ i, i < 64 → (0xBEEF000000000000 : Word).getLsbD i =
      if i / 16 = (3#2).toNat then (0xBEEF#16).getLsbD (i % 16) else (base.xr 1).getLsbD i) :=
  ⟨⟨by decide, by decide⟩, ⟨by decide, by decide⟩, by decide⟩

theorem witness_JumpsGo :
    let s := withX base 7 (-8) false
    s.guardOn g0 = true ∧ s.cleared g0 [1] [] ∧ s.cleared g0 [1, 7] [] ∧ s.xPois 7 = false ∧ (s.xr 7).toNat % 8 = 0 :=
  ⟨by decide, ⟨by decide, by decide⟩, ⟨by decide, by decide⟩, by decide, by decide⟩

/-- FABS and FNEG of zero at both widths. -/
theorem witness_ScalarFloatResults :
    base.cleared g0 [1, 2, 3, 4] [] ∧ base.cleared g0 [1, 2, 3] [] ∧ base.cleared g0 [1, 2] [] ∧
    (∀ i, i < 64 → (0 : Word).getLsbD i = (decide (i + 1 < (fmtOf .f64).width) && (base.xr 2).getLsbD i)) ∧
    (∀ i, i < 64 → (0x80000000 : Word).getLsbD i = (decide (i < (fmtOf .f32).width) &&
      ((base.xr 2).getLsbD i != decide (i + 1 = (fmtOf .f32).width)))) :=
  ⟨⟨by decide, by decide⟩, ⟨by decide, by decide⟩, ⟨by decide, by decide⟩, by decide, by decide⟩

theorem witness_FloatCompares : base.cleared g0 [2, 3] [] ∧ base.xPois 2 = false ∧ base.xPois 3 = false :=
  ⟨⟨by decide, by decide⟩, by decide, by decide⟩

/-- 1.5 in bf16 is exact, and a quiet and a signalling NaN of f32 are NaNs; ties, and values to each side of one. -/
theorem witness_RoundingAndNan :
    (∃ neg m e, 0x3FC0 < 2 ^ Fmt.bf16.width ∧ Fmt.bf16.decode 0x3FC0 = .fin neg m e false) ∧
    (Fmt.f32.decode 0x7FC00000).isNan = true ∧ (Fmt.f32.decode 0x7F800001).isNan = true ∧
    (2 * (6 % 2 ^ 2) = 2 ^ 2 ∧ 2 * (5 % 2 ^ 2) < 2 ^ 2 ∧ 2 ^ 2 < 2 * (7 % 2 ^ 2)) :=
  ⟨⟨_, _, _, by decide, rfl⟩, by decide, by decide, by decide⟩

theorem witness_TrapAndBreak : base.guardOn g0 = true ∧ base.me.inHandler = false := by decide

theorem witness_ReturnFromTrap :
    (supervisor.guardOn g0 = true ∧ supervisor.me.level ≠ .program) ∧
    (base.guardOn g0 = true ∧ base.me.level = .program ∧ base.me.inHandler = false) := by decide

theorem witness_PrivilegeTraps :
    (base.me.level = .program ∧ base.me.inHandler = false ∧ base.me.isInsole = false) ∧
    base.cleared g0 [2, 3] [] ∧ base.cleared g0 [2] [] ∧
    sysAssigned false 0x200 = true ∧ sysAssigned false 0x45F = false ∧ sysAssigned false 0x208 = true ∧
    (supervisor.me.level = .supervisor ∧ supervisor.me.inHandler = false ∧ supervisor.me.isInsole = false) ∧
    supervisor.cleared g0 [2] [] ∧ sysAssigned false 0x400 = true ∧ sysAssigned false 0x701 = true :=
  ⟨by decide, ⟨by decide, by decide⟩, ⟨by decide, by decide⟩, by decide, by decide, by decide, by decide,
    ⟨by decide, by decide⟩, by decide, by decide⟩

theorem witness_SystemReads :
    base.cleared g0 [1] [] ∧ base.mayUse 0x000 false ∧ base.mayUse 0x020 false ∧ base.mayUse 0x021 false :=
  ⟨⟨by decide, by decide⟩, ⟨by decide, by decide, by decide, by decide⟩, ⟨by decide, by decide, by decide, by decide⟩,
    ⟨by decide, by decide, by decide, by decide⟩⟩

/-- Insole reads and writes the controllers' registers. -/
theorem witness_SystemReads_controller :
    let s : State := { State.reset with me := { State.reset.me with live := true } }
    s.cleared g0 [1] [] ∧ s.mayUse 0x400 false ∧ s.mayUse 0x403 false ∧ s.mayUse 0x6FD false ∧
    s.pulse? ((0x400 - 0x400) / 8) = none ∧
    (({ s with pulses := [(0, .none)] } : State).pulse? ((0x400 - 0x400) / 8)).isSome = true ∧ s.ready 0 = false ∧
    ({ s with bar0 := [(0x100, 1)] } : State).ready ((0x400 - 0x400) / 96) = true :=
  ⟨⟨by decide, by decide⟩, ⟨by decide, by decide, by decide, by decide⟩, ⟨by decide, by decide, by decide, by decide⟩,
    ⟨by decide, by decide, by decide, by decide⟩, by decide, by decide, by decide, by decide⟩

theorem witness_SystemWrites :
    base.cleared g0 [1] [] ∧ base.xPois 1 = false ∧ base.mayUse 0x100 true ∧ base.mayUse 0x101 true ∧
    base.mayUse 0x102 true ∧ supervisor.mayUse 0x200 true ∧ supervisor.mayUse 0x201 true ∧
    supervisor.mayUse 0x202 true ∧ supervisor.mayUse 0x203 true ∧ supervisor.mayUse 0x204 true ∧
    supervisor.mayUse 0x205 true ∧ supervisor.mayUse 0x206 true ∧ supervisor.mayUse 0x208 true :=
  ⟨⟨by decide, by decide⟩, by decide, ⟨by decide, by decide, by decide, by decide⟩,
    ⟨by decide, by decide, by decide, by decide⟩, ⟨by decide, by decide, by decide, by decide⟩,
    ⟨by decide, by decide, by decide, by decide⟩, ⟨by decide, by decide, by decide, by decide⟩,
    ⟨by decide, by decide, by decide, by decide⟩, ⟨by decide, by decide, by decide, by decide⟩,
    ⟨by decide, by decide, by decide, by decide⟩, ⟨by decide, by decide, by decide, by decide⟩,
    ⟨by decide, by decide, by decide, by decide⟩, ⟨by decide, by decide, by decide, by decide⟩⟩

/-- Rounding codes 4 and 5, PREV 1 and 3, and an ASID the partition owns. -/
theorem witness_SystemWrites_values :
    ((4 : Word).toNat % 8 ≤ 4 ∧ 4 < (5 : Word).toNat % 8 ∧ (1 : Word).toNat % 4 < 2 ∧ (3 : Word).toNat % 4 = 3) ∧
    supervisor.me.isInsole = false ∧ supervisor.me.inHandler = false ∧
    supervisor.asidOwned 1 supervisor.me.part = true ∧ supervisor.isVoted supervisor.me = false := by decide

theorem witness_FencesAndChecks :
    (supervisor.guardOn g0 = true ∧ supervisor.allPerformed (supervisor.earlierAll supervisor.me) .die = true ∧
      supervisor.me.level ≠ .program ∧
      supervisor.allPerformed (supervisor.overlapping (supervisor.xr 2) (supervisor.xr 3).toNat) .die = true) ∧
    supervisor.cleared g0 [2, 3] [] ∧ supervisor.xPois 2 = false ∧
    (∀ i, i < 64 → (supervisor.kr 0).getLsbD i = true → (supervisor.vPois 4).getLsbD i = false) ∧
    (let s := withX supervisor 3 1 false
     s.cleared g0 [2, 3] [] ∧ s.asidOwned ((s.xr 3).toNat % 2 ^ 16) s.me.part = true ∧
       (s.remove (.page 1 0)).2 = ([], []) ∧ (s.remove (.space 1)).2 = ([], []) ∧ (s.remove (.all 0)).2 = ([], [])) :=
  ⟨by decide, ⟨by decide, by decide⟩, by decide, by decide,
    ⟨⟨by decide, by decide⟩, by decide, by decide, by decide, by decide⟩⟩

theorem witness_PoisonedOperandsTrap :
    poisoned.cleared g0 [6, 7] [] ∧ poisoned.xPois 6 = true ∧ poisoned.xPois 7 = false ∧
    (poisoned.xr 7).toNat % 8 ≠ 0 ∧
    (let s := base.onMe fun t => t.setV 4 (t.vr 4) 0x8000000000000001
     s.cleared g0 [] [4] ∧ (s.kr 0).getLsbD 0 = true ∧ (s.vPois 4).getLsbD 0 = true) ∧
    (let s := base.onMe fun t => t.setV 4 (t.vr 4) 0x8000000000000000
     (s.kr 0).getLsbD 63 = true ∧ (s.vPois 4).getLsbD 63 = true ∧
       ∀ i, i < 63 → (s.kr 0).getLsbD i = true → (s.vPois 4).getLsbD i = false) :=
  ⟨⟨by decide, by decide⟩, by decide, by decide, by decide, ⟨⟨by decide, by decide⟩, by decide, by decide⟩, by decide⟩

/-! ### Memory, scratchpad and matrix instructions -/

/-- `base` with x4 = 0x20000, a byte of device memory; x5 = 8, x6 = 1. -/
def mem : State := withX (withX (withX base 4 0x20000 false) 5 8 false) 6 1 false

/-- `base` with ASID 1 host-shared, and an ATC entry that permits nothing at 0x20000. -/
def hostPaged : State :=
  { base.setBar (asent 1) 0xC000000000000001 with atc := [⟨0, 1, 0x20000, 4096, 0x20000, false, false, false⟩] }

theorem reaches_dev (s : State) (acc : Acc) (addr : Word) (lane x : Nat)
    (h : s.xlate (s.who s.me) acc addr = .at (.dev x) false) (hv : s.isVoted s.me = false) :
    s.reaches acc addr lane ⟨lane, addr, some (s.who s.me).asid, .dev x, false⟩ :=
  ⟨_, false, h, rfl, fun _ _ h => by rw [hv] at h; cases h⟩

theorem witness_ScalarMemoryIssues :
    mem.cleared g0 [7, 4, 0] [] ∧ mem.xPois 4 = false ∧ mem.xPois 0 = false ∧ mem.room 2 1 ∧
    ((mem.xr 4 + (mem.xr 0 <<< sizeLog .s64) + (16#16).signExtend 64).toNat % 8 = 0 ∧
      mem.reaches .load 0x20010 0 ⟨0, 0x20010, some 1, .dev 0x20010, false⟩ ∧
      mem.reaches .store 0x20010 0 ⟨0, 0x20010, some 1, .dev 0x20010, false⟩) ∧
    (mem.xr 4 + (mem.xr 0 <<< sizeLog .s64) + (1#16).signExtend 64).toNat % 8 ≠ 0 ∧ poisoned.xPois 6 = true ∧
    (let s := withX base 6 0x80000000000000 false
     s.cleared g0 [7, 6, 0] [] ∧ ∃ c i, s.xlate (s.who s.me) .load (s.xr 6) = .fail c i) ∧
    (∀ p ∈ [false, true],
      let q : List PageReq := [⟨⟨0, 1, 0x20000, .load⟩, 0, true, []⟩]
      let s : State := if p then { hostPaged with atc := [], pri := q, priStopped := [0] } else hostPaged
      ∃ k, s.xlate (s.who s.me) .load 0x20000 = .page k ∧
        (s.pageAsked k = false ∨ s.priStopped.contains (s.asidFn k.asid) = true)) :=
  ⟨⟨by decide, by decide⟩, by decide, by decide, by unfold State.room; decide,
    ⟨by decide, reaches_dev _ _ _ _ _ (by decide) (by decide), reaches_dev _ _ _ _ _ (by decide) (by decide)⟩,
    by decide, by decide, ⟨⟨by decide, by decide⟩, _, _, rfl⟩, fun p _ => ⟨⟨0, 1, 0x20000, .load⟩, by cases p <;> decide, by cases p <;> decide⟩⟩

theorem witness_AtomicsIssue :
    mem.cleared g0 [7, 4, 5] [] ∧ mem.cleared g0 [7, 4, 5, 6] [] ∧ mem.xPois 4 = false ∧
    (mem.xr 4 + (0#16).signExtend 64).toNat % 8 = 0 ∧ mem.room 2 1 ∧
    mem.reaches (.atomic .add .die) 0x20000 0 ⟨0, 0x20000, some 1, .dev 0x20000, false⟩ ∧
    mem.reaches (.atomic .cas .die) 0x20000 0 ⟨0, 0x20000, some 1, .dev 0x20000, false⟩ ∧
    mem.reaches (.atomic .fmin .die) 0x20000 0 ⟨0, 0x20000, some 1, .dev 0x20000, false⟩ :=
  ⟨⟨by decide, by decide⟩, ⟨by decide, by decide⟩, by decide, by decide, by unfold State.room; decide,
    reaches_dev _ _ _ _ _ (by decide) (by decide), reaches_dev _ _ _ _ _ (by decide) (by decide),
    reaches_dev _ _ _ _ _ (by decide) (by decide)⟩

/-- INCW and DECW where their cases meet. -/
theorem test_wrapping_increments :
    atomInt .incw 5#32 5 0 = 0 ∧ atomInt .incw 4#32 5 0 = 5 ∧ atomInt .decw 0#32 5 0 = 5 ∧
    atomInt .decw 6#32 5 0 = 5 ∧ atomInt .decw 5#32 5 0 = 4 := by decide

/-- `mem` with k1 naming lanes 0 and 63, v2 = the offset 4 in lane 63. -/
def lanes : State := mem.onMe fun t => (t.setK 1 0x8000000000000001).setV 2 ((t.vr 2).set 63 4) 0

def lanesAt (acc : Acc) (addr : Nat → Word) (x : Nat → Nat) : Prop :=
  lanes.lanesReach acc addr (fun _ => false) (lanes.kr 1)
    [⟨0, addr 0, some 1, .dev (x 0), false⟩, ⟨63, addr 63, some 1, .dev (x 63), false⟩]

theorem lanesAt_of (acc : Acc) (addr : Nat → Word) (x : Nat → Nat)
    (h0 : (addr 0).toNat % 4 = 0) (h63 : (addr 63).toNat % 4 = 0)
    (r0 : lanes.xlate (lanes.who lanes.me) acc (addr 0) = .at (.dev (x 0)) false)
    (r63 : lanes.xlate (lanes.who lanes.me) acc (addr 63) = .at (.dev (x 63)) false) : lanesAt acc addr x := by
  refine ⟨(by decide : [0, 63] = _), fun a ha => ?_⟩
  rcases List.mem_cons.1 ha with rfl | ha
  · exact ⟨rfl, h0, reaches_dev _ _ _ _ _ r0 (by decide)⟩
  · rcases List.mem_singleton.1 ha with rfl
    exact ⟨rfl, h63, reaches_dev _ _ _ _ _ r63 (by decide)⟩

/-- The last lane of a contiguous, a strided and a gathered access. -/
theorem witness_VectorMemoryIssues :
    lanes.cleared g0 [4, 5] [3] ∧ lanes.cleared g0 [4] [3, 2] ∧ lanes.room 2 1 ∧ lanes.room 2 2 ∧
    lanesAt .load (fun i => 0x20000 + .ofNat 64 (4 * i)) (fun i => 0x20000 + 4 * i) ∧
    lanesAt .store (fun i => 0x20000 + .ofNat 64 i * 8) (fun i => 0x20000 + 8 * i) ∧
    lanesAt (.atomic .fadd .die) (fun i => 0x20000 + 4 * (laneAt (lanes.vr 2) i).signExtend 64)
      (fun i => if i = 63 then 0x20010 else 0x20000) ∧
    (lanes.kr 1).getLsbD 0 = true ∧
    (⟨⟨63, 0x200FC, some 1, .dev 0x200FC, false⟩, [0, 0, 0, 0], false⟩ : Piece) ∈
      lanes.vecPieces 3 [⟨0, 0x20000, some 1, .dev 0x20000, false⟩, ⟨63, 0x200FC, some 1, .dev 0x200FC, false⟩] :=
  ⟨⟨by decide, by decide⟩, ⟨by decide, by decide⟩, by unfold State.room; decide, by unfold State.room; decide,
    lanesAt_of _ _ _ (by decide) (by decide) (by decide) (by decide),
    lanesAt_of _ _ _ (by decide) (by decide) (by decide) (by decide),
    lanesAt_of _ _ _ (by decide) (by decide) (by decide) (by decide), by decide, by decide⟩

/-- The last bytes of the crew's scratchpad, and the last word of a tile. -/
theorem witness_ScratchIssues :
    mem.cleared g0 [7, 4, 0] [] ∧ mem.xPois 4 = false ∧ mem.room 0 1 ∧
    mem.reachesLocal 0xFFFF8 8 0 ⟨0, 0xFFFF8, none, .tile 0xFFFF8, false⟩ ∧ mem.cleared g0 [4, 0] [3] ∧
    mem.lanesReachLocal (fun i => 0x1FC0 + .ofNat 64 (4 * i)) (fun _ => false)
      (fun i => (0x1FC0 : Word).toNat % 4096 + 4 * i < 4096) 0x8001
      [⟨0, 0x1FC0, none, .tile 0x1FC0, false⟩, ⟨15, 0x1FFC, none, .tile 0x1FFC, false⟩] ∧
    mem.lanesReachLocal (fun i => 0x1FC0 + .ofNat 64 i * 8) (fun _ => false) (fun _ => True) 0x8001
      [⟨0, 0x1FC0, none, .tile 0x1FC0, false⟩, ⟨15, 0x2038, none, .tile 0x2038, false⟩] := by
  refine ⟨⟨by decide, by decide⟩, by decide, by unfold State.room; decide, ⟨by decide, by decide, by decide⟩,
    ⟨by decide, by decide⟩, ⟨by decide, fun a ha => ?_⟩, by decide, fun a ha => ?_⟩ <;>
  · rcases List.mem_cons.1 ha with rfl | ha
    · exact ⟨rfl, by decide, by decide, by decide, by decide⟩
    · rcases List.mem_singleton.1 ha with rfl
      exact ⟨rfl, by decide, by decide, by decide, by decide⟩

/-- A poisoned base, a misaligned address, an address past the scratchpad, and one that nothing maps. -/
theorem witness_MemoryTraps :
    (poisoned.cleared g0 [7, 6, 0] [] ∧ poisoned.xPois 6 = true) ∧
    mem.cleared g0 [7, 6, 0] [] ∧ ¬(mem.xPois 6 = true ∨ mem.xPois 0 = true) ∧
    (mem.xr 6 + (mem.xr 0 <<< sizeLog .s16) + (0#16).signExtend 64).toNat % 2 ^ sizeLog .s16 ≠ 0 ∧
    (let s := withX base 6 0x100000 false
     s.cleared g0 [7, 6, 0] [] ∧ (s.xr 6).toNat % 2 ^ sizeLog .s16 = 0 ∧
       s.inTiles (s.xr 6) (2 ^ sizeLog .s16) = false) ∧
    (let s := withX base 6 0x80000000000000 false
     s.cleared g0 [7, 6, 0] [] ∧ ∃ c i, s.xlate (s.who s.me) .load (s.xr 6) = .fail c i) :=
  ⟨⟨⟨by decide, by decide⟩, by decide⟩, ⟨by decide, by decide⟩, by decide, by decide,
    ⟨⟨by decide, by decide⟩, by decide, by decide⟩, ⟨by decide, by decide⟩, _, _, rfl⟩

/-- Tiles 255 and 254, accumulator 7. -/
theorem witness_MatrixWrites :
    let s := withX (withX base 4 255 false) 5 254 false
    s.crew? s.me.key.crew = some fetchCrew ∧ s.tileOk 255 ∧ s.tileOk 254 ∧ (7#3).toNat < s.me.ids.accCount.toNat ∧
    s.matFree [255, 254] 7 ∧ s.matFree [255, 254, 255] 7 ∧ s.matFree [] 7 ∧ s.matFree [255] 7 ∧
    s.guardOn g0 = true ∧ s.cleared g0 [4, 5] [] ∧ s.cleared g0 [4] [] ∧ s.cleared g0 [4, 5, 4] [] ∧
    s.cleared g0 [] [3] ∧ s.xPois 4 = false ∧ s.xPois 5 = false ∧
    (255 : Word) = (255#8).setWidth 64 ∧ (254 : Word) = s.xr 5 :=
  ⟨rfl, ⟨by decide, by decide⟩, ⟨by decide, by decide⟩, by decide, ⟨by decide, by decide⟩,
    ⟨by decide, by decide⟩, ⟨by decide, by decide⟩, ⟨by decide, by decide⟩, by decide, ⟨by decide, by decide⟩,
    ⟨by decide, by decide⟩, ⟨by decide, by decide⟩, ⟨by decide, by decide⟩, by decide, by decide, by decide, by decide⟩

/-- The last column slot of a 32-bit, of an 8-bit and of a 4-bit destination. -/
theorem witness_MatrixStores :
    let s := withX base 4 255 false
    s.cleared g0 [4] [] ∧ s.cleared g0 [1, 4, 5] [] ∧ s.xPois 4 = false ∧ s.tileOk (s.xr 4) ∧
    (7#3).toNat < s.me.ids.accCount.toNat ∧ s.matFree [(s.xr 4).toNat] 7 ∧
    (ElemType.f32.width * 4 * ((0#3).toNat + 1) ≤ 128 ∧ ElemType.e4m3.width * 4 * ((3#3).toNat + 1) ≤ 128 ∧
      ElemType.e2m1.width * 4 * ((7#3).toNat + 1) ≤ 128) ∧
    s.parkedTile? s.me.core (s.me.ids.tileBase.toNat + (s.xr 4).toNat) = none ∧
    s.me.ids.tileBase.toNat + (s.xr 4).toNat < 256 :=
  ⟨⟨by decide, by decide⟩, ⟨by decide, by decide⟩, by decide, ⟨by decide, by decide⟩, by decide,
    ⟨by decide, by decide⟩, by decide, by decide, by decide⟩

/-! ### Tiles, handles, barriers, tasks, copies and rings -/

/-- `base` with tile 255 FULL with XDONE 3, tile 254 POISON, x4 a token for tile 7 and x5 for tile 7 at offset 64. -/
def tiled : State :=
  withX (withX { base with tags := [(254, ⟨3, 0, 0, false, 0, 0⟩), (255, ⟨2, 0, 3, true, 9, 0⟩)] } 4 (gtOf 0 7) false) 5
    (gtOf 0 7 + 64) false

theorem target_ok (w : Word) (h : tiled.targetDenied 0 false w = none) : tiled.targetOk w := ⟨by decide, h⟩

/-- TARM where XDONE equals n, and where it is below it; TWAIT of a FULL and of a POISON tile. -/
theorem witness_TagInstructions :
    tiled.cleared g0 (4 :: tileRegs (.imm 254)) [] ∧ tiled.namesTileNo (.imm 255) 255 ∧ tiled.namesTileNo (.imm 0) 0 ∧
    (tiled.xPois 4 = false ∧ tiled.xr 4 ≠ 0 ∧ gtWellFormed (tiled.xr 4) = true ∧ gtOffset (tiled.xr 4) = 0 ∧
      (tiled.tag 0 0).state ≠ 2 ∧ (tiled.tag 0 0).state ≠ 3 ∧ (tiled.tag 0 0).xdone.toNat ≤ (0#6).toNat ∧
      (tiled.tag 0 0).xdone.toNat ≤ (1#6).toNat) ∧
    tiled.targetOk (tiled.xr 4) ∧ tiled.cleared g0 (tileRegs (.imm 255)) [] ∧
    ((tiled.tag 0 255).state = 2 ∧ (tiled.tag 0 254).state = 3 ∧ tiled.takePending 0 255 = false) ∧ tiled.room 3 1 ∧
    tiled.cleared g0 (1 :: tileRegs (.imm 255)) [] :=
  ⟨⟨by decide, by decide⟩, ⟨by decide, by decide, by decide⟩, ⟨by decide, by decide, by decide⟩, by decide,
    target_ok _ (by decide), ⟨by decide, by decide⟩, by decide, by unfold State.room; decide, ⟨by decide, by decide⟩⟩

/-- A whole tile of source, and the last 256 bytes of one of destination. -/
theorem witness_TransfersIssue :
    let s := withX (withX tiled 6 0xFF000 false) 7 4096 false
    s.cleared g0 [6, 4] [] ∧ s.cleared g0 [6, 4, 7] [] ∧ s.cleared g0 [4] [3] ∧
    (s.xPois 6 = false ∧ s.xPois 4 = false ∧ s.xPois 7 = false) ∧ s.room 2 1 ∧
    ((s.xr 6).toNat % 4 = 0 ∧ (s.xr 6).toNat < 2 ^ 20 ∧ (s.xr 6).toNat / 4096 < s.me.ids.tileCount.toNat ∧
      (s.xr 7).toNat % 4 = 0 ∧ 4 ≤ (s.xr 7).toNat ∧ (s.xr 7).toNat ≤ 4096 ∧
      (s.xr 6).toNat % 4096 + (s.xr 7).toNat ≤ 4096) ∧
    (gtWellFormed (s.xr 4) = true ∧ gtOffset (s.xr 4) % 4 = 0 ∧ gtOffset (s.xr 4) + 4096 ≤ 4096 ∧
      s.targetOk (s.xr 4)) ∧
    gtOffset (s.xr 5) + 256 ≤ 4096 ∧ gtOffset (s.xr 4) = 0 :=
  ⟨⟨by decide, by decide⟩, ⟨by decide, by decide⟩, ⟨by decide, by decide⟩, by decide, by unfold State.room; decide,
    by decide, ⟨by decide, by decide, by decide, ⟨by decide, by decide⟩⟩, by decide, by decide⟩

theorem witness_HandleInstructions :
    (tiled.guardOn g0 = true ∧ tiled.allPerformed (tiled.earlier tiled.me 3) .die = true) ∧
    tiled.room 3 1 ∧ tiled.room 4 1 ∧ (∀ h : HReg, tiled.room h 1) ∧ (3 : HReg) ≠ 4 ∧
    tiled.cleared g0 [4] [] ∧ tiled.xPois 4 = false ∧ gtWellFormed (tiled.xr 4) = true ∧ gtOffset (tiled.xr 4) = 0 ∧
    tiled.targetOk (tiled.xr 4) ∧ tiled.cleared g0 [6] [] ∧ tiled.namesTileNo (.reg 6) 0 :=
  ⟨by decide, by unfold State.room; decide, by unfold State.room; decide, by unfold State.room; decide, by decide,
    ⟨by decide, by decide⟩, by decide, by decide, by decide, target_ok _ (by decide), ⟨by decide, by decide⟩,
    by decide, by decide, by decide, by decide⟩

/-- EXPECT 1 and 64, an operand of 2^31 − 1, a phase that differs and one that does not. -/
theorem witness_BarrierInstructions :
    let s := withX (withX (withX base 4 64 false) 5 0x7FFFFFFF false) 6 1 false
    s.cleared g0 (4 :: tileRegs (.imm 127)) [] ∧ s.cleared g0 (1 :: 5 :: tileRegs (.imm 127)) [] ∧
    s.cleared g0 (tileRegs (.imm 127)) [] ∧ s.namesBar (.imm 127) 127 ∧ s.room 2 1 ∧
    (s.xPois 4 = false ∧ 1 ≤ (s.xr 6).toNat ∧ (s.xr 4).toNat ≤ 64 ∧ (s.xr 5).toNat < 2 ^ 31) ∧
    (let b := s.barrier 0 127
     b.arrived = 0 ∧ b.cur = 0 ∧ b.next = 0 ∧ b.poison = false ∧ b.phase ≠ (s.xr 6).setWidth 16 ∧
       b.phase = (s.xr 0).setWidth 16) :=
  ⟨⟨by decide, by decide⟩, ⟨by decide, by decide⟩, ⟨by decide, by decide⟩, ⟨by decide, by decide, by decide⟩,
    by unfold State.room; decide, by decide, by decide⟩

theorem witness_TaskInstructions :
    mem.cleared g0 [4] [] ∧ (mem.me.isInsole = false ∧ mem.xPois 4 = false ∧ (mem.xr 4).toNat % 64 = 0 ∧
      mem.me.parted? = none) ∧
    mem.crew? mem.me.key.crew = some fetchCrew ∧ fetchCrew.voted = false ∧ mem.overlapping (mem.xr 4) 64 = [] ∧
    (∀ n, n < 64 → (∃ pin, mem.xlate (mem.who mem.me) .load (mem.xr 4 + .ofNat 64 n) = .at (.dev (0x20000 + n)) pin) ∧
      (Place.dev (0x20000 + n)).isRemote = false ∧ (mem.readHome (.dev (0x20000 + n)) 1 .none).2 = false) ∧
    (mem.me.live = true ∧ mem.onCore mem.me = true ∧ mem.xr 4 ≠ 0 ∧ mem.xr 0 = 0 ∧ supervisor.me.level ≠ .program) :=
  ⟨⟨by decide, by decide⟩, by decide, rfl, rfl, by decide, by decide, by decide⟩

/-- What SPAWN's read gives, as a number: 0 refused, 1 a wait, else 2, and 1 more for poison. -/
def readKind : SpawnRead → Nat
  | .refused => 0
  | .wait _ => 1
  | .bytes _ p _ => 2 + p.toNat

def readsFar (v : Via) : SpawnRead → Bool
  | .bytes _ _ (some (.remote w _, _)) => v == w
  | _ => false

/-- A record at an address that no space reaches; one of a voted crew at an aligned address, and one at an address that
is not; one with a poisoned word; one of another package; and a SPAWN that a trap has taken out of its vote. -/
theorem witness_TaskInstructions_records :
    (let s := withX base 4 0x80000000000000 false
     s.cleared g0 [4] [] ∧ s.xPois 4 = false ∧ s.overlapping (s.xr 4) 64 = [] ∧
       readKind (s.countIssue.spawnRead (s.xr 4) 1 64) = 0) ∧
    (let s : State := { mem with crews := [{ fetchCrew with voted := true }] }
     (∃ bs a pin, s.countIssue.spawnRead (s.xr 4) 1 64 = .bytes bs false (some (.dev a, pin))) ∧
       (∃ tag, s.voteTag? s.me s.me.appended spawnPart = some tag) ∧ s.votes = []) ∧
    (let s := withX mem 4 0x20004 false
     (s.xr 4).toNat % 64 ≠ 0 ∧ readKind (s.countIssue.spawnRead (s.xr 4) 1 64) = 2) ∧
    (let s : State := { mem with dev := mem.dev.store 0x2003C [1, 2, 3, 4] true }
     ∃ bs a pin, s.countIssue.spawnRead (s.xr 4) 1 64 = .bytes bs true (some (.dev a, pin))) ∧
    (let s : State := { (mem.setBar (windowReg 0 3 0) 0x800000070000002A).setBar (windowReg 0 3 8) 0x8000000000000 with
       tlb := [⟨0, 1, 0, 2 ^ 42, 0x800000000003F⟩] }
     readsFar ⟨0, 3, 7, 0, false⟩ (s.countIssue.spawnRead (s.xr 4) 1 64) = true) ∧
    (let q : Parted := ⟨mem.me.pc, 4, none⟩
     let s := mem.onMe fun t => { t with parted := some q }
     s.cleared g0 [4] [] ∧ s.me.parted? = some q ∧ q.result = none) := by
  refine ⟨⟨⟨by decide, by decide⟩, by decide, by decide, by decide⟩, ⟨⟨_, _, _, rfl⟩, ⟨_, rfl⟩, rfl⟩,
    ⟨by decide, by decide⟩, ⟨_, _, _, rfl⟩, by decide, ⟨by decide, by decide⟩, by decide, rfl⟩

/-- A layout of 256 bytes of the crew's tiles (space 1, rank 1, type 0), and a block that fills its elements. -/
def layoutWords : List Byte := bytesOf 8 0x3000 ++ [1, 0, 1, 0] ++ bytesOf 4 0 ++ bytesOf 4 256 ++ List.replicate 44 0
def fillWords : List Byte :=
  [2, 0, 0, 0, 0, 0, 0, 0] ++ bytesOf 4 0x55 ++ List.replicate 28 0 ++ [255, 0, 1, 0, 1, 0, 1, 0] ++ List.replicate 16 0

/-- The layout at 0x1000 and set as entry 0, the block at 0x1040, and a job queued in slot 63 of cluster 0. -/
def copying : State :=
  let s := withX (withX base 4 0x1000 false) 5 0x1040 false
  let s := { s with
    tiles := s.tiles.store 0x1000 (layoutWords ++ fillWords) false
    crews := [{ fetchCrew with layouts := setNth fetchCrew.layouts 0 layoutWords }] }
  let j := { s.newJob fillWords 0x1040 63 none 2 with state := .queued }
  withX { s with jobs := [j] } 6 (ticket 0 63 0) false

set_option maxRecDepth 4000 in
theorem witness_CopyInstructions :
    copying.cleared g0 (4 :: entryRegs (.imm 3)) [] ∧ copying.cleared g0 [1, 5] [] ∧ copying.cleared g0 [1, 6] [] ∧
    copying.blockOk 4 ∧ copying.blockOk 5 ∧ copying.namesEntry (.imm 3) 3 ∧ copying.storesTo (copying.xr 4) = [] ∧
    layoutError? (copying.readTile (copying.localAddr (copying.xr 4)) 64).1 = none ∧
    copying.storesTo (copying.xr 5) = [] ∧
    (let bs := (copying.readTile (copying.localAddr (copying.xr 5)) 64).1
     copying.blockError? bs = none ∧ (Block.ofBytes bs).doneKind ≠ 3) ∧
    copying.room 2 1 ∧ copying.freeSlots copying.me.cluster ≠ [] ∧ copying.xPois 6 = false :=
  ⟨⟨by decide, by decide⟩, ⟨by decide, by decide⟩, ⟨by decide, by decide⟩, ⟨by decide, by decide, by decide⟩,
    ⟨by decide, by decide, by decide⟩, ⟨by decide, by decide, by decide⟩, by decide, by decide, by decide,
    by decide, by unfold State.room; decide, by decide, by decide⟩

theorem witness_CopyInstructions_tickets :
    copying.ticketOk (copying.xr 6) ∧ (∃ j, copying.jobOf (copying.xr 6) = some j ∧
      (copying.leaderOf j).state.alive = true) ∧
    base.ticketOk 0 ∧ base.jobOf (base.xr 6) = none ∧ base.xPois 6 = false ∧ base.cleared g0 [6] [] :=
  ⟨⟨by decide, by decide, by decide, by decide, by decide⟩, ⟨_, rfl, by decide⟩,
    ⟨by decide, by decide, by decide, by decide, by decide⟩, by decide, by decide, ⟨by decide, by decide⟩⟩

/-- Ring 5 of partition 0, a PROGRAM-mode ring of 16 four-byte samples, with HEAD 8 and a candidate at sample 4. -/
def ringed : State :=
  withX (withX { base with
    bar0 := [(0x100, 0x401), (0x300000, 0x4000000000000000), (0x310000, 0x8000000000000000),
      (0x310008, num (2 ^ 36 - 2 ^ 21)), (0x320028, 0x8000000000000000), (0x400010, 0x8000000000000000)]
    ringRegs := [(80, 0xC040020000000000), (81, 0x40000), (82, 0x50000), (84, 8), (85, 4), (93, 0x60000),
      (95, 0x1000000000000)]
    tlb := [⟨0, 1, 0, 2 ^ 42, 0x3F⟩, ⟨3005, 1, 0, 2 ^ 42, 0x3F⟩]
    rings := [(5, { RingUnit.fresh ⟨1, 0⟩ with stopping := false, started := true, queues := [[⟨4, 9⟩], [], [], []] })] }
    4 0xFFF0000000000005 false) 6 4 false

/-- RGREAD of a tile's last samples, from the first retained sample. -/
theorem witness_RingInstructions :
    ringed.cleared g0 [5, 4, 6] [] ∧ ringed.cleared g0 [1, 5, 4, 7] [] ∧ ringed.cleared g0 [1, 4] [] ∧
    ringed.cleared g0 [62, pairOf 62, 4] [] ∧ ringed.cleared g0 [62, pairOf 62, 4, 1] [] ∧
    ringed.ownRing 4 5 ∧ ringed.room 2 1 ∧
    ((ringed.xPois 5 = false ∧ ringed.xPois 6 = false) ∧ (ringed.xr 5).toNat % min (ringed.rgSize 5) 4 = 0 ∧
      ringed.inTiles (ringed.xr 5) ((ringed.xr 6).toNat * ringed.rgSize 5) = true) ∧
    (∃ r, ringed.countIssue.readSamples 5 ((ringed.xr 6).toNat % 2 ^ 48) 2 = .ok r ∧
      r.2 = [([0, 0, 0, 0], false), ([0, 0, 0, 0], false)]) ∧
    ((62 : XReg).toNat % 2 = 0 ∧ ringed.rgDepth 5 (fieldOf (ringed.xr 4) 7 6) ≠ 0 ∧
      ringed.takeable? 5 (fieldOf (ringed.xr 4) 7 6) = some ⟨4, 9⟩) ∧
    ∃ u, ringed.countIssue.takeCand 5 (fieldOf (ringed.xr 4) 7 6) ringed.me.part ringed.me.key.crew ⟨4, 9⟩ = .ok u :=
  ⟨⟨by decide, by decide⟩, ⟨by decide, by decide⟩, ⟨by decide, by decide⟩, ⟨by decide, by decide⟩,
    ⟨by decide, by decide⟩, ⟨by decide, by decide, by decide, by decide, by decide, by decide⟩,
    by unfold State.room; decide, by decide, ⟨_, rfl, by decide⟩, by decide, _, rfl⟩

/-- `ringed` with window 3 of partition 0 open to node 7 and not secure, X[4] naming ring 5 there; RGREAD of a ring
whose storage no space reaches, and of one whose translation is still to be asked for. -/
theorem witness_RingInstructions_far :
    (let s := withX (ringed.setBar (windowReg 0 3 0) 0x8000000700000000) 4 0x0070000000000005 false
     s.farRing? 4 ⟨0, 3, 7, 0, false⟩ ∧ s.cleared g0 [1, 4] [] ∧ s.cleared g0 [62, pairOf 62, 4] [] ∧
       s.ringVia 4 (some ⟨0, 3, 7, 0, false⟩) ∧ (s.bar (windowReg 0 3 0)).getLsbD 61 = false) ∧
    (∃ a, (ringed.setRing 5 1 0x80000000000000).countIssue.readSamples 5 4 1 = .error (.fault a)) ∧
    ∃ k ats, (ringed.setBar (asent 1) 0xC000000000000001).countIssue.readSamples 5 4 1 = .error (.wait k ats) :=
  ⟨⟨⟨by decide, by decide, by decide, by decide, by decide, by decide⟩, ⟨by decide, by decide⟩, ⟨by decide, by decide⟩,
    ⟨by decide, by decide, by decide, by decide, by decide, by decide, by decide⟩, by decide⟩, ⟨_, rfl⟩, _, _, rfl⟩

/-- RGPUT on the own ring, and on another node's with every sample size; TRGNEXT at a level without candidates and at
one without a queue. -/
theorem witness_RingInstructions_more :
    ringed.ringVia 4 none ∧
    (let s := withX (ringed.setBar (windowReg 0 3 0) 0x8000000700000000) 4 0x0070000000000005 false
     s.cleared g0 [5, 4, 6] [] ∧ s.room 2 1 ∧ (s.xPois 5 = false ∧ s.xPois 6 = false) ∧
       ∀ z ∈ [2, 4, 8, 16, 32, 64], (s.xr 5).toNat % min z 4 = 0 ∧ s.inTiles (s.xr 5) ((s.xr 6).toNat * z) = true) ∧
    (∃ l, l < 4 ∧ ringed.rgDepth 5 l ≠ 0 ∧ ({ ringed with rings := [] } : State).takeable? 5 l = none) ∧
    (ringed.rgDepth 5 3 = 0 ∧ ringed.me.isInsole = false) :=
  ⟨⟨by decide, by decide, by decide, by decide, by decide, by decide, by decide⟩, ⟨⟨by decide, by decide⟩, by unfold State.room; decide, by decide, by decide⟩,
    ⟨0, by decide, by decide, by decide⟩, by decide, by decide⟩

theorem witness_SystemWrites_rings :
    let s := withX (ringed.onMe fun t => { t with level := .supervisor }) 7 0x4040020000000000 false
    s.mayUse 0x850 true ∧ (∃ u, s.countIssue.ringWrite ((0x850 - 0x800) / 16) (0x850 % 16) (s.xr 7) = some u) ∧
    supervisor.mayUse 0x209 true ∧ supervisor.mayUse 0x20A true ∧
    supervisor.asidHost supervisor.me.asid.toNat = false ∧ (0x10000 : Word).toNat % 2 ^ 16 = 0 ∧
    (hbmEnd - 0x10000) % 2 ^ 16 = 0 :=
  ⟨⟨by decide, by decide, by decide, by decide⟩, ⟨_, rfl⟩, ⟨by decide, by decide, by decide, by decide⟩,
    ⟨by decide, by decide, by decide, by decide⟩, by decide, by decide, by decide⟩

/-! ### Vectors -/

/-- `base` with k1 naming lane 0; v1 lane 0 = the bytes 7F 80 01 FF, v2 lane 0 = 01 FF 02 01; v4 and v5 hold 1.0 and
3.0 in lane 0. -/
def vectors : State := base.onMe fun t =>
  ((((t.setK 1 1).setV 1 ((t.vr 1).set 0 0xFF01807F) 0).setV 2 ((t.vr 2).set 0 0x0102FF01) 0).setV 4
    ((t.vr 4).set 0 0x3F800000) 0).setV 5 ((t.vr 5).set 0 0x40400000) 0

theorem elemsAre_of (w : Nat) (lanes : Nat → Lane) (f : Nat → Nat → BitVec w)
    (h : ∀ n, n < 64 → ∀ j, j < 32 / w → (lanes n).extractLsb' (w * j) w = f n j) : ElemsAre w lanes f :=
  fun n j hn hj => h n hn j hj

/-- VADDS.I8 and VADDS.N8: 127 + 1 and −128 − 1 saturate as integers, 255 + 1 as a natural number. -/
theorem witness_VectorIntegers :
    vectors.cleared g0 [] [3, 1, 2] ∧ vectors.cleared g0 [] [3, 1] ∧ vectors.cleared g0 [] [3, 1, 2, 3] ∧
    ElemsAre 8 (fun n => if n = 0 then 0x0003807F else 0) (fun n j =>
      .ofInt 8 (max (-(2 ^ (8 - 1))) (min (2 ^ (8 - 1) - 1)
        ((laneElem 8 (vectors.vr 1) n j).toInt + (laneElem 8 (vectors.vr 2) n j).toInt)))) ∧
    ElemsAre 8 (fun n => if n = 0 then 0xFF03FF80 else 0) (fun n j =>
      .ofInt 8 (max 0 (min (2 ^ 8 - 1)
        (((laneElem 8 (vectors.vr 1) n j).toNat : Int) + ((laneElem 8 (vectors.vr 2) n j).toNat : Int))))) :=
  ⟨⟨by decide, by decide⟩, ⟨by decide, by decide⟩, ⟨by decide, by decide⟩, elemsAre_of _ _ _ (by decide),
    elemsAre_of _ _ _ (by decide)⟩

/-- With only lane 0 unmasked, a condition over the unmasked lanes is one on lane 0. -/
theorem lane_zero (p : Nat → Prop) : (∃ n, n < 64 ∧ (vectors.kr 1).getLsbD n = true ∧ p n) ↔ p 0 := by
  have h : ∀ n, n < 64 → (vectors.kr 1).getLsbD n = true → n = 0 := by decide
  exact ⟨fun ⟨n, hn, hk, hp⟩ => h n hn hk ▸ hp, fun hp => ⟨0, by decide, by decide, hp⟩⟩

/-- VFDIV of 1.0 by 3.0 is inexact, whatever the masked lanes hold. -/
theorem witness_VectorFloats :
    let r := fun n j => fDiv .f32 .rne (laneElem 32 (vectors.vr 4) n j).toNat (laneElem 32 (vectors.vr 5) n j).toNat
    vectors.cleared g0 [] [3, 4, 5] ∧ vectors.cleared g0 [] [3, 4] ∧
    ElemsAre 32 (fun n => .ofNat 32 (r n 0).code) (fun n j => .ofNat 32 (r n j).code) ∧
    (r 0 0).flags ≠ 0 ∧
    ∀ b, b < 5 → ((r 0 0).flags.getLsbD b = true ↔
      ∃ n j, n < 64 ∧ j < 32 / 32 ∧ (vectors.kr 1).getLsbD n = true ∧ (r n j).flags.getLsbD b = true) := by
  refine ⟨⟨by decide, by decide⟩, ⟨by decide, by decide⟩, elemsAre_of _ _ _ fun n _ j hj => ?_, by decide, fun b _ => ?_⟩
  · obtain rfl : j = 0 := by omega
    simp
  · refine ⟨fun h => ⟨0, 0, by decide, by decide, by decide, h⟩, fun ⟨n, j, hn, hj, hk, h⟩ => ?_⟩
    obtain rfl : j = 0 := by omega
    exact (lane_zero fun n => (fDiv .f32 .rne (laneElem 32 (vectors.vr 4) n 0).toNat
      (laneElem 32 (vectors.vr 5) n 0).toNat).flags.getLsbD b = true).1 ⟨n, hn, hk, h⟩

/-- The last part of a narrowing and of a widening, and the only one of a same-width conversion. -/
theorem witness_VectorConversions :
    vectors.cleared g0 [] [3, 1, 2] ∧ vectors.cleared g0 [] [3, 1] ∧ vectors.cleared g0 [6] [3, 1] ∧
    ((7#3).toNat * ElemType.e2m1.width < ElemType.f32.width ∧ (3#3).toNat * ElemType.e4m3.width < ElemType.f32.width ∧
      (0#3).toNat * ElemType.f32.width < ElemType.i32.width) :=
  ⟨⟨by decide, by decide⟩, ⟨by decide, by decide⟩, ⟨by decide, by decide⟩, by decide⟩

theorem witness_VectorMoves :
    vectors.cleared g0 [] [3, 1, 2] ∧ vectors.cleared g0 [1] [3] ∧ vectors.cleared g0 [1, 2] [3] ∧
    vectors.cleared g0 [1] [3, 2] ∧ vectors.cleared g0 [] [3, 3] :=
  ⟨⟨by decide, by decide⟩, ⟨by decide, by decide⟩, ⟨by decide, by decide⟩, ⟨by decide, by decide⟩, ⟨by decide, by decide⟩⟩

/-- An FLT of a NaN in lane 0 (v1 lane 0 is one) raises INVALID or nothing, as FCMP says of that lane. -/
theorem witness_VectorCompares :
    vectors.cleared g0 [] [1, 2] ∧
    (∀ n, n < 64 → (vectors.kr 1).getLsbD n = true →
      (vectors.vPois 1).getLsbD n = false ∧ (vectors.vPois 2).getLsbD n = false) ∧
    ∀ b, b < 5 → ((fCompare .f32 .flt (laneAt (vectors.vr 1) 0).toNat (laneAt (vectors.vr 2) 0).toNat).2.getLsbD b = true ↔
      ∃ n, n < 64 ∧ (vectors.kr 1).getLsbD n = true ∧
        (fCompare .f32 .flt (laneAt (vectors.vr 1) n).toNat (laneAt (vectors.vr 2) n).toNat).2.getLsbD b = true) :=
  ⟨⟨by decide, by decide⟩, by decide, fun b _ => (lane_zero fun n =>
    (fCompare .f32 .flt (laneAt (vectors.vr 1) n).toNat (laneAt (vectors.vr 2) n).toNat).2.getLsbD b = true).symm⟩

/-- Lane 3 of v1 and lane 63 of v2 are poisoned, and the mask names both. -/
theorem witness_VectorCompares_poison :
    let s := base.onMe fun t =>
      ((t.setK 1 0x8000000000000008).setV 1 (t.vr 1) 0xB).setV 2 (t.vr 2) 0x8000000000000000
    let bad := fun n => (s.kr 1).getLsbD n = true ∧ ((s.vPois 1).getLsbD n = true ∨ (s.vPois 2).getLsbD n = true)
    s.cleared g0 [] [1, 2] ∧ bad 3 ∧ ∀ m, m < 3 → ¬ bad m :=
  ⟨⟨by decide, by decide⟩, by decide, by decide⟩

theorem witness_MasksAndDots :
    vectors.guardOn g0 = true ∧ vectors.cleared g0 [6] [] ∧ vectors.xPois 6 = false ∧ poisoned.cleared g0 [6] [] ∧
    poisoned.xPois 6 = true ∧ vectors.cleared g0 [] [3, 1, 2, 4] ∧ vectors.cleared g0 [3] [1, 2, 4] :=
  ⟨by decide, ⟨by decide, by decide⟩, by decide, ⟨by decide, by decide⟩, by decide, ⟨by decide, by decide⟩,
    ⟨by decide, by decide⟩⟩

/-! ### Items at the heads of queues -/

/-- The strand of `base`, with one item on handle 2. -/
def heading (s : State) (b : Body) : State := s.onMe fun t => t.append 2 b

def key : StrandKey := ⟨1, 0⟩

/-- Window 3 of partition 0, to node 7. -/
def far : Via := ⟨0, 3, 7, 0, false⟩

/-- `s` with node 7 routed over a port that is up. -/
def linked (s : State) : State := (s.setBar 0x3000 0x8000000000000000).setBar 0x80038 0x8000000000000001

def at_ (p : Place) : Access := ⟨0, 0x20000, some 1, p, false⟩
def local_ (a : Nat) : Access := ⟨0, num a, none, .tile a, false⟩

def loading (p : Place) : LoadItem := ⟨.x 7 true, [at_ p], 4, [], false, true, 0x10000, .acquire, .die⟩

/-- A store of two words to device memory, one to the last word of the core's own scratchpad, and one of two lanes
there, of which none or one is written. -/
theorem witness_MemoryItemsPerform_stores :
    (let i : StoreItem := ⟨[⟨at_ (.dev 0x20000), [1, 2, 3, 4], false⟩, ⟨at_ (.dev 0x20040), [5, 6, 7, 8], true⟩], .release, .die, []⟩
     let s := heading base (.store i)
     ∃ t e, s.freshHead key 2 = some (t, e) ∧ e.body = .store i ∧ s.releaseOk key 2 i.order i.scope = true ∧
       ∀ p ∈ i.pieces, p.access.place.isTile = false) ∧
    (let i : StoreItem := ⟨[⟨local_ 0xFFFFC, [1, 2, 3, 4], false⟩], .plain, .die, []⟩
     let s := heading base (.store i)
     ∃ t e, s.freshHead key 2 = some (t, e) ∧ e.body = .store i ∧ s.releaseOk key 2 i.order i.scope = true ∧
       (tileLeft i (s.isVoted t)).length ≤ 1 ∧
       (∀ p ∈ i.pieces, p.access.asid = none ∧ ∃ a, p.access.place = .tile a ∧ s.scratchUp (a / 2 ^ 24) = true ∧
         s.parkedTile? (a / 2 ^ 20) (a / 4096 % 256) = none)) ∧
    (let i : StoreItem := ⟨[⟨local_ 0xFFFF8, [1, 2, 3, 4], false⟩, ⟨{ local_ 0xFFFFC with lane := 1 }, [5, 6, 7, 8], false⟩],
       .plain, .die, []⟩
     let s := heading base (.store i)
     ∃ t e, s.freshHead key 2 = some (t, e) ∧ e.body = .store i ∧ s.releaseOk key 2 i.order i.scope = true ∧
       2 ≤ (tileLeft i (s.isVoted t)).length ∧ (tileLeft { i with written := [0] } (s.isVoted t)).length ≤ 1) := by
  refine ⟨⟨_, _, rfl, rfl, by decide, by decide⟩, ⟨_, _, rfl, rfl, by decide, by decide, fun p hp => ?_⟩,
    ⟨_, _, rfl, rfl, by decide, by decide, by decide⟩⟩
  rcases List.mem_singleton.1 hp with rfl
  exact ⟨rfl, _, rfl, by decide, by decide⟩

/-- A load of device memory that reads the home, and a read-only one that reads the copy its core holds. -/
theorem witness_MemoryItemsPerform_loads :
    (let l := { loading (.dev 0x20000) with scope := .package }
     let s := heading base (.load l)
     ∃ t e, s.freshHead key 2 = some (t, e) ∧ e.body = .load l ∧ l.todo[0]? = some (at_ (.dev 0x20000)) ∧
       s.isVoted t = false ∧ (copyRead t l (.dev 0x20000) = none ∧ s.homeUp (.dev 0x20000) ∧
         s.homeClear t.cluster (.dev 0x20000) 4 = true) ∧ t.live = true) ∧
    (let l := { loading (.dev 0x20000) with ro := true }
     let c : LineCopy := ⟨.core 0, .dev 0x20000, List.replicate 256 7, List.replicate 64 false⟩
     let s := heading { base with copies := [c] } (.load l)
     ∃ t e, s.freshHead key 2 = some (t, e) ∧ e.body = .load l ∧ l.todo[0]? = some (at_ (.dev 0x20000)) ∧
       copyRead t l (.dev 0x20000) = some (.core 0) ∧ s.copy? (.core 0) (Place.line (.dev 0x20000)) = some c) :=
  ⟨⟨_, _, rfl, rfl, rfl, by decide, ⟨by decide, rfl, by decide⟩, by decide⟩,
    ⟨_, _, rfl, rfl, rfl, by decide, rfl⟩⟩

/-- A load through a window, a copy's load of a value that its first copy left, and the last access of a load to a v
register and of a VLDB. -/
theorem witness_MemoryItemsPerform_more :
    (let l := { loading (.remote far 0x20000) with scope := .package }
     let s := heading (linked base) (.load l)
     ∃ t e, s.freshHead key 2 = some (t, e) ∧ e.body = .load l ∧ l.todo[0]? = some (at_ (.remote far 0x20000)) ∧
       copyRead t l (.remote far 0x20000) = none ∧ s.routed far.node = true ∧
       s.homeClear t.cluster (.remote far 0x20000) l.bytes = true) ∧
    (let l := loading (.dev 0x20000)
     let c := { fetchCrew with voted := true, copy := 1 }
     let s := heading { base with crews := [c], voteBufs := [⟨⟨1, 0, 0, 0, 0⟩, .dev 0x20000, 5, 0, [1, 2]⟩] } (.load l)
     ∃ t e b, s.freshHead key 2 = some (t, e) ∧ e.body = .load l ∧ l.todo[0]? = some (at_ (.dev 0x20000)) ∧
       s.crew? key.crew = some c ∧
       s.voteBufs.find? (fun b => b.tag == ⟨c.launch, c.index, key.idx, e.n, (at_ (.dev 0x20000)).lane⟩) = some b ∧
       c.copy ∈ b.waiting) ∧
    (∀ d ∈ [LoadDest.v 3, .all 3 5],
      let l := { loading (.dev 0x20000) with dest := d }
      let s := heading base (.load l)
      ∃ t e, s.freshHead key 2 = some (t, e) ∧ e.body = .load l ∧ l.todo = [at_ (.dev 0x20000)] ∧ l.got = [] ∧
        t.live = true) ∧
    (let i : AtomItem := ⟨.add, at_ (.remote far 0x20000), true, 1, 0, false, some 7, 0x10000, .plain, .package⟩
     let s := heading (linked base) (.atomic i)
     ∃ t e, s.freshHead key 2 = some (t, e) ∧ e.body = .atomic i ∧ s.routed far.node = true ∧
       s.releaseOk key 2 i.order i.scope = true ∧ s.homeClear t.cluster i.access.place 8 = true) := by
  refine ⟨⟨_, _, rfl, rfl, rfl, rfl, by decide, by decide⟩, ⟨_, _, _, rfl, rfl, rfl, rfl, rfl, by decide⟩, fun d hd => ?_,
    ⟨_, _, rfl, rfl, by decide, by decide, by decide⟩⟩
  simp only [List.mem_cons, List.not_mem_nil, or_false] at hd
  rcases hd with rfl | rfl <;> exact ⟨_, _, rfl, rfl, rfl, rfl, by decide⟩

/-- An atomic of device memory, and one of host memory. -/
theorem witness_MemoryItemsPerform_atomics :
    (let i : AtomItem := ⟨.add, at_ (.dev 0x20000), true, 1, 0, false, some 7, 0x10000, .acqRel, .die⟩
     let s := heading base (.atomic i)
     ∃ t e, s.freshHead key 2 = some (t, e) ∧ e.body = .atomic i ∧ s.isVoted t = false ∧
       s.releaseOk key 2 i.order i.scope = true ∧ s.homeUp i.access.place ∧
       s.homeClear t.cluster i.access.place 8 = true ∧ t.live = true) ∧
    (let i : AtomItem := ⟨.add, at_ (.host 0x20000), true, 1, 0, false, some 7, 0x10000, .plain, .die⟩
     let s := heading base (.atomic i)
     ∃ t e, s.freshHead key 2 = some (t, e) ∧ e.body = .atomic i ∧ i.access.place = .host 0x20000 ∧
       s.releaseOk key 2 i.order i.scope = true ∧ s.homeClear t.cluster i.access.place 8 = true ∧ t.live = true ∧
       t.events.length < 8) :=
  ⟨⟨_, _, rfl, rfl, by decide, by decide, rfl, by decide, by decide⟩,
    ⟨_, _, rfl, rfl, rfl, by decide, by decide, by decide, by decide⟩⟩

/-- A token, each tag item on a FULL tile, and an arrival whose expected bytes reach 2^31 − 1 or pass it. -/
theorem witness_OtherItemsPerform :
    (∀ v ∈ [none, some far],
      let i : TransferItem := ⟨.none, gtOf 0 7, v, .release, .package⟩
      let s := heading tiled (.transfer i)
      ∃ t e, s.freshHead key 2 = some (t, e) ∧ e.body = .transfer i ∧ s.releaseOk key 2 i.order i.scope = true ∧
        s.isVoted t = false) ∧
    (∀ k ∈ [TagKind.take, .mark, .pois, .scale 3, .zero],
      let s := heading tiled (.tag ⟨k, 255, 255, .die⟩)
      ∃ t e, s.freshHead key 2 = some (t, e) ∧ e.body = .tag ⟨k, 255, 255, .die⟩ ∧
        s.parkedTile? t.core 255 = none ∧ t.live = true ∧ t.events.length < 8 ∧ (s.tag t.core 255).state = Tag.full) ∧
    ((tiled.tag 0 254).state = Tag.poison ∧ (tiled.tag 0 253).state = Tag.empty) ∧
    (∀ w ∈ [0x7FFFFFFF, 0x80000000],
      let i : BarItem := ⟨3, 3, true, some w, some 7, .die⟩
      let s := heading { base with bars := [(3, ⟨5, 1, 0, false, 0, 0⟩)] } (.bar i)
      ∃ t e, s.freshHead key 2 = some (t, e) ∧ e.body = .bar i ∧ s.handleClear key 2 i.scope = true ∧
        s.parkedBar? t.core 3 = none ∧ t.live = true ∧ t.events.length < 8 ∧
        (s.barrier t.core 3).arrived ≠ (s.barrier t.core 3).expect ∧ (s.barrier t.core 3).expect ≠ 0 ∧
        (base.barrier 0 3).arrived = (base.barrier 0 3).expect) := by
  refine ⟨fun v hv => ?_, fun k hk => ?_, by decide, fun w hw => ?_⟩
  · simp only [List.mem_cons, List.not_mem_nil, or_false] at hv
    rcases hv with rfl | rfl <;> exact ⟨_, _, rfl, rfl, by decide, by decide⟩
  · simp only [List.mem_cons, List.not_mem_nil, or_false] at hk
    rcases hk with rfl | rfl | rfl | rfl | rfl <;>
      exact ⟨_, _, rfl, rfl, by decide, by decide, by decide, by decide⟩
  · simp only [List.mem_cons, List.not_mem_nil, or_false] at hw
    rcases hw with rfl | rfl <;>
      exact ⟨_, _, rfl, rfl, by decide, by decide, by decide, by decide, by decide, by decide, by decide⟩

/-- `copying` with its job (a fill of 255 elements) changed. -/
def job0 : Job := { copying.newJob fillWords 0x1040 63 none 2 with state := .running }
def running (j : Job) : State :=
  { copying with jobs := [j], tlb := [⟨0, 1, 0, 2 ^ 42, 0x3F⟩, ⟨2000, 1, 0, 2 ^ 42, 0x3F⟩] }

/-- Two arrivals that reach barrier 3 in one cycle, one short of EXPECT; an element operation that pays it with one. -/
def arriving (s : State) : State :=
  let i : BarItem := ⟨3, 3, true, none, none, .die⟩
  (heading { s with bars := [(3, ⟨5, 1, 0, false, 0, 0⟩)] } (.bar i)).onMe fun t => t.append 1 (.bar i)

theorem witness_OtherItemsPerform_together :
    (∃ y z, (arriving base).itemEvent key 2 = some y ∧ y.1.barEvent (.item key 1) = some z ∧
      (z.2.any fun b => y.2.contains b) = true) ∧
    (let j := { job0 with block := { job0.block with doneKind := 2, doneSel := 3, donePhase := 1 } }
     ∃ y z, (arriving (running j)).elementEvent 0 63 254 [] = some y ∧ y.1.barEvent (.item key 1) = some z ∧
       (z.2.any fun b => y.2.contains b) = true) :=
  ⟨⟨_, _, rfl, rfl, by decide⟩, _, _, rfl, rfl, by decide⟩

/-- A copy command, a verdict at a stopped ring and one that the ring receives, one to another package's ring, and
gates: plain, on a FULL tile and on a POISON tile. -/
theorem witness_OtherItemsPerform_more :
    (let i : CopyItem := ⟨0, 63, .release, .die⟩
     let s := heading copying (.copy i)
     ∃ t e j, s.freshHead key 2 = some (t, e) ∧ e.body = .copy i ∧ s.handleClear key 2 i.scope = true ∧
       s.isVoted t = false ∧ s.jobAt? 0 63 = some j) ∧
    (let i : RingItem := ⟨.mark, 0xFFF0000000000005, none, 0, 0, 0, 0, none, .plain, .package⟩
     let s := heading { ringed with rings := [] } (.ring i)
     let u := heading ringed (.ring i)
     let f := heading (linked base) (.ring { i with ring := 0x0070000000000005, via := some far })
     (∃ t e, s.freshHead key 2 = some (t, e) ∧ e.body = .ring i ∧ s.releaseOk key 2 i.order i.scope = true ∧
       s.isVoted t = false ∧ s.liveUnit? 5 = none) ∧
     (∃ t e w v, u.freshHead key 2 = some (t, e) ∧ e.body = .ring i ∧ u.ringReceive 5 t.part i = .done w v) ∧
     (∃ t e, f.freshHead key 2 = some (t, e) ∧ e.body = .ring { i with ring := 0x0070000000000005, via := some far } ∧
       f.releaseOk key 2 i.order i.scope = true ∧ f.routed far.node = true ∧ t.live = true ∧ t.events.length < 8)) ∧
    (∀ g ∈ [Gate.mk [] .die none, ⟨[], .die, some (255, 255)⟩, ⟨[], .die, some (254, 254)⟩],
      let s := heading tiled (.gate g)
      ∃ t e, s.freshHead key 2 = some (t, e) ∧ e.body = .gate g ∧ s.allPerformed g.needs g.scope = true ∧
        (s.tag t.core 255).state = Tag.full ∧ (s.tag t.core 254).state = Tag.poison) := by
  refine ⟨⟨_, _, _, rfl, rfl, by decide, by decide, rfl⟩,
    ⟨⟨_, _, rfl, rfl, by decide, by decide, by decide⟩, ⟨_, _, _, _, rfl, rfl, rfl⟩,
      ⟨_, _, rfl, rfl, by decide, by decide, by decide⟩⟩, fun g hg => ?_⟩
  simp only [List.mem_cons, List.not_mem_nil, or_false] at hg
  rcases hg with rfl | rfl | rfl <;> exact ⟨_, _, rfl, rfl, by decide, by decide, by decide⟩

/-- An atomic, a transfer, a copy command and a verdict of a voted crew, of whose items no vote is open. -/
theorem witness_OtherItemsPerform_votes :
    let voted := fun (s : State) => { s with crews := [{ fetchCrew with voted := true }] }
    ∀ b ∈ [Body.atomic ⟨.add, at_ (.dev 0x20000), true, 1, 0, false, some 7, 0x10000, .acqRel, .die⟩,
        .transfer ⟨.none, gtOf 0 7, none, .release, .package⟩, .copy ⟨0, 63, .release, .die⟩,
        .ring ⟨.acc, 0xFFF0000000000005, none, 4, 9, 0, 0, none, .plain, .package⟩],
      let s := heading (voted base) b
      ∃ t e c, s.freshHead key 2 = some (t, e) ∧ e.body = b ∧ s.crew? key.crew = some c ∧ c.voted = true ∧
        (∀ v ∈ s.votes, v.tag ≠ ⟨c.launch, c.index, 0, e.n, 0⟩) ∧ s.releaseOk key 2 .acqRel .die = true ∧
        s.homeClear t.cluster (.dev 0x20000) 8 = true ∧ s.handleClear key 2 .die = true := by
  intro voted b hb
  simp only [List.mem_cons, List.not_mem_nil, or_false] at hb
  rcases hb with rfl | rfl | rfl | rfl <;>
    exact ⟨_, _, _, rfl, rfl, rfl, rfl, (fun _ h => by cases h), by decide, by decide, by decide⟩

/-! ### Stores, copies, transfers, votes and the matrix unit -/

def entry_ (ps : List Piece) : UpEntry := ⟨⟨key, 2, 0⟩, 0, ps, [], none, .plain, .die⟩
def piece (p : Place) : Piece := ⟨at_ p, [1, 2, 3, 4], false⟩

/-- The head entry of cluster 0's uplink, on its way to device memory, to the host, to a tile, to another package, and
to the voter; an entry in the fabric that nothing earlier overlaps. -/
theorem witness_StoresAndTransfersTravel_stores :
    (∀ p ∈ [Place.dev 0x20000, .host 0x20000, .tile 0x1000, .remote far 0x20000],
      ({ base with uplinks := [entry_ [piece p]] } : State).uplinks.find? (fun e => e.cluster == 0) =
        some (entry_ [piece p])) ∧
    (base.cxlLost 0x20000 = false ∧ base.scratchUp 0 = true ∧ base.parkedTile? 0 1 = none ∧
      [piece (.remote far 0x20000)].any (fun p => p.access.place.isRemote) = true) ∧
    (let e := { entry_ [piece (.dev 0x20000)] with vote := some ⟨1, 0, 0, 0, 0⟩ }
     let s : State := { base with uplinks := [e], crews := [{ fetchCrew with voted := true }] }
     s.uplinks.find? (fun e => e.cluster == 0) = some e ∧ (∃ w, s.crew? e.ref.key.crew = some w) ∧
       ∀ v ∈ s.votes, v.tag ≠ ⟨1, 0, 0, 0, 0⟩) ∧
    (let s : State := { base with
       fabric := [entry_ [piece (.remote far 0x20000)], entry_ [piece (.remote far 0x20004)]]
       bar0 := (linked base).bar0 }
     s.fabric[1]? = some (entry_ [piece (.remote far 0x20004)]) ∧ s.routed far.node = true ∧
       (∃ t, s.strand? (entry_ []).ref.key = some t ∧ t.live = true ∧ t.events.length < 8) ∧
       ∀ f ∈ s.fabric.take 1, ∀ q ∈ f.pieces, ∀ p ∈ [piece (.remote far 0x20004)],
         q.access.place.overlap q.bytes.length p.access.place p.bytes.length = false) :=
  ⟨by decide, by decide, ⟨by decide, ⟨_, rfl⟩, fun _ h => by cases h⟩, rfl, by decide,
    ⟨_, rfl, by decide⟩, by decide⟩

/-- A copy filled and dropped, a transfer that lands on a filling, a FULL and an overrun tile, windows that expire
after and before a result, a discarded vote buffer, and a matrix instruction in its unit. -/
theorem witness_StoresAndTransfersTravel_rest :
    (base.fillable (.dev 0x20000) = true ∧ base.copy? (.cluster 0) (.dev 0x20000) = none ∧
      base.copy? (.core 0) (.dev 0x20000) = none ∧ (Place.dev 0x20000).isRemote = false) ∧
    (let c : LineCopy := ⟨.cluster 0, .dev 0x20000, [], []⟩
     ({ base with copies := [c] } : State).copy? (.cluster 0) (.dev 0x20000) = some c) ∧
    (∀ tile ∈ [253, 254, 255],
      let e : BagEntry := ⟨4, [], some key, gtOf 0 tile + 0xFFC, none, [1, 2, 3, 4], [true], 0, false, none, none, .plain,
        .domain⟩
      let s : State := { tiled with bag := [e] }
      s.bag.find? (fun e => e.id == 4) = some e ∧ s.isOwnNode (gtNode e.dst) = true ∧
        (∃ w, s.tileOwner? (gtCore e.dst) (gtTile e.dst) = some w ∧ w.voted = false) ∧
        s.coreOpen (gtCore e.dst) = true ∧ s.parkedTile? (gtCore e.dst) (gtTile e.dst) = none ∧
        e.bytes.length = 4 * e.poison.length ∧ gtOffset e.dst + e.bytes.length ≤ 4096 ∧ s.strand? key = some s.me ∧
        (s.tag 0 253).state ≠ Tag.full ∧ (s.tag 0 255).state = Tag.full) ∧
    (∀ b, let v : Vote := ⟨⟨1, 0, 0, 3, 0⟩, [⟨0, 0, key, .item (.gate ⟨[], .die, none⟩)⟩], b, 0, 0, none⟩
      let s : State := { base with votes := [v], crews := [{ fetchCrew with voted := true }] }
      let u := { s with crews := s.crews ++ [{ fetchCrew with uid := 2, voted := true, copy := 1 }] }
      s.votes[0]? = some v ∧ v.closed = none ∧ v.arrivals ≠ [] ∧
        ((s.copyNumbers v.tag).filter fun c => !(v.arrivals.any fun a => a.copy == c.1)) = [] ∧
        ((u.copyNumbers v.tag).filter fun c => !(v.arrivals.any fun a => a.copy == c.1)) ≠ []) ∧
    (let b : VoteBuf := ⟨⟨1, 0, 0, 3, 0⟩, .dev 0x20000, 5, 0, [1]⟩
     let s : State := { base with voteBufs := [b] }
     s.voteBufs[0]? = some b ∧ ∀ c ∈ s.copyNumbers b.tag, c.1 ∉ b.waiting) ∧
    ∃ e ∈ ({ base with matrix := [(0, 1, 7)] } : State).matrix, e.1 = 0 := by
  refine ⟨by decide, rfl, fun tile ht => ?_, fun b => ?_, by decide, by decide⟩
  · simp only [List.mem_cons, List.not_mem_nil, or_false] at ht
    rcases ht with rfl | rfl | rfl <;>
      exact ⟨by decide, by decide, ⟨_, rfl, rfl⟩, by decide, by decide, by decide, by decide, rfl, by decide, by decide⟩
  · cases b <;> exact ⟨rfl, rfl, by decide, by decide, by decide⟩

/-! ### Waits and events -/

/-- A state in which the strand of `s` waits. -/
def waiting (s : State) (w : Wait) : State := s.onMe fun t => { t with wait := some w }

theorem ready_waiting (s : State) (w : Wait) (h : s.me.key = key) (hl : s.me.live = true)
    (hc : (waiting s w).onCore (waiting s w).me = true) : ((waiting s w).ready? key) = some (waiting s w) := by
  have hs : (waiting s w).select key = waiting s w := by
    unfold State.select; rw [show (waiting s w).me.key = key from h]; simp
  unfold State.ready?; rw [hs]
  simp [show (waiting s w).me.key = key from h, show (waiting s w).me.live = true from hl, hc]

/-- Waits that their condition ends, without an event: registers, room, items, slots, a walk, pages, a vote buffer,
the matrix unit, a controller, tiles and barriers in both outcomes, now and seen before, handles, a far ring, PARK. -/
theorem witness_WaitsAndEvents_waits :
    let p : PageKey := ⟨0, 1, 0, .load⟩
    (∀ w ∈ [Wait.regs [4] [3], .queue 2 1, .items [] .die, .engineSlots, .walk ⟨0, 1, 0x20000⟩ ⟨0x20000, 0, .plain⟩,
        .walk ⟨0, 1023, 0⟩ ⟨0, 0, .plain⟩, .ringPage 62 p true, .ringPage 62 p false,
        .hostPage p ⟨0, 0, .plain⟩, .ats p ⟨0, 0, .plain⟩, .voteBuffer 0, .matrix [7], .controller 3,
        .tile 1 255 255 .die none, .tile 1 253 253 .die (some 3), .take 254 254 .die 2 none, .take 253 253 .die 2 (some 3),
        .take 255 255 .die 2 none, .take 253 253 .die 2 (some 2), .barrier 3 3 7 .die none, .barrier 4 4 0 .die none,
        .barrier 3 3 0 .die (some false), .barrier 3 3 0 .die (some true), .handles [] none .die true,
        .ringUnit far 3 4 62 (some 63) none .die, .ringUnit far 2 4 1 none none .die, .event true true 0 none,
        .event false true 0 none],
      let s := waiting { tiled with bars := [(4, ⟨0, 1, 0, true, 0, 0⟩)] } w
      s.ready? key = some s ∧ s.me.wait = some w ∧ s.me.hasEvent = false ∧ s.me.deferred = [] ∧
        ∀ r ∈ s.rings, ∀ h ∈ r.2.holds, h.crew ≠ s.me.key.crew) ∧
    (tiled.me.pending [4] [3] = false ∧ (tiled.me.queue 2).length + 1 ≤ 64 ∧ tiled.allPerformed [] .die = true ∧
      tiled.freeSlots tiled.me.cluster ≠ [] ∧ (tiled.cached? ⟨0, 1, 0x20000⟩).isSome = true ∧
      tiled.walkable ⟨0, 1023, 0⟩ = false ∧ (tiled.tag 0 255).state = Tag.full ∧ (tiled.tag 0 254).state = Tag.poison ∧
      tiled.takePending 0 255 = false ∧
      tiled.pageAsked p = false ∧ tiled.atsAsked p = false ∧ tiled.voteBufferFull 0 = false ∧
      tiled.matrixReady [7] = true ∧ tiled.pulse? 3 = none) ∧
    (let s : State := { tiled with bars := [(4, ⟨0, 1, 0, true, 0, 0⟩)] }
     (s.barrier 0 3).poison = false ∧ (s.barrier 0 3).phase ≠ 7 ∧ (s.barrier 0 4).poison = true) := by
  refine ⟨fun w _ => ⟨ready_waiting _ _ rfl rfl (show _ = _ by rfl), rfl, rfl, rfl, fun r hr => by cases hr⟩,
    by decide, by decide⟩

theorem witness_WaitsAndEvents_more :
    (let x : Removal := ⟨9, [], [], some (key, .page 1 0x20000), false, none⟩
     let s := waiting { base with removals := [x] } (.removal 9)
     s.ready? key = some s ∧ s.removals.find? (fun x => x.id == 9) = some x ∧ s.removalDone x = true) ∧
    (let s := waiting ringed (.candidate 62 (ringed.xr 4) .die)
     s.ready? key = some s ∧ ∃ c v, s.takeable? (fieldOf (ringed.xr 4) 5 0) (fieldOf (ringed.xr 4) 7 6) = some c ∧
       s.trgnext (fieldOf (ringed.xr 4) 5 0) (fieldOf (ringed.xr 4) 7 6) c 62 .die = .ok v) ∧
    (let s := waiting (base.setPart 0 0x020 1) (.event false false 0 none)
     s.ready? key = some s ∧ s.me.isInsole = false ∧ s.recordsWait s.me.part = true) ∧
    (let s := waiting (base.onMe fun t => { t with inHandler := true, events := [⟨0x0B, 5, 6⟩] }) (.event false false 0 none)
     s.ready? key = some s ∧ s.me.hasEvent = false ∧ s.me.events ≠ []) ∧
    (let s := waiting base (.event true false 0 (some 5))
     s.ready? key = some s ∧ s.me.wait = some (.event true false 0 (some 5)) ∧
       5 ≤ (s.coreCycles s.me.core - (0 - 5)).toNat) :=
  ⟨⟨ready_waiting _ _ rfl rfl rfl, rfl, by decide⟩, ⟨ready_waiting _ _ rfl rfl rfl, _, _, rfl, rfl⟩,
    ⟨ready_waiting _ _ rfl rfl rfl, by decide⟩, ⟨ready_waiting _ _ rfl rfl rfl, by decide⟩,
    ready_waiting _ _ rfl rfl rfl, rfl, by decide⟩

/-- An event that finds PARK, a vote or a removal waiting and one that finds nothing waiting, a deferred POISON, and a
fetch that faults at an address that no space reaches. -/
theorem witness_WaitsAndEvents_traps :
    (∀ w ∈ [none, some (Wait.event true false 0 none), some (.vote 4), some (.removal 9)],
      let s := base.onMe fun t => { t with wait := w, events := [⟨0x0B, 5, 6⟩] }
      s.ready? key = some s ∧ s.me.events = [⟨0x0B, 5, 6⟩] ∧ s.me.inHandler = false ∧ s.me.deferred = []) ∧
    (let s := base.onMe fun t => { t with deferred := [⟨0x20000, 0x10000⟩] }
     s.ready? key = some s ∧ s.me.deferred = [⟨0x20000, 0x10000⟩] ∧ s.me.inHandler = false ∧
       ∀ r ∈ s.rings, ∀ h ∈ r.2.holds, h.crew ≠ s.me.key.crew) ∧
    (let s := base.onMe fun t => { t with pc := 0x80000000000000 }
     s.ready? key = some s ∧ s.issuable = true ∧
       ∃ w c a i, s.fetch = Fetched.stop w (Eff.trap c a i) ∧ w.me.inHandler = false) := by
  refine ⟨fun w hw => ?_, ⟨rfl, rfl, by decide, fun r hr => by cases hr⟩, rfl, by decide, _, _, _, _, rfl,
    by decide⟩
  simp only [List.mem_cons, List.not_mem_nil, or_false] at hw
  rcases hw with rfl | rfl | rfl | rfl <;> exact ⟨rfl, rfl, by decide, by decide⟩

/-! ### Translation -/

/-- A table at 0x100000 whose first entry maps 2^42 bytes onto themselves and whose second maps nothing. -/
def tabled : State :=
  { base.setBar 0x400018 0x100000 with dev := base.dev.store 0x100000 (bytesOf 8 0x3F) false }

/-- A walk that finds a leaf and one that faults, waited for plainly and by a .spec load; one of no address space. -/
theorem witness_TranslationEvents_walks :
    (let k : WalkKey := ⟨0, 1, 0x3FFFFFFFFFF⟩
     tabled.walkRuns k = true ∧ tabled.walkable k = true ∧ (∃ l ts, tabled.walkOutcome k .root = some (.ok l, ts)) ∧
       tabled.tlb.countP (fun m => m.unit == 0) < leafCap 0) ∧
    (∀ w ∈ [Waiter.plain, .spec 7],
      let k : WalkKey := ⟨0, 1, 0x40000000000⟩
      let s := waiting tabled (.walk k ⟨0x40000000008, 0, w⟩)
      s.walkRuns k = true ∧ s.walkable k = true ∧ (∃ lv ts, s.walkOutcome k .root = some (.error lv, ts)) ∧ s.others = [] ∧
        (∀ a, tabled.me.wait ≠ some (.walk k a)) ∧ s.me.wait = some (.walk k ⟨0x40000000008, 0, w⟩) ∧
        s.onCore s.me = true ∧ s.me.deferred = []) ∧
    (let k : WalkKey := ⟨0, 1023, 0⟩
     let s : State := { tabled with walks := [k] }
     s.walkRuns k = true ∧ s.walkable k = false ∧ k ∈ s.walks) := by
  refine ⟨⟨by decide, by decide, ⟨_, _, rfl⟩, by decide⟩, fun w hw => ?_, by decide⟩
  simp only [List.mem_cons, List.not_mem_nil, or_false] at hw
  rcases hw with rfl | rfl <;>
    exact ⟨by decide, by decide, ⟨_, _, rfl⟩, rfl, (fun a h => by cases h), rfl, rfl, rfl⟩

/-- A host-shared ASID 1 whose page at 0x20000 the strand waits for, with an outstanding Translation Request and page
request; removals that have ended, by an ATS Invalidate Request and by XLINV; and XLINV while one is under way. -/
theorem witness_TranslationEvents_host :
    let k : PageKey := ⟨0, 1, 0x20000, .load⟩
    let q : AtsReq := ⟨k, false, []⟩
    let r : PageReq := ⟨k, 0, true, []⟩
    let host := base.setBar 0x400010 0xC000000000000000
    let s : State := { waiting host (.ats k ⟨0x20008, 0, .plain⟩) with ats := [q] }
    let p : State := { waiting host (.hostPage k ⟨0x20008, 0, .plain⟩) with pri := [r] }
    (s.ats.find? (s.sameAts k) = some q ∧ q.units = [] ∧ s.atsHolders k = [(s.me.key, (k, ⟨0x20008, 0, .plain⟩))] ∧
      ({ s with me := base.me } : State).atsHolders k = [] ∧ s.onCore s.me = true ∧ s.me.deferred = [] ∧
      s.priStopped.contains (s.asidFn k.asid) = false ∧ s.atc.countP (fun m => m.die == 0) < 8192) ∧
    (p.pri.find? (fun r => p.samePri k r && r.sent) = some r ∧ (∀ x ∈ p.pri, x.fn = r.fn → x.sent = true) ∧
      p.pageHolders k = [(p.me.key, ⟨0x20008, 0, .plain⟩)] ∧ ({ p with me := base.me } : State).pageHolders k = [] ∧
      p.onCore p.me = true ∧ p.me.deferred = [] ∧ p.me.inHandler = false) ∧
    (let r : Removal := ⟨9, [], [], none, false, some 4⟩
     let t : State := { base with removals := [r] }
     t.removals.find? (fun r => r.itag == some 4 && t.removalDone r) = some r) ∧
    (let r : Removal := ⟨9, [], [], none, true, none⟩
     let t : State := { base with removals := [r] }
     t.removals.find? (fun r => r.xlinv) = some r ∧ t.removalDone r = true) ∧
    (base.setBar 0x100 (.allOnes 64)).barOpen (.fn 0) = true ∧ (base.bar 0x404000).getLsbD 63 = false ∧
    ((base.setBar 0x404000 0x8000000000000000).bar 0x404000).getLsbD 63 = true := by
  decide

/-! ### Launches and crews -/

/-- A record of 1 crew of 16 strands with 256 tiles, 128 barriers and 8 accumulator tiles. -/
def record : LaunchRec :=
  ⟨0x10000, 5, 1, 16, 128, 256, 8, 0, false, false, false, false, 0, 0x20000, 0, 0x20008, 1, 0, 0, []⟩

def launch : Launch := ⟨2, 0, 0, 0, record, none, true, 0, 0, 0, none, false, false, false, 8⟩

/-- `base` with partition 0 enabled for eviction, 32 slots of save area, queue 0 open, and the launch waiting. -/
def served : State :=
  let s := ((base.setPart 0 0 0xC000FF0000000000).setPart 0 0x058 0x10000005).setBar (queueReg 0 0) 0x8000000000000100
  { s with launches := [launch], tlb := [⟨0, 1, 0, 2 ^ 42, 0x3F⟩, ⟨4000, 1, 0, 2 ^ 42, 0x3F⟩] }

def spot : Spot := ⟨1, List.range 16, 0, 0, []⟩

/-- A crew that takes all of core 1, without and with stacks; a launch whose stack is larger than a slot; a crew whose
strands have ended. -/
theorem witness_LaunchesRun_placing :
    (∃ l d, served.launch? 2 = some l ∧ served.chosen? l.part = some (l, d) ∧ served.stackTooLarge l = false ∧
      l.left = false ∧ served.savedNext l = [] ∧ l.record.voted = false ∧
      served.spotOk l spot l.record.strands l.record.tiles l.record.barriers l.record.accums = true ∧
      served.stacksOk l spot.stackBlocks = true ∧ served.takesPart l = true) ∧
    (let l := { launch with record := { record with stack := 64 } }
     let s := { served.setPart 0 0x010 0x11E with launches := [l] }
     ∃ d, s.launch? 2 = some l ∧ s.chosen? l.part = some (l, d) ∧ s.stackTooLarge l = false ∧
       s.stacksOk l (List.range 16) = true) ∧
    (let l := { launch with record := { record with stack := 1024 } }
     let s := ({ served with launches := [l] } : State)
     s.launch? 2 = some l ∧ s.takesPart l = true ∧ l.left = false ∧ s.stackTooLarge l = true) ∧
    (let s := served.onMe fun t => { t with live := false }
     ∃ c, s.copiesOf 1 = [c] ∧ c.onCore = true ∧ s.crewDone c = true) :=
  ⟨⟨_, _, rfl, rfl, by decide, by decide, by decide, rfl, by decide, by decide, by decide⟩,
    ⟨_, rfl, rfl, by decide, by decide⟩, ⟨rfl, by decide, by decide, by decide⟩, _, rfl, by decide, by decide⟩

/-- Launches that end, with and without a counter to increase; one whose wait counter is read; words that no space
reaches, and that the host translates; levels 6 and 7. -/
theorem witness_LaunchesRun_counting :
    (∀ a ∈ [(0 : Word), 0x20008],
      let l := { launch with retired := 1, record := { record with doneAddr := a } }
      let s := ({ served with launches := [l] } : State)
      s.launch? 2 = some l ∧ l.finished = false ∧ l.record.crews ≤ l.retired ∧ l.record.notifyHost = false ∧
        ∀ r ∈ s.outstanding, ∀ c, s.crew? r.key.crew = some c → c.launch ≠ 2) ∧
    (served.cxlLost 0x20008 = false ∧ served.xlateUnit (served.doneWho launch) (.atomic .add .system) 0x20008 =
      .at (.dev 0x20008) false) ∧
    ((∃ c i, served.xlateUnit (served.doneWho launch) (.atomic .add .system) 0x80000000000000 = .fail c i) ∧
      ∃ c i, served.xlateUnit (served.waitWho launch) .load 0x80000000000000 = .fail c i) ∧
    (let s := served.setBar (asent 1) 0xC000000000000000
     (∃ k t, s.xlateUnit (s.doneWho launch) (.atomic .add .system) 0x20008 = .ats k ∧
       s.askUnit (s.doneWho launch) k true = some t) ∧
     ∃ k t, s.xlateUnit (s.waitWho launch) .load 0x20000 = .ats k ∧ s.askUnit (s.waitWho launch) k true = some t) ∧
    (let l := { launch with waited := false }
     let s := ({ served with launches := [l] } : State)
     s.launch? 2 = some l ∧ l.finished = false ∧ s.dispatching l.part = true ∧ s.cxlLost 0x20000 = false ∧
       s.xlateUnit (s.waitWho l) .load l.record.waitAddr = .at (.dev 0x20000) false) ∧
    (∀ n ∈ [6, 7], let l := { launch with level := n }
      let s := ({ served with launches := [l] } : State)
      s.launch? 2 = some l ∧ s.takesPart l = true ∧ l.reserve = none ∧ l.quantum = false ∧
        fieldOf (s.part l.part 0) 47 40 ≠ 0) := by
  refine ⟨fun a ha => ?_, by decide, ⟨⟨_, _, rfl⟩, _, _, rfl⟩, ⟨⟨_, _, rfl, rfl⟩, _, _, rfl, rfl⟩,
    ⟨rfl, by decide, by decide, by decide, by decide⟩, fun n hn => ?_⟩
  · simp only [List.mem_cons, List.not_mem_nil, or_false] at ha
    rcases ha with rfl | rfl <;> exact ⟨rfl, rfl, by decide, rfl, fun r hr => by cases hr⟩
  · simp only [List.mem_cons, List.not_mem_nil, or_false] at hn
    rcases hn with rfl | rfl <;> exact ⟨rfl, by decide, rfl, rfl, by decide⟩

/-- A record of one crew of one strand, for ASID 1. -/
def recordBytes : List Byte :=
  bytesOf 8 0x10000 ++ bytesOf 8 5 ++ bytesOf 4 1 ++ [1, 0, 1, 0, 0, 0, 0, 0] ++ bytesOf 4 0 ++ List.replicate 24 0 ++
    bytesOf 8 1

/-- A deferrable submission to an open queue with room, to a full one, and to a closed one; records stored and not
stored; a posted record taken, out of turn, and at a full queue; a queue that takes none. -/
theorem witness_LaunchesRun_submitting :
    recordBytes.length = 64 ∧ served.barOpen .insole = true ∧
    (served.queueOpen 0 false = true ∧ served.mayWrite .insole (served.queuePart 0) = true ∧
      served.queueFull 0 = false ∧
      (served.setBarField (queueReg 0 0x10) 63 32 (served.nextSeq 0 + 1)).refusal? (served.queuePart 0) recordBytes =
        none) ∧
    (served.setBarField (queueReg 0 0x10) 63 32 1).queueFull 0 = true ∧ served.queueOpen 1 false = false ∧
    (let s1 := served.setBarField (queueReg 0 0x10) 63 32 1
     s1.physical (s1.dispatcherWho 0 0) .store 0 false = .at (.dev 0) false ∧ s1.cxlLost 0 = false) ∧
    ((served.setBar 0x100 0x40000000401).ready 42 = true ∧ served.queueOpen 0 true = false) ∧
    (let s := served.setBar (queueReg 0 0) 0xC000000000000100
     let bs := recordBytes ++ bytesOf 8 0
     s.queueOpen 0 true = true ∧ bs.length = 72 ∧ (s.window72 0).length = 72 ∧ bs ≠ List.replicate 72 0 ∧
       fieldAt bs 64 8 = s.nextSeq 0 ∧ fieldAt (recordBytes ++ bytesOf 8 1) 64 8 ≠ s.nextSeq 0 ∧ s.queueFull 0 = false ∧
       (s.setBarField (queueReg 0 0x10) 63 32 (s.nextSeq 0 + 1)).refusal? (s.queuePart 0) (bs.take 64) = none ∧
       (s.setBarField (queueReg 0 0x10) 63 32 1).queueFull 0 = true) := by decide

theorem witness_LaunchesRun_unstored :
    let s1 := (served.setBar (queueReg 0 8) 0x4000000000000).setBarField (queueReg 0 0x10) 63 32 1
    ∃ c i, s1.physical (s1.dispatcherWho 0 0) .store 0x4000000000000 false = .fail c i := ⟨_, _, rfl⟩

/-- A crew of one strand on core 0, at rest, in the place given. -/
def resting (p : CrewWhere) : State :=
  { served with
    me := { Strand.insole with live := false }
    others := [{ served.me with wait := some (.event true false 0 none) }]
    crews := [{ fetchCrew with place := p }] }

set_option maxRecDepth 8000 in
/-- An eviction for a launch of level 6 that fits nowhere but on core 0; one for a cluster out of service; a save; a
restore to core 1. -/
theorem witness_CrewsLeave_saving :
    (let l := { launch with level := 6, record := { record with hint := 1, dies := 1 } }
     let busy := (List.range 15).map fun i => { fetchCrew with uid := 100 + i, core := 1 + i, placedLevel := 7 }
     let s := { resting .placed with launches := [l], crews := fetchCrew :: busy }
     s.launch? 2 = some l ∧ (s.part l.part 0).getLsbD 62 = true ∧ s.takesPart l = true ∧ s.fitsNext l = false ∧
       (let vs := (s.victims l).flatMap fun c => s.copiesOf c.uid
        vs ≠ [] ∧ (∀ c ∈ vs, c.place = .placed ∧ s.closedGate c = false ∧ s.inVote c = false) ∧
          vs.length + s.leaving l.part .evicting ≤ (s.freeSaves l.part).length ∧ ∀ c ∈ vs, l.urgent c = true)) ∧
    (let s := (resting .placed).setCp 0 1 0x1007
     ∃ c, s.crew? 1 = some c ∧ c.place = .placed ∧ s.cpState (c.core / 16) = 1 ∧ (s.part c.part 0).getLsbD 62 = true ∧
       s.bound c = false ∧ s.closedGate c = false ∧ s.inVote c = false ∧
       1 + s.leaving c.part .evicting ≤ (s.freeSaves c.part).length) ∧
    (∃ c, (resting .evicting).copiesOf 1 = [c] ∧ c.place = .evicting ∧ (resting .evicting).drained c = true ∧
      31 ∈ (resting .evicting).freeSaves c.part ∧ (resting .evicting).me.key.crew ≠ c.uid ∧
      (resting .evicting).launch? c.launch = none) ∧
    (let s := { resting .evicting with me := waiting served (.event true false 0 none) |>.me, others := [State.reset.me] }
     ∃ c, s.copiesOf 1 = [c] ∧ c.place = .evicting ∧ s.drained c = true ∧ 31 ∈ s.freeSaves c.part ∧
       s.me.key.crew = c.uid ∧ ∃ u us, (s.others.filter fun u => u.key.crew != c.uid) = u :: us) ∧
    (let l := { launch with uid := 1, placed := 1 }
     let s := { resting (.saved 31) with
       launches := [l], others := [], crews := [{ fetchCrew with place := .saved 31, out := [⟨0, 0, true, [], Vector.replicate 8 [], none⟩] }] }
     ∃ d c, s.launch? 1 = some l ∧ s.chosen? l.part = some (l, d) ∧ s.savedNext l = [c] ∧ c.place = .saved 31 ∧
       s.restoreOk l c { spot with slots := [15] } = true ∧ s.me.key.crew ≠ c.uid) :=
  ⟨⟨rfl, by decide, by decide, by decide, by decide, by decide, by decide⟩,
    ⟨_, rfl, by decide, by decide, by decide, by decide, by decide, by decide, by decide⟩,
    ⟨_, rfl, rfl, by decide, by decide, by decide, rfl⟩, ⟨_, rfl, rfl, by decide, by decide, by decide, _, _, rfl⟩,
    _, _, rfl, rfl, rfl, rfl, by decide, by decide⟩

/-- An evicted crew that has armed a tile since, on a cluster that is given back. -/
theorem witness_CrewsLeave_bound :
    let s : State := { resting .evicting with releasing := [(0, 1)], crews := [{ fetchCrew with place := .evicting, armed := true }] }
    ∃ c, s.copiesOf 1 = [c] ∧ c.place = .evicting ∧ s.drained c = true ∧ 31 ∈ s.freeSaves c.part ∧
      mapGet 0 (c.core / 16) s.releasing ≠ 0 ∧ s.bound c = true := ⟨_, rfl, rfl, by decide, by decide, by decide, by decide⟩

/-- A crew that hangs with and without a free slot; one that is frozen, with a wait map that is written and one that
waits for the host, resumed and killed; a partition torn down. -/
theorem witness_CrewsLeave_watchdog :
    (let s := { (resting .placed).setPart 0 0x028 100 with
       others := [{ served.me with wait := some (.barrier 3 3 0 .die none) }] }
     ∃ c, s.copiesOf 1 = [c] ∧ s.hung c = true ∧ 1 + s.leaving c.part .freezing ≤ (s.frozenFree c.part).length) ∧
    (let s := { (resting .placed).setPart 0 0x028 100 with
       others := [{ served.me with wait := some (.barrier 3 3 0 .die none) }]
       crews := fetchCrew :: (List.range 16).map fun i => { fetchCrew with uid := 100 + i, place := .frozen i } }
     ∃ c, s.copiesOf 1 = [c] ∧ s.hung c = true ∧ (s.frozenFree c.part).length < 1 + s.leaving c.part .freezing) ∧
    (∀ asid ∈ [0, 1],
      let s := ((resting .freezing).setPart 0 0x050 (num asid)).setBar (asent 1) 0xC000000000000000
      ∃ c, s.copiesOf 1 = [c] ∧ c.place = .freezing ∧ s.drainedToGates c = true ∧ 15 ∈ s.frozenFree c.part ∧
        s.me.key.crew ≠ c.uid ∧
        (match s.dispatcherWrite (s.mapWho c) (s.mapAddr c.part 15) (s.waitMap c) 16 with
          | .ok _ => asid == 0
          | .error r => asid == 1 && r.isSome) = true) ∧
    ((∃ c, (resting (.frozen 15)).frozenCrew? 0 15 = some c ∧ (resting (.frozen 15)).copiesOf c.uid = [c]) ∧
      (resting (.frozen 15)).frozenCrew? 0 14 = none ∧ served.mayWrite .insole 0 = true) ∧
    (isManager (.fn 1) = false ∧ isManager (.fn 0) = true ∧ served.mayWrite (.fn 0) 0 = true ∧
      (served.dispatcher 0).tearing = false) ∧
    (let s := (resting .gone).setDispatcher 0 { Dispatcher.start with tearing := true }
     (s.dispatcher 0).tearing = true ∧ (s.part 0 0x040).getLsbD 62 = false ∧ s.tornDown 0 = true) :=
  ⟨⟨_, rfl, by decide, by decide⟩, ⟨_, rfl, by decide, by decide⟩, (fun asid h => by
      simp only [List.mem_cons, List.not_mem_nil, or_false] at h
      rcases h with rfl | rfl <;> exact ⟨_, rfl, rfl, by decide, by decide, by decide, by decide⟩),
    ⟨⟨_, rfl, rfl⟩, by decide, by decide⟩, by decide, by decide⟩

/-! ### The host, clusters and links -/

/-- `served` with every part of the package up. -/
def up : State := served.setBar 0x100 (.allOnes 64)

theorem witness_HostWrites_reach :
    (6 % 4 ≠ 0 ∧ 4 % 8 ≠ 0 ∧ inCxlConfig 0x339FFC = true ∧ base.barOpen (.fn 0) = false ∧
      base.takesWrite (.fn 0) (portReg 11 0) = false) ∧
    (up.barOpen (.fn 0) = true ∧ isManager (.fn 0) = true ∧ isManager (.fn 1) = false ∧ isManager .insole = false ∧
      up.ready 31 = true) ∧
    (up.ready 42 = true ∧ up.mayWrite (.fn 0) 15 = true ∧ up.mayWrite .insole (up.queuePart 0x1FFF) = true) ∧
    (up.clusterState 0 ≠ 0 ∧ up.clusterState 95 = 0 ∧ up.takesWrite .insole (0x310000 + 16 * 63) = true ∧
      up.takesWrite .insole (rngown 63) = true ∧ up.takesWrite .insole (ckown 7) = true ∧
      up.takesWrite .insole (decoderReg 7 0) = true) ∧
    (up.reachesEntry (.fn 0) 0x310000 62 = true ∧ (up.bar 0x310000).getLsbD 63 = true ∧
      (up.bar (0x310000 + 16 * 63)).getLsbD 63 = false ∧ up.worldFits 0 false = true ∧ up.worldFits 0 true = false) ∧
    (let s := up.setBar (windowReg 0 3 0) 0x8000000000000000
     (s.bar (windowReg 0 3 0)).getLsbD 63 = true ∧ (s.bar (windowReg 15 63 0)).getLsbD 63 = false ∧
       s.reachesEntry (.fn 0) (windowReg 15 63 0) 61 = true) ∧
    (up.reachesEntry (.fn 0) (decoderReg 7 0) 62 = true ∧ up.ready 7 = true ∧ up.ready 17 = true) ∧
    (∀ n, n < 4 → ((up.setBarField (stackReg 7 8) 62 60 n).barField (stackReg 7 8) 62 60 = n)) ∧
    (∀ r, r < 16 → (up.setBarField (stackReg 7 8) 7 4 r).bar (stackReg 7 8) = withField (up.bar (stackReg 7 8)) 7 4 r) ∧
    (up.setBarField (stackReg 7 8) 7 4 (up.barField (stackReg 7 8) 7 4)).bar (stackReg 7 8) = up.bar (stackReg 7 8) := by
  decide

/-- The last 8 bytes that a region gives, and an access that crosses its end. -/
theorem witness_HostWrites_memory :
    let a := up.barField 0x10 51 30 * 2 ^ 30 + (2 ^ 36 - 8)
    up.bar4Ok 0 a 8 = true ∧ up.bar4Ok 0 a 9 = false ∧ up.bar4Ok 0 a ([1, 2, 3, 4] : List Byte).length = true ∧
    up.bar4Ok 0 a ([] : List Byte).length = false ∧ up.ready 40 = true ∧ a % 8 = 0 := by decide

/-- A FREE, an OWNED and an insulated cluster; one on its way back with nothing left on it, and with a job. -/
theorem witness_ClustersAndLinks_clusters :
    (up.reachesCluster (.fn 0) 95 = true ∧ up.reachesCluster (.fn 1) 95 = false ∧ up.reachesCluster (.fn 0) 96 = false ∧
      up.clusterState 1 = 0 ∧ ∀ d, d < 96 → d ≠ 1 → up.clusterPart d = some (0#4).toNat →
        up.clusterSecure d = up.clusterSecure 1) ∧
    (up.clusterState 0 = 1 ∧ up.cpState 0 = 0 ∧ ({ up with crews := [] } : State).crewsOf 0 = []) ∧
    (let s : State := { up with releasing := [(0, 1)], crews := [{ fetchCrew with place := .saved 16 }] }
     mapGet 0 0 s.releasing = 1 ∧ ∀ d ∈ s.crewsOf 0, d.onCore = false) ∧
    (let s : State := { copying with releasing := [(0, 2)] }
     mapGet 0 0 s.releasing = 2 ∧ s.engineJobs 0 ≠ []) ∧
    (let s : State := { up with releasing := [(0, 2)], crews := [] }
     mapGet 0 0 s.releasing = 2 ∧ s.clusterIdle 0 = true ∧ ∀ d ∈ s.crewsOf 0, d.place ≠ .gone) ∧
    mapGet 0 95 ({ up with releasing := [(95, 3)] } : State).releasing = 3 := by decide

/-- A packet from node 7 through a window of partition 0: a read, a write of 4 bytes, a response, a marker. -/
def packet (kind : Nat) : Packet :=
  ⟨kind, 0, 7, 0, 0, 0, false, false, false, false, 0x20000, 4, 0, 6, 77, 0, 0, 0, 0, 0, if kind = 2 then [1, 2, 3, 4] else []⟩

/-- A port that trains, fails its ninth and tenth replay, and whose far end fails; CXL ports and the end of a hot-page
period. -/
theorem witness_ClustersAndLinks_links :
    (let s := up.setBar (portReg 11 0) 0x4000000000000000
     s.ready 29 = true ∧ (s.bar (portReg 11 0)).getLsbD 62 = true ∧ (s.bar (portReg 11 0)).getLsbD 63 = false) ∧
    (∀ n ∈ [8, 9], let s := ({ up.setBar (portReg 11 0) 0x8000000000000000 with links := [(11, ⟨n, false, n == 8⟩)] } : State)
      s.portUp 11 = true ∧ (s.port 11).fails = n ∧ (s.port 11).laneOut = false ∧ (s.port 11).peer = (n == 8)) ∧
    (up.cxlDown.contains 1 = true ∧ ({ up with cxlDown := [0] } : State).cxlDown.contains 1 = false ∧
      8 ≤ ({ up with boot := { up.boot with step := 8 } } : State).boot.step) ∧
    ((up.setBar 0x340000 0x8000000000000000).bar 0x340000).getLsbD 63 = true := by decide

set_option maxRecDepth 100000 in
theorem witness_ClustersAndLinks_packets :
    let s := (up.setBar (portReg 0 0) 0x8000000000000000).setBar (windowReg 0 0 0) 0x8000000700000000
    (∀ k ∈ [1, 2], let bs := (packet k).bytes
      s.portUp 0 = true ∧ packetIntact bs = true ∧ (Packet.ofBytes bs).dst = s.barField 0x2000 11 0 ∧
        (Packet.ofBytes bs).kind = k ∧ (Packet.ofBytes bs).isMemory = true ∧ (Packet.ofBytes bs).len = 4 ∧
        s.tagsSeen.contains ((Packet.ofBytes bs).src, (Packet.ofBytes bs).tag) = false ∧
        s.releaseHeld (Packet.ofBytes bs) = false ∧ s.accepts (Packet.ofBytes bs) = true ∧
        base.accepts (Packet.ofBytes bs) = false ∧
        (Packet.ofBytes bs).vote = 0 ∧ s.cxlLost (Packet.ofBytes bs).addr.toNat = false ∧
        ({ s with tagsSeen := [(7, 77)] } : State).tagsSeen.contains (7, 77) = true) ∧
    ∀ k ∈ [6, 7], let bs := (packet k).bytes
      packetIntact bs = true ∧ (Packet.ofBytes bs).dst = s.barField 0x2000 11 0 ∧ (Packet.ofBytes bs).kind = k ∧ (s.port 0).fails < 9 ∧
        (Packet.ofBytes bs).isMemory = false ∧ (Packet.ofBytes bs).isTile = false := by decide +kernel

/-- A read of the CXL tier on port 0, which is down, in a region of partition 0. -/
theorem witness_ClustersAndLinks_lost :
    let s := (((((up.setBar (windowReg 0 0 0) 0x8000000700000000).setBar (decoderReg 0 0) 0x8000000000000000).setBar
      (decoderReg 0 8) (num cxlBase)).setBar (decoderReg 0 16) 0x200000).setBar 0x310010 (0x8000000000000000 + num cxlBase)).setBar 0x310018 (num cxlBase)
    let p := { packet 1 with addr := num cxlBase }
    s.cxlLost cxlBase = true ∧ s.accepts p = true ∧ p.vote = 0 := by decide +kernel

theorem witness_ClustersAndLinks_timeout :
    let i : AtomItem := ⟨.add, at_ (.remote far 0x20000), true, 1, 0, false, some 7, 0x10000, .plain, .system⟩
    let s := heading base (.atomic i)
    ∃ t e, s.freshHead key 2 = some (t, e) ∧ e.body = .atomic i ∧ i.access.place = .remote far 0x20000 ∧ t.live = true ∧
      t.events.length < 8 ∧ s.releaseOk key 2 i.order i.scope = true ∧ s.homeClear t.cluster i.access.place 8 = true :=
  ⟨_, _, rfl, rfl, rfl, by decide, by decide, by decide, by decide⟩

/-! ### Engines, rings, controllers and the package -/

/-- A job queued, the last element of a fill, copies whose source no address space reaches and whose source the host
translates. -/
theorem witness_EnginesRun_elements :
    (copying.jobs.find? (fun j => j.engine == 0 && j.state == .queued && j.leader.isNone) =
        some { job0 with state := .queued } ∧ copying.runningJobs 0 < 8) ∧
    (let s := running job0
     s.jobAt? 0 63 = some job0 ∧ job0.goesOn = true ∧ s.runsNow job0 = true ∧ job0.keep = none ∧ 254 < job0.opCount ∧ 254 ∉ job0.performed ∧
       (job0.block.op = 2 ∧ job0.block.doneKind ≠ 2 ∧ job0.nibbles = false ∧ job0.opElems 254 = [[254, 0, 0, 0]]) ∧
       (job0.dst.space = 1 ∧ job0.dst.inside (job0.dstOf [254, 0, 0, 0]) = true ∧
         0 ≤ job0.dst.addr (job0.dstOf [254, 0, 0, 0])) ∧
       (∃ c, s.jobCrews job0 = [c] ∧ s.coreOpen c.core = true) ∧
       s.jobHas job0 (job0.dst.banked (job0.dst.addr (job0.dstOf [254, 0, 0, 0])).toNat) 1 = true ∧
       s.parkedTile? 0 3 = none) ∧
    (∃ g w, (running job0).gather job0 ⟨[], false, 0, 0, none⟩ [] (job0.opElems 254) = .ok g ∧
      g.1.elemStore job0 g.2.1 g.2.2 = .ok w) ∧
    (let j := { job0 with block := { job0.block with op := 1 }, src := { job0.dst with space := 0, base := 0x80000000000000 } }
     (running j).jobAt? 0 63 = some j ∧ j.goesOn = true ∧
       ∃ t c a, (running j).gather j ⟨[], false, 0, 0, none⟩ [] (j.opElems 0) = .error (.fault t c a)) ∧
    (let j := { job0 with block := { job0.block with op := 1 }, src := { job0.dst with space := 0, base := 0x20000 } }
     let s := (running j).setBar (asent 1) 0xC000000000000000
     s.jobAt? 0 63 = some j ∧ ∃ w k ats t, s.gather j ⟨[], false, 0, 0, none⟩ [] (j.opElems 0) = .error (.wait w k ats) ∧
       s.askUnit w k ats = some t) := by
  refine ⟨⟨rfl, by decide⟩, ⟨rfl, by decide, by decide, rfl, by decide, by decide, by decide, by decide, ⟨_, rfl, by decide⟩,
    by decide, by decide⟩, ⟨_, _, rfl, rfl⟩, ⟨rfl, by decide, _, _, _, rfl⟩, rfl, _, _, _, _, rfl, rfl⟩

/-- Jobs that end done, aborted and faulted. -/
theorem witness_EnginesRun_endings :
    let done := { job0 with performed := List.range 255 }
    let faulted := { job0 with fault := some (0x0B, 5) }
    (∀ j ∈ [done, { job0 with abort := true }, faulted], (running j).jobAt? 0 63 = some j ∧ j.keep = none ∧
      j.block.scale = 0 ∧ j.block.status = false ∧ j.block.doneKind = 0) ∧
    (running done).ending? done = some .done ∧
    (running { job0 with abort := true }).ending? { job0 with abort := true } = some .aborted ∧
    (let s := running faulted
     s.ending? faulted = some .faulted ∧ (∃ t, s.strand? faulted.owner = some t ∧ t.live = true ∧ t.events.length < 8) ∧
       s.jobs.filter (fun k => (k.engine == 0 && k.slot == 63) || k.leader == some (0, 63)) = [faulted]) := by
  refine ⟨fun j hj => ?_, by decide +kernel, by decide, by decide, ⟨_, rfl, by decide, by decide⟩, rfl⟩
  simp only [List.mem_cons, List.not_mem_nil, or_false] at hj
  rcases hj with rfl | rfl | rfl <;> exact ⟨rfl, rfl, by decide, by decide, by decide⟩

/-- `ringed` with a claim of samples 0 to 7, of which sample 0 is next, and a keep area of 16 samples. -/
def claiming : State :=
  { ringed with
    ringRegs := [(80, 0xC040020000000000), (81, 0x40000), (82, 0x50000), (84, 8), (85, 4), (89, 0x70004), (90, 0x80004),
      (93, 0x60000), (95, 0x1000000000000)]
    rings := [(5, { RingUnit.fresh ⟨1, 0⟩ with
      stopping := false, started := true, claims := [.fresh 1 0 7 4 0 0 false false] })] }

/-- A row-stream job with no bank, with one that its handle holds, and with none to have; one that idles; keep-copies
with their engine in service and out of it. -/
theorem witness_EnginesRun_banks :
    (let j := { job0 with block := { job0.block with op := 3, box := [2, 1, 1, 1] }, dst := { job0.dst with space := 0, base := 0x20000 } }
     let s := running j
     let held : Bank := ⟨0, 0, j.owner, j.h, none⟩
     s.jobAt? 0 63 = some j ∧ j.goesOn = true ∧ j.bank = false ∧ s.rowStack? j = some 0 ∧
       (s.setBar (asent 1) 0).rowStack? j = none ∧
       ({ s with banks := [held] } : State).banks.findIdx? (fun b : Bank =>
         b.stack == 0 && b.engine == 0 && b.owner == j.owner && b.h == j.h && b.job.isNone) = some 0 ∧
       s.banks = []) ∧
    (let b : Bank := ⟨0, 0, key, 2, none⟩
     ({ base with banks := [b] } : State).banks[0]? = some b) ∧
    (∃ u c, claiming.liveUnit? 5 = some u ∧ claiming.claim? 5 1 = some (u, c) ∧ c.busy = false ∧
      claiming.keepable 5 c c.next = true ∧ claiming.cpState (claiming.keepEngine 5) = 0 ∧
      claiming.clusterState (claiming.keepEngine 5) = 1 ∧ 63 ∈ claiming.freeSlots (claiming.keepEngine 5) ∧
      claiming.jobs = []) ∧
    (let s := claiming.setCp 0 1 0x6000
     s.cpState (s.keepEngine 5) ≠ 0 ∧ ∃ t, s.truncateClaim 5 1 0 = .ok t) :=
  ⟨⟨rfl, by decide, rfl, by decide, by decide, by decide, by decide⟩, rfl,
    ⟨_, _, rfl, rfl, rfl, by decide, by decide, by decide, by decide, rfl⟩, by decide, _, rfl⟩

/-- Keep-copies that copy a sample, whose keep area no address space reaches, and that have copied all. -/
theorem witness_EnginesRun_keeps :
    let j := { job0 with keep := some (5, 1), block := emptyBlock 0 8, dst := ⟨5, 2, 0, 1, 0, [], []⟩ }
    let s := { claiming with jobs := [j], tlb := ⟨2000, 1, 0, 2 ^ 42, 0x3F⟩ :: claiming.tlb }
    (s.jobAt? 0 63 = some j ∧ j.goesOn = true ∧ s.runsNow j = true ∧ s.keepOver j 5 1 = false ∧ ∃ t, s.keepOne j 5 1 [] = .ok t) ∧
    (let u := s.setRing 5 9 0x80000000000004
     ∃ t c a v, u.keepOne j 5 1 [] = .error (.fault t c a) ∧
       ((t.endJob j .faulted).endKeep j 5 1).truncateClaim 5 1 a = .ok v) ∧
    (let d := { j with performed := List.range 8 }
     let u := { s with jobs := [d] }
     u.jobAt? 0 63 = some d ∧ d.keep = some (5, 1) ∧ u.ending? d = some .done) :=
  ⟨⟨rfl, by decide, by decide, by decide, _, rfl⟩, ⟨_, _, _, _, rfl, rfl⟩, rfl, rfl, by decide⟩

/-- Whether an access of ring `n`'s unit at `va` is one of device memory at `a` on a port that is up. -/
def placedAt (s : State) (n : Nat) (acc : Acc) (va : Word) (a : Nat) : Bool :=
  !s.cxlLost a &&
    match s.xlate (s.ringWho n) acc va with
    | .at (.dev x) _ => x == a
    | _ => false

/-- The translation of a unit's access does not read device memory or a ring's unit. -/
theorem throughLeaf_with (s : State) (d : Mem) (r : List (Nat × RingUnit)) (w : Who) (a : Acc) (va : Word) (l : Leaf) :
    ({ s with dev := d, rings := r } : State).throughLeaf w a va l = s.throughLeaf w a va l := by
  unfold State.throughLeaf; rfl

theorem hostAccess_with (s : State) (d : Mem) (r : List (Nat × RingUnit)) (w : Who) (a : Acc) (va : Word) :
    ({ s with dev := d, rings := r } : State).hostAccess w a va = s.hostAccess w a va := rfl

theorem xlate_with (s : State) (d : Mem) (r : List (Nat × RingUnit)) (w : Who) (a : Acc) (va : Word) :
    ({ s with dev := d, rings := r } : State).xlate w a va = s.xlate w a va := by
  unfold State.xlate
  simp only [throughLeaf_with, hostAccess_with]
  rfl

theorem reaches_of {s : State} {n : Nat} {acc : Acc} {va : Word} {a : Nat} (h : placedAt s n acc va a = true) (d : Mem) :
    s.ringReaches n acc va a d := by
  unfold placedAt at h
  split at h
  · rename_i x pin hx
    simp only [Bool.and_eq_true, Bool.not_eq_true', beq_iff_eq] at h
    obtain ⟨hl, rfl⟩ := h
    refine ⟨hl, pin, ?_⟩
    unfold State.ringPlace State.xlateUnit
    rw [show ({ s with dev := d } : State).ringWho n = s.ringWho n from rfl, xlate_with s d s.rings, hx]
  · simp at h

theorem placedAt_rings (s : State) (r : List (Nat × RingUnit)) (n : Nat) (acc : Acc) (va : Word) (a : Nat) :
    placedAt { s with rings := r } n acc va a = placedAt s n acc va a := by
  unfold placedAt
  rw [show ({ s with rings := r } : State).ringWho n = s.ringWho n from rfl, xlate_with s s.dev r]
  rfl

theorem block_of {s : State} {n k : Nat}
    (h : ∀ off, off < 0x380 → (s.storeAddr (k + off) == k + off &&
      placedAt s n .load (s.ringBlock n off) (k + off) && placedAt s n .store (s.ringBlock n off) (k + off)) = true)
    (r : List (Nat × RingUnit)) : ({ s with rings := r } : State).blockAt n k := fun off ho => by
  have e := h off ho
  simp only [Bool.and_eq_true, beq_iff_eq] at e
  exact ⟨k + off, e.1.1, fun d => ⟨reaches_of ((placedAt_rings s r n _ _ _).trans e.1.2) d,
    reaches_of ((placedAt_rings s r n _ _ _).trans e.2) d⟩⟩

/-- A ring that starts, one whose block no address space reaches, and one that the host is to translate. -/
theorem witness_RingsIngest_enabling :
    let u := RingUnit.fresh key
    let s := { ringed with rings := [(5, u)] }
    (s.unit? 5 = some u ∧ s.rgEnabled 5 = true ∧ u.stopping = true ∧ (∃ t, s.startRing 5 u = .ok t)) ∧
    (let s := s.setRing 5 13 0x80000000000000
     ∃ a t, s.unit? 5 = some u ∧ s.startRing 5 u = .error (.fault a) ∧ s.strand? u.owner = some t ∧ t.live = true ∧
       t.events.length < 8) ∧
    (let s := s.setBar (asent 1) 0xC000000000000000
     ∃ k ats t, s.startRing 5 u = .error (.wait k ats) ∧ s.askUnit (s.ringWho 5) k ats = some t) ∧
    (∀ i, i < 12 → placedAt s 5 .load (s.ringBlock 5 (4 * i)) (0x60000 + 4 * i) = true) ∧
    placedAt s 5 .load (s.ringBlock 5 0x030) 0x60030 = true ∧ placedAt s 5 .store (s.ringBlock 5 0x040) 0x60040 = true ∧
    (({ s with dev := s.dev.store 0x60030 [7] false } : State).dev.readWord (s.storeAddr 0x60030) 8 ≠ 0) := by
  refine ⟨⟨rfl, by decide, rfl, _, rfl⟩, ⟨_, _, rfl, rfl, rfl, rfl, by decide⟩, ⟨_, _, _, rfl, rfl⟩, ?_, ?_, ?_, ?_⟩ <;>
    decide +kernel

/-- A ring that stops: with no claim, with one whose header is written, and with one whose header faults. -/
theorem witness_RingsIngest_disabling :
    let c : Claim := .fresh 1 0 7 4 0 0 false false
    let u := { RingUnit.fresh key with started := true, claims := [c] }
    let s := { claiming.setRing 5 0 0x4040020000000000 with rings := [(5, u)] }
    (({ s with rings := [(5, .fresh key)] } : State).unit? 5 = some (.fresh key) ∧ s.rgEnabled 5 = false ∧
      u.stopping = true) ∧
    (s.unit? 5 = some u ∧ u.claims.find? (fun c => !c.busy) = some c ∧ s.headerRoom 5 = true ∧
      ∃ t, s.closeStopped 5 c = .ok t) ∧
    (placedAt s 5 .store (s.headerSlot 5) 0x80000 = true) ∧
    (let s := s.setBar (asent 1) 0xC000000000000000
     ∃ k ats t, s.ringPlace 5 .store (s.headerSlot 5) = .error (.wait k ats) ∧ s.askUnit (s.ringWho 5) k ats = some t) ∧
    ∃ a, (s.setRing 5 10 0x80000000000004).ringPlace 5 .store ((s.setRing 5 10 0x80000000000004).headerSlot 5) =
      .error (.fault a) :=
  ⟨⟨rfl, by decide, rfl⟩, ⟨rfl, by decide, by decide, _, rfl⟩, by decide +kernel, ⟨_, _, _, rfl, rfl⟩, _, rfl⟩

/-- The payload of two samples of 2 bytes from index `first`, a frame of a payload of 36 bytes to UDP port 7, and one
that has been damaged. -/
def payload (magic : Byte) (first : Nat) : List Byte :=
  [magic, 0x53, 1, 0, 0, 0] ++ bytesOf 6 first ++ [2, 0, 0, 0] ++ List.replicate 16 0 ++ [1, 2, 3, 4]
def frame (sample : List Byte) : List Byte :=
  let ip : List Byte := [0x45, 0, 0, 64, 0, 0, 0, 0, 64, 17, 0, 0, 10, 0, 0, 1, 10, 0, 0, 2]
  let bs := List.replicate 12 0 ++ [8, 0] ++ ip ++ [0, 9, 0, 7, 0, 44, 0, 0] ++ sample
  bs ++ bytesOf 4 (crc32 bs).toNat
def damaged : List Byte := setNth (frame (payload 0x50 0)) 77 0xAA

/-- Ring 5 as a PAUSABLE INGEST ring of port 3, stream 0, with samples of 2 bytes; `u` its unit. -/
def ingesting (u : RingUnit) : State :=
  { (ringed.setRing 5 0 0xA04000C000070000).setBar (ckown 3) 0x8000000000000000 with
    rings := [(5, { u with owner := key, stopping := false, started := true })] }

def isOk {α : Type} (r : Except RingErr α) : Bool :=
  match r with
  | .ok _ => true
  | .error _ => false

/-- The ring block of ring 5 is at 0x60000, whatever its unit holds. -/
theorem ingesting_block (u : RingUnit) : (ingesting u).blockAt 5 0x60000 := by
  have h : ∀ off, off < 0x380 → ((ingesting (.fresh key)).storeAddr (0x60000 + off) == 0x60000 + off &&
      placedAt (ingesting (.fresh key)) 5 .load ((ingesting (.fresh key)).ringBlock 5 off) (0x60000 + off) &&
      placedAt (ingesting (.fresh key)) 5 .store ((ingesting (.fresh key)).ringBlock 5 off) (0x60000 + off)) = true := by
    decide +kernel
  exact block_of h _

set_option maxRecDepth 100000 in
/-- A good frame, a frame for no ring, one that is no datagram, a damaged one, one with a wrong header, a stale one. -/
theorem witness_RingsIngest_frames :
    let s := ingesting (.fresh key)
    let late := ingesting { RingUnit.fresh key with expected := 9 }
    let ok := frame (payload 0x50 0)
    datagram? [] = none ∧ fcsOk ok = true ∧
    ((datagram? ok).any fun d => base.ringFor? 3 d == none && d.checksumOk) = true ∧
    (s.frameFate 3 ok = .good 5 (payload 0x50 0) ∧ s.bufferFull 3 5 ok = false ∧
      isOk (s.goodFrame 5 (payload 0x50 0)) = true ∧ (s.unit? 5).isSome = true) ∧
    (s.frameFate 3 damaged = .damaged 5 ∧ isOk ((s.noteDrop 5 0).ringCount 5 RingBlock.droppedFrames 1) = true) ∧
    (s.frameFate 3 (frame (payload 0x51 0)) = .badHeader 5 ∧
      isOk ((s.noteDrop 5 1).ringCount 5 RingBlock.droppedFrames 1) = true) ∧
    (late.frameFate 3 ok = .stale 5 ∧ isOk (late.ringCount 5 RingBlock.staleFrames 1) = true) :=
  ⟨rfl, by decide +kernel, by decide +kernel, by decide +kernel, by decide +kernel, by decide +kernel, by decide +kernel⟩

/-- The unit of `ingesting` with `m + 1` samples of 2 bytes that wait for a claim of HEAD's position. -/
def waitingUnit (m : Nat) : RingUnit :=
  { RingUnit.fresh key with
    owner := key, stopping := false, started := true
    pending := List.replicate (m + 1) (.sample [1, 2] false), claims := [.fresh 1 0 15 4 0 0 false false] }
def stalled (m : Nat) : State := (ingesting (waitingUnit m)).setRing 5 4 16

theorem stalled_ring (m n i : Nat) : (stalled m).ring n i = (stalled 0).ring n i := rfl

theorem stalled_unit (m n : Nat) : (stalled m).unit? n = if n = 5 then some (waitingUnit m) else none := by
  by_cases h : n = 5
  · subst h; rfl
  · simp [stalled, State.unit?, State.setRing, ingesting, h, Ne.symm h]

theorem stalled_liveUnit (m n : Nat) :
    (stalled m).liveUnit? n = if n = 5 then some (waitingUnit m) else none := by
  have e : (stalled m).rgEnabled 5 = true := by
    rw [show (stalled m).rgEnabled 5 = (stalled 0).rgEnabled 5 from rfl]; decide
  by_cases h : n = 5
  · subst h; simp [State.liveUnit?, stalled_unit, e, waitingUnit]
  · simp [State.liveUnit?, stalled_unit, h]

theorem stalled_frameFate (m : Nat) (bs : List Byte) : (stalled m).frameFate 3 bs = (stalled 0).frameFate 3 bs := by
  have hr : ∀ d, (stalled m).ringFor? 3 d = (stalled 0).ringFor? 3 d := fun d => by
    have h : ∀ n, ((stalled m).liveUnit? n).isSome = ((stalled 0).liveUnit? n).isSome := fun n => by
      by_cases h : n = 5 <;> simp [stalled_liveUnit, h]
    unfold State.ringFor?; simp only [h]; rfl
  unfold State.frameFate
  simp only [hr, stalled_ring m, stalled_unit]
  split
  · rfl
  · split
    · rfl
    · rename_i n _
      by_cases h : n = 5 <;> simp [h, waitingUnit]

theorem stalled_portUsed (m : Nat) : (stalled m).portUsed 3 = 2 * (m + 1) := by
  have hp : (stalled m).rgProgram 5 = false := by
    rw [show (stalled m).rgProgram 5 = (stalled 0).rgProgram 5 from rfl]; decide
  have hb : fieldOf ((stalled 0).ring 5 0) 40 38 = 3 ∧ sampleBytes (fieldOf ((stalled 0).ring 5 0) 43 41) = 2 := by decide
  simp [State.portUsed, stalled_liveUnit, stalled_ring m, List.range, List.range.loop, hp, hb, waitingUnit,
    List.countP_replicate]

theorem stalled_block (m : Nat) : (stalled m).blockAt 5 0x60000 := by
  have h : ∀ off, off < 0x380 → ((stalled 0).storeAddr (0x60000 + off) == 0x60000 + off &&
      placedAt (stalled 0) 5 .load ((stalled 0).ringBlock 5 off) (0x60000 + off) &&
      placedAt (stalled 0) 5 .store ((stalled 0).ringBlock 5 off) (0x60000 + off)) = true := by decide +kernel
  exact block_of h _

set_option maxRecDepth 100000 in
/-- A good frame that finds the port's 4 MiB full. -/
theorem witness_RingsIngest_full :
    let s := stalled (2 ^ 21)
    let bs := frame (payload 0x50 0)
    s.frameFate 3 bs = .good 5 (payload 0x50 0) ∧ s.unit? 5 = some (waitingUnit (2 ^ 21)) ∧ s.bufferFull 3 5 bs = true ∧
      isOk ((s.openGap 5 ((idxDiff 0 (waitingUnit (2 ^ 21)).expected).toNat + 2) 3).bind fun s =>
        s.ringCount 5 RingBlock.droppedFrames 1) = true := by
  have hb : ∀ m k, 2 ^ 22 < 2 * (m + 1) + k → (stalled m).writerStalled 5 = true →
      decide ((stalled m).writerStalled 5 && decide (2 ^ 22 < (stalled m).portUsed 3 + k)) = true := fun m k h hw => by
    rw [stalled_portUsed, hw, Bool.true_and]; exact decide_eq_true (decide_eq_true h)
  have h : 2 ^ 22 < 2 * (2 ^ 21 + 1) + (frame (payload 0x50 0)).length := by omega
  have hw : (stalled (2 ^ 21)).writerStalled 5 = true := by decide +kernel
  have hf : (stalled 0).frameFate 3 (frame (payload 0x50 0)) = .good 5 (payload 0x50 0) := by decide +kernel
  exact ⟨(stalled_frameFate _ _).trans hf, by rw [stalled_unit]; exact if_pos rfl,
    of_decide_eq_true (hb _ _ h hw), by decide +kernel⟩

/-- Where the next sample, its bit and every position of ring 5 go; a sample that seeds a candidate and one that cannot;
a bitmap that no address space reaches; a delivery to a tile of the partition and one to a tile of another. -/
theorem witness_RingsWrite_places :
    (let s := ingesting (.fresh key)
     placedAt s 5 .load (s.ring 5 2 + num (8 / 8)) 0x50001 = true ∧ placedAt s 5 .store (s.ring 5 2 + num (8 / 8)) 0x50001 = true ∧
       placedAt s 5 .store (s.ring 5 1 + num (8 * 2)) 0x40010 = true ∧ s.rgHead 5 = 8 ∧ s.rgSize 5 = 2) ∧
    (let s := ingesting (.fresh key)
     ∀ i, i < 16 → placedAt s 5 .store (s.ring 5 1 + num (i * 2)) (0x40000 + 2 * i) = true ∧
         placedAt s 5 .store (s.ring 5 2 + num (i / 8)) (0x50000 + i / 8) = true) ∧
    ((ingesting (.fresh key)).rgType 5 = 0 ∧ (ingesting (.fresh key)).ring 5 8 = 0 ∧
      ((ingesting (.fresh key)).setRing 5 8 0x8000000000000000).ring 5 8 = 0x8000000000000000) ∧
    (let val := elemVal (elemOf 0) (packedElem [1, 2] (typeWidth 0) 0)
     let limit := absVal (Fmt.f32.decode (fieldOf 0x8000000000000000 31 0))
     val.isNan = false ∧ limit.isNan = false ∧ ltVal (absVal val) limit = false) ∧
    (let s := ingesting (.fresh key)
     (RingUnit.fresh key).queue 0 = [] ∧ 0 < s.rgDepth 5 0) ∧
    (let s := (ingesting (.fresh key)).setRing 5 2 0x80000000000000
     ∃ a, s.ringPlace 5 .load (s.ring 5 2 + num (s.rgHead 5 % s.rgN 5 / 8)) = .error (.fault a)) ∧
    (let s := (ingesting (.fresh key)).setRing 5 7 (gtOf 0 7)
     s.targetDenied (s.ringWho 5).part (s.ringWho 5).secure (s.ring 5 7) = none ∧
       (s.targetDenied (s.ringWho 5).part (s.ringWho 5).secure 0xFFF0E00000000000).isSome = true) :=
  ⟨by decide +kernel, by decide +kernel, by decide, by decide +kernel, by decide, ⟨_, rfl⟩, by decide⟩

/-- A sample and gaps that are written, one that meets a fault, a delivery that is sent and one that is not, a vacancy
notice, and a claim that closes. -/
theorem witness_RingsWrite :
    (∀ p ∈ [Pending.sample [1, 2] true, .gap 1 2, .gap 3 2, .gap 16 2],
      let u := { RingUnit.fresh key with stopping := false, started := true, pending := [p] }
      let s := ingesting u
      ∃ v, s.liveUnit? 5 = some v ∧ v.pending = [p] ∧ s.writerStalled 5 = false ∧ s.rgN 5 = 16 ∧
        isOk ((s.setUnit 5 { v with pending := [] }).writeSample 5 [1, 2] false) = true ∧
        isOk ((s.setUnit 5 { v with pending := [] }).jumpHead 5 16) = true) ∧
    (let s := (ingesting { RingUnit.fresh key with pending := [.sample [1, 2] true] }).setRing 5 1 0x80000000000000
     ∃ u a, s.liveUnit? 5 = some u ∧ s.ringFaultAt? 5 u = some a) ∧
    (∀ b, let d : Due := ⟨1, 1, b⟩
      let s := ingesting { RingUnit.fresh key with due := [d] }
      ∃ u, s.liveUnit? 5 = some u ∧ u.due = [d] ∧ d.send = b ∧
        isOk ((s.setUnit 5 { u with due := [] }).ringCount 5 (levelCounter 0 RingBlock.deadSamples) (s.rgBlock 5)) = true) ∧
    (let s := (ingesting (.fresh key)).setRing 5 6 0x0070000000000000
     s.ring 5 6 ≠ 0 ∧ s.isOwnNode (gtNode (s.ring 5 6)) = false) ∧
    (let s := claiming.setUnit 5 { RingUnit.fresh key with
       stopping := false, started := true, claims := [{ Claim.fresh 1 0 7 4 0 0 false false with next := 8 }] }
     ∃ u c, s.liveUnit? 5 = some u ∧ u.claims.find? (fun c => c.id == 1) = some c ∧ s.claimDone 5 c = true ∧
       isOk (s.writeHeader 5 u c c.last) = true ∧ placedAt s 5 .store (s.headerSlot 5) 0x80000 = true) := by
  refine ⟨fun p hp => ?_, ⟨_, _, rfl, rfl⟩, fun b => ?_,
    by decide, _, _, rfl, rfl, by decide, by decide, by decide +kernel⟩
  · simp only [List.mem_cons, List.not_mem_nil, or_false] at hp
    rcases hp with rfl | rfl | rfl | rfl <;> exact ⟨_, rfl, rfl, by decide, by decide, by decide, by decide⟩
  · cases b <;> exact ⟨_, rfl, rfl, rfl, by decide⟩

/-- `up` with the controller of cluster 0 in the state given, its RAIL_CTL and MODE as given. -/
def control (st qctl : Nat) (p : Pulse) (railCtl : Word) : State :=
  ({ up with crews := [], pulses := [(0, p)] }.setCp 0 1 (num (st * 0x1000 + 7))).setCp 0 0 (num qctl) |>.setCp 0 3 railCtl

/-- The rows of each state of a controller (R381), with the pulses and bits that select them. -/
theorem witness_ControllersMove_rows :
    (let s := control 0 3 ⟨false, false, true⟩ 0x8000000000000000
     s.cpState 0 = 0 ∧ s.cpDenial 0 = 0 ∧ (s.pulse? 0).map (·.rise) = some true ∧
       ((s.setBar (clpart 0) 0x8000000000000000).cpDenial 0 ≠ 0)) ∧
    ((control 1 2 .none 0).cpState 0 = 1 ∧ ((control 1 2 .none 0).cp 0 0).getLsbD 0 = false) ∧
    ((control 2 1 .none 0).cpState 0 = 2 ∧ ((control 2 1 .none 0).cp 0 0).getLsbD 0 = true ∧
      ((control 2 1 .none 0).cp 0 0).getLsbD 1 = false) ∧
    (control 5 2 .none 0).cpState 0 = 5 ∧ (control 8 2 .none 0x8000000000000000).cpState 0 = 8 ∧
    ((control 5 0 .none 0).cp 0 3).getLsbD 63 = false ∧ (control 7 0 .none 0).cpState 0 = 7 ∧
    ((control 6 0 .none 0x8000000000000000).cpState 0 = 6 ∧ 0 ∉ (control 6 0 .none 0x8000000000000000).railHeld) ∧
    ((control 1 3 .none 0).clusterIdle 0 = true ∧
      ∀ d ∈ (control 1 3 .none 0).crewsOf 0, d.onCore = false ∧ d.place ≠ .gone) ∧
    ((control 3 1 .none 0).cpState 0 = 3 ∧ (control 3 1 .none 0).cpImage? 0 = some 0 ∧
      ((control 3 1 .none 0).setCp 0 2 0xFFFFFFFFFF000).cpImage? 0 = none) ∧
    (control 4 1 .none 0).cpState 0 = 4 ∧ (control 9 1 .none 0).cpState 0 = 9 ∧
    ((control 2 3 ⟨true, false, false⟩ 0).pulse? 0 = some ⟨true, false, false⟩ ∧
      (((control 2 3 ⟨false, true, false⟩ 0).setCp 0 1 0x200F).cp 0 1).getLsbD 3 = true) ∧
    ((control 0 0 ⟨true, false, false⟩ 0).pulse? 0 = some ⟨true, false, false⟩) ∧
    ((control 2 3 ⟨true, false, false⟩ 0).cpRow? 0 = some .save ∧ (0 < 96 ∧ up.reachesCluster (.fn 0) 0 = true ∧ up.ready 0 = true ∧ up.barOpen (.fn 0) = true)) := by
  decide

theorem witness_ControllersMove_jobs :
    let s := { control 1 3 .none 0 with jobs := [job0] }
    s.jobAt? 0 63 = some job0 ∧ s.cpState 0 = 1 ∧ job0.state = .running ∧ job0.abort = false :=
  ⟨rfl, by decide, rfl, rfl⟩

/-- A core with no crew, a partition that is not being torn down, a stack in two states of its map-out, a Welt link, a
rail with a part in service, power-up, each kind of part that is brought up, and requests at each stage of SPDM. -/
theorem witness_PackageServes :
    (∀ c ∈ up.crews, c.core ≠ 1535 ∨ c.onCore = false) ∧ (up.dispatcher 15).tearing = false ∧
    (7 * 2 ^ 36 + 16 * 2 ^ 32 - 64) % 64 = 0 ∧
    7 * 2 ^ 36 + 16 * 2 ^ 32 - 64 < 7 * 2 ^ 36 + up.barField (stackReg 7 0) 4 0 * 2 ^ 32 ∧
    ((up.bar (stackReg 7 0x10)).getLsbD 63 = true ∧ up.ready 17 = true) ∧
    (∀ n ∈ [1, 2], let s := up.setBar (stackReg 7 8) (num (n * 2 ^ 60 + 0xF1))
      s.barField (stackReg 7 8) 62 60 = n ∧ s.barField (stackReg 7 8) 7 4 = s.barField (stackReg 7 0) 4 0 - 1 ∧
        s.barField (stackReg 7 8) 0 0 = 1 ∧ s.barField (stackReg 7 0) 4 0 ≤ 16 ∧
        ∀ x, x < 16 → mapGet x (16 * 7 + x) s.layers < 16) ∧
    (up.ready 7 = true ∧ up.ready (railBit (.edge 1)) = true ∧ up.ready (railBit (.cxl 1)) = true) ∧
    (up.boot.step = 0 ∧ ({ up with boot := { up.boot with step := 9 } } : State).boot.step ≠ 0) ∧
    (∀ p ∈ [(1, BringPart.rom), (2, .nyset), (5, .hbm 7), (7, .cxl 1), (8, .cluster 95)],
      let s : State := { up with boot := { up.boot with step := p.1 } }
      p.2 ∈ bringParts s.boot.step ∧ p.2 ∉ s.boot.settled ∧ s.partEnds p.2 true = true ∧ s.boot.recovery = false) ∧
    (let s : State := { up.setCp 95 1 0x6001 with boot := { up.boot with step := 8 } }
     s.partEnds (.cluster 95) false = true ∧ up.partEnds (.cxl 1) false = true ∧ State.reset.me.key = ⟨0, 0⟩) ∧
    (104 % 2 ^ 16 < 105 ∧ 105 ≤ 105 % 2 ^ 16) ∧
    (up.ready 41 = true ∧ base.ready 41 = false ∧ 3 ≤ ({ up with boot := { up.boot with spdm := 3 } } : State).boot.spdm) ∧
    (∀ c ∈ [0x84, 0xE1, 0xE3, 0x81, 0x82, 0x83, 0xE0],
      fieldAt [0x13, BitVec.ofNat 8 c, 0, 4] 1 1 = c ∧ fieldAt [0x13, BitVec.ofNat 8 c, 0, 4] 2 1 = 0 ∧
        fieldAt [0x13, BitVec.ofNat 8 c, 0, 4] 3 1 ≤ 4) := by decide

/-! ### Decoding, issue, and what the whole machine keeps -/

/-- A guard that is off; a word with Q = 0 and QN = 1; a compare that writes the guard c3; a fetched word that is none.
-/
theorem witness_GuardedOff :
    (base.guardOn g5 = false ∨ base.guardOn ⟨false, 5⟩ = false) ∧
    ((0x0000000200000001 : Word).extractLsb' 30 3 = 0 ∧ (0x0000000200000001 : Word).getLsbD 33 = true) ∧
    CDone (.pandn g0 ⟨3, 1, 1⟩) base 3 False 0 ∧
    (let s := State.reset.withFetchWord 64 0
     s.agenda = [] ∧ s.issuable = true ∧ ∃ bs t e, s.fetch = .bytes bs t ∧ decode bs = .error e ∧ t.me.inHandler = false) :=
  ⟨by decide, by decide, ⟨_, rfl, ⟨by decide, by decide, by decide, by decide⟩,
    ⟨rfl, rfl, fun _ _ => ⟨rfl, rfl⟩, fun _ _ => ⟨rfl, rfl⟩, by decide, fun _ _ => rfl, by decide, fun _ => ⟨rfl, rfl, rfl⟩⟩,
      by decide⟩,
    by decide, by decide, _, _, _, rfl, rfl, rfl⟩

theorem witness_IllegalWords :
    base.me.inHandler = false ∧ decodeWord 0x0000000000000000 0 = .error .major ∧
    decodeWord 0x00000088001C6148 0 = .error .function := ⟨by decide, by rfl, by rfl⟩

/-- The NOP at the program counter of `base` issues, from a device line its core then holds; with the agenda naming the
strand too. A word of zeros is illegal there, and an unmapped PC stops the fetch. -/
theorem witness_StepRunsDecoded :
    (base.agenda = [] ∧ base.issuable = true ∧ State.reset.issuable = false) ∧
    (∃ bs t, base.fetch = .bytes bs t ∧ decode bs = .ok (.nop g0, [])) ∧
    (∃ bs t, (State.reset.withFetchWord 64 0).fetch = .bytes bs t ∧ decode bs = .error .major) ∧
    (∃ u e, (base.onMe fun t => { t with pc := 0x80000000000000 }).fetch = .stop u e) ∧
    (∃ acc c, base.checkPlace .fetch base.me.pc 0 .fetch = .pass acc ∧ acc.place.isTile = false ∧
      acc.place.isRemote = false ∧ (∀ a, acc.place = .dev a → base.cxlLost a = false) ∧
      ((base.noteCxl acc.place (acc.asid.getD 0) acc.pin).fill (.core base.me.core) acc.place.line ([], [])).copy?
        (.core base.me.core) acc.place.line = some c ∧
      (c.read acc.place 8).2 = false ∧ isLong (wordOfBytes (c.read acc.place 8).1) = false) ∧
    (let t := base.select key
     t.issuable = true ∧ t.me.key = key) :=
  ⟨by decide, ⟨_, _, rfl, rfl⟩, ⟨_, _, rfl, rfl⟩, ⟨_, _, rfl⟩,
    ⟨_, _, rfl, by decide, by decide, fun a h => by cases h; decide, rfl, by decide, by decide⟩, by decide⟩

theorem witness_ResetValues : (7 : Nat) < 8 ∧ (0x300000 : Nat) ≠ 0x200 ∧
    ∀ d, d < 8 → 0x300000 ≠ stackReg d 0 ∧ 0x300000 ≠ stackReg d 0x10 := by decide

/-- A state whose step writes memory: an XCHG that has reached the head of its queue performs. -/
theorem witness_StepKeepsInvariant :
    let s := { heading base (.atomic ⟨.xchg, at_ (.dev 0x20000), true, 1, 0, false, none, 0x10000, .plain, .die⟩) with
      agenda := [.event (.atomicPerform key 2 .none)] }
    s.memWf ∧ ∃ t, step s = .next t ∧ t.dev.read 0x20000 = 1 := by
  refine ⟨⟨by decide, by decide, by decide⟩, _, rfl, by decide⟩

/-- MOVL with its literal, and a word that decodes. -/
theorem witness_DecodeEncode :
    (Instr.movl g0 ⟨63, .allOnes 64⟩).wf = true ∧ (∃ ws, encode (.movl g0 ⟨63, .allOnes 64⟩) = some ws ∧ ws.length = 2) ∧
    ∃ i, decodeWord 0x00000000001C6148 0 = .ok i := ⟨by decide, ⟨_, rfl, rfl⟩, _, rfl⟩

/-! ### Worked examples of the spec -/

def after (o : Host.Outcome State Fault Refusal) : State :=
  match o with
  | .next t => t
  | .fault _ | .refused _ => State.reset

/-- 06: FCVTI.i32.f32 of 3.0e9; FCVTI.n32.f32 of −0.5 under .rtz. -/
theorem test_fcvti :
    (let t := after (exec (.fcvti g0 ⟨7, 5, .f32, .rne, .i32⟩) (withX base 5 0x4F32D05E false))
     t.xr 7 = 0x7FFFFFFF ∧ t.me.fpflags = 0x01) ∧
    (let t := after (exec (.fcvti g0 ⟨7, 5, .f32, .rtz, .n32⟩) (withX base 5 0xBF000000 false))
     t.xr 7 = 0 ∧ t.me.fpflags = 0x10) := by decide +kernel

/-- 03: chain E of MMA's sixteen groups stays at 2^24, chain O reaches 8. -/
theorem test_mma_order :
    mmaValue .f16 .f16 0x4B800000 ((List.range 64).map fun i => if i % 4 = 0 then 0x3C00 else 0)
      (List.replicate 64 0x3C00) = 0x4B800004 := by decide +kernel

/-- 03: BF16 1,000.0 and −2,000.0 under SC20 2.0. -/
theorem test_quantise :
    ((quantise .e4m3 .bf16 .rne false 0x40000 0x447A).code, (quantise .e4m3 .bf16 .rne false 0x40000 0xC4FA).code) =
      (0x7E, 0xFE) := by decide +kernel

/-- 07: VMOVI.f32 of 1.5. -/
theorem test_vmovi :
    let t := after (exec (.vmovi g0 ⟨6, 0x7F800, .f32, 0⟩) base)
    laneAt (t.vr 6) 0 = 0x3FC00000 ∧ laneAt (t.vr 6) 63 = 0x3FC00000 := by decide +kernel

/-- 07: VCVT.e4m3.f32.rne v5, v2, k0, part=1, sat=k1. -/
theorem test_vcvt :
    let v := ((((base.vr 2).set 0 0x447A0000).set 1 0x3E99999A).set 2 0xC0200000).set 3 0x3A83126F
    let t := after (exec (.vcvt g0 ⟨5, 2, 0, .e4m3, .f32, .fixed .rne, false, 1, 1⟩) (base.onMe fun m => m.setV 2 v 0))
    laneAt (t.vr 5) 16 = 0x01C22A7E ∧ laneAt (t.vr 5) 17 = 0 ∧ t.kr 1 = 0x10000 ∧ t.me.fpflags = 0x1C := by
  decide +kernel

/-- 03 and 07: one VBDOT lane, and VBDOTS over it alone; a NaN scale. -/
theorem test_vbdots :
    let lane := fun (r : VReg) (w : Lane) (s : State) => s.onMe fun m => m.setV r ((m.vr r).set 0 w) 0
    let s := lane 3 0x0000453C (lane 2 0x7B1C9642 (lane 1 0x25F03A17 (base.onMe fun m => m.setK 1 1)))
    (after (exec (.vbdot g0 ⟨4, 1, 2, 3, .e5m2, 1⟩) s)).vr 4 = (s.vr 4).set 0 0x40700000 ∧
    (after (exec (.vbdots g0 ⟨7, 1, 2, 3, .e5m2, 1⟩) s)).xr 7 = 0x40700000 ∧
    (after (exec (.vbdots g0 ⟨7, 1, 2, 3, .e5m2, 1⟩) (lane 3 0x0000457E s))).xr 7 = 0x7FC00000 := by decide +kernel

/-- 08: the elements of ZSTS.e4m3.rne under SC20 2.0. -/
theorem test_zsts_elements :
    ([0x447A0000, 0xC4FA0000, 0x3FC00000].map fun c =>
      ((quantise .e4m3 .f32 .rne false 0x40000 c).code, (quantise .e4m3 .f32 .rne false 0x40000 c).sat)) =
      [(0x7E, true), (0xFE, true), (0x34, false)] := by decide +kernel

/-- 02: two arrivals in one cycle at ARRIVED = EXPECT − 1 overrun; one completes the phase. -/
theorem test_arrivals_together :
    let s := { arriving base with bars := [(3, ⟨0, 5, 4, false, 0, 0⟩)] }
    let one := after (exec (.barrierItemPerform key ⟨2, []⟩) s)
    let two := after (exec (.barrierItemPerform key ⟨2, [.item key 1]⟩) s)
    one.barrier 0 3 = ⟨1, 5, 0, false, 0, 0⟩ ∧ (two.barrier 0 3).poison = true ∧ (two.barrier 0 3).phase = 0 := by decide

/-- 09: the life of a tile, by its TSTAT words. -/
theorem test_tile_words :
    let e : BagEntry := ⟨4, [], some key, gtOf 0 4, none, List.replicate 128 1, List.replicate 32 false, 0, false, none, none,
      .plain, .domain⟩
    let land := fun s : State => after (exec (.deliver 4 .here) { s with bag := [e] })
    let s2 := land (land base)
    let s3 := after (exec (.tarm g0 ⟨.imm 4, 2, 0⟩) s2)
    let s4 := land s3
    let s5 := after (exec (.tagItemPerform key 2) (heading s4 (.tag ⟨.take, 4, 4, .die⟩)))
    (s2.tag 0 4).word = 0x0201 ∧ (s3.tag 0 4).word = 0x020A ∧ (s4.tag 0 4).word = 0x420A ∧ (s5.tag 0 4).word = 0x4008 ∧
      ((land s5).tag 0 4).word = 0x4109 := by decide +kernel

/-- 09: the fields of a tile's address; the address that BANKXOR 3 makes of 0x290. -/
theorem test_tile_addresses :
    (gtNode 0x01104EA000023000, gtCore 0x01104EA000023000, gtTile 0x01104EA000023000) = (0x011, 16 * (12 * 2 + 7) + 5, 35) ∧
    Layout.banked ⟨0, 1, 0, 1, 3, [], []⟩ 0x290 = 0x2C0 := by decide

/-- 20: layer 6 of stack 3 is mapped out; HBCAP then gives 15 ranges. -/
theorem test_mapout :
    let s := after (exec (.mapoutGo .insole 3 6) up)
    let t := after (exec (.mapoutSwitch 3) (after (exec (.vacated .insole 3) s)))
    s.bar (stackReg 3 8) = 0x9000000000000060 ∧ t.bar (stackReg 3 0) = 0x40000F := by decide +kernel

end Sys2Proof.Tests
end

section
/-!
SUPPORT. Guards: what an instruction does whose guard is off, and the guard of a word (R106); the trap of a word that
is no instruction (R105, R131); the trap of an instruction, as its handler finds it (R336).
-/

namespace Sys2Proof

/-- The guard of an instruction that a word encodes; a step of the machine has none (R52, R106). -/
def Instr.guard? : Instr → Option Guard
  | .nop g | .brk g | .eret g | .roinv g | .exit g | .yield g
  | .trap g _ | .srd g _ | .swr g _ | .fence g _ | .fencer g _ | .chk g _ | .chkv g _ | .tlbi g _ | .waiti g _
  | .jmp g _ | .call g _ | .jr g _ | .callr g _ | .ret g _ | .movl g _ | .add g _ | .sub g _ | .and g _
  | .or g _ | .xor g _ | .andn g _ | .orn g _ | .shl g _ | .shr g _ | .sar g _ | .rol g _ | .ror g _ | .mul g _
  | .mulh g _ | .mulhn g _ | .madd g _ | .div g _ | .divn g _ | .rem g _ | .remn g _ | .min g _ | .max g _
  | .minn g _ | .maxn g _ | .sel g _ | .clz g _ | .ctz g _ | .pop g _ | .brev g _ | .bswap g _ | .sext g _
  | .zext g _ | .bfx g _ | .bfi g _ | .iopiAdd g _ | .iopiAnd g _ | .iopiOr g _ | .iopiXor g _ | .iopiShl g _
  | .iopiShr g _ | .iopiSar g _ | .iopiRol g _ | .iopiRor g _ | .iopiMul g _ | .iopiMin g _ | .iopiMax g _
  | .iopiMinn g _ | .iopiMaxn g _ | .iopiSext g _ | .iopiZext g _ | .iopiBfx g _ | .iopiBfi g _ | .cmpEq g _
  | .cmpNe g _ | .cmpLt g _ | .cmpGe g _ | .cmpLe g _ | .cmpGt g _ | .cmpLtn g _ | .cmpGen g _ | .cmpLen g _
  | .cmpGtn g _ | .cmpTst g _ | .cmpNtst g _ | .cmpiEq g _ | .cmpiNe g _ | .cmpiLt g _ | .cmpiGe g _
  | .cmpiLe g _ | .cmpiGt g _ | .cmpiLtn g _ | .cmpiGen g _ | .cmpiLen g _ | .cmpiGtn g _ | .cmpiTst g _
  | .cmpiNtst g _ | .movw g _ | .movk g _ | .lea g _ | .pand g _ | .por g _ | .pxor g _ | .pandn g _
  | .pnot g _ | .psetx g _ | .xgetp g _ | .fadd g _ | .fsub g _ | .fmul g _ | .ffma g _ | .fdiv g _
  | .fsqrt g _ | .fmin g _ | .fmax g _ | .fabs g _ | .fneg g _ | .fcvti g _ | .fcvtf g _ | .fcvtw g _
  | .fclass g _ | .feq g _ | .flt g _ | .fle g _ | .fun_ g _ | .ld g _ | .st g _ | .atomXchg g _ | .atomCas g _
  | .atomAdd g _ | .atomAnd g _ | .atomOr g _ | .atomXor g _ | .atomMin g _ | .atomMax g _ | .atomMinn g _
  | .atomMaxn g _ | .atomFadd g _ | .atomFmin g _ | .atomFmax g _ | .atomIncw g _ | .atomDecw g _ | .vld g _
  | .vlds g _ | .vldb g _ | .vst g _ | .vsts g _ | .vgather g _ | .vscatter g _ | .vscadd g _ | .prefetchDc g _
  | .prefetchCs g _ | .tld g _ | .tldv g _ | .tldvs g _ | .tst g _ | .tstv g _ | .tstvs g _ | .mma g _
  | .mmaReg g _ | .mmas g _ | .mmasReg g _ | .zzero g _ | .zld g _ | .zst g _ | .zsts g _ | .zbias g _
  | .tarm g _ | .twait g _ | .ttake g _ | .tstat g _ | .tmark g _ | .tpois g _ | .tscls g _ | .tsclg g _
  | .tzero g _ | .tsend g _ | .tsendv g _ | .tsendx g _ | .tnote g _ | .hfork g _ | .hjoin g _ | .hjoina g _
  | .hwait g _ | .hpass g _ | .hrecv g _ | .hcnt g _ | .barinit g _ | .bararr g _ | .bararx g _ | .barexp g _
  | .barwait g _ | .bartry g _ | .barinv g _ | .spawn g _ | .park g _ | .cpygo g _ | .cpystat g _
  | .cpyabort g _ | .layset g _ | .layget g _ | .rgput g _ | .rgread g _ | .rgpos g _ | .trgnext g _
  | .trgfwd g _ | .trgacc g _ | .trgrej g _ | .trgmark g _ | .vadd g _ | .vsub g _ | .vmul g _ | .vmulh g _
  | .vmadd g _ | .vand g _ | .vor g _ | .vxor g _ | .vshl g _ | .vshr g _ | .vsar g _ | .vmin g _ | .vmax g _
  | .vabs g _ | .vneg g _ | .vadds g _ | .vsubs g _ | .vpop g _ | .vclz g _ | .vdot4 g _ | .vsel g _
  | .vfadd g _ | .vfsub g _ | .vfmul g _ | .vffma g _ | .vffms g _ | .vfmin g _ | .vfmax g _ | .vfabs g _
  | .vfneg g _ | .vfdiv g _ | .vfsqrt g _ | .vfrcp g _ | .vfrsq g _ | .vfexp2 g _ | .vflog2 g _ | .vfscl g _
  | .vcvt g _ | .vcvtsc g _ | .vperm g _ | .vbcast g _ | .vins g _ | .vext g _ | .vred g _ | .vscan g _
  | .vcomp g _ | .vexpd g _ | .vslide g _ | .vcmpEq g _ | .vcmpNe g _ | .vcmpLt g _ | .vcmpGe g _ | .vcmpLe g _
  | .vcmpGt g _ | .vcmpLtn g _ | .vcmpGen g _ | .vcmpLen g _ | .vcmpGtn g _ | .vcmpTst g _ | .vcmpNtst g _
  | .vcmpFeq g _ | .vcmpFlt g _ | .vcmpFle g _ | .vcmpFun g _ | .vrand g _ | .vmov g _ | .vmovi g _
  | .viota g _ | .kand g _ | .kor g _ | .kxor g _ | .knot g _ | .ksetx g _ | .kgetx g _ | .kpop g _
  | .vbdot g _ | .vbdots g _ => some g
  | _ => none

/-- The bytes of an instruction, MOVL's with its literal (R104, R113). -/
def Instr.bytes : Instr → Word
  | .movl _ _ => 16
  | _ => 8

end Sys2Proof

namespace Sys2Proof.Machine

/-! ### Guarded off -/

/-- Guarded off, an instruction is counted and PC moves past its length: every meaning of an encoded instruction is
the frame of R105, whose first question is the guard. -/
theorem exec_guardedOff {i : Instr} {g : Guard} {s : State} (h : i.guard? = some g) (hg : s.guardOn g = false) :
    exec i s = .next (s.countIssue.advance i.bytes) := by
  have off : (!s.guardOn g) = true := by rw [hg]; rfl
  cases i <;> cases h <;> exact if_pos off

/-- A guarded-off instruction ends as if it were not there: no register and nothing else changes. -/
theorem ended_onlyRegs_of_guardedOff {i : Instr} {g : Guard} {s : State} (h : i.guard? = some g)
    (hg : s.guardOn g = false) :
    ∃ t, exec i s = .next t ∧ Ended s t i.bytes ∧ OnlyRegs s t [] [] [] [] 0 := by
  refine ⟨_, exec_guardedOff h hg, ?_⟩
  exact onlyRegs_of id (fun _ => rfl) (fun _ => rfl) (fun _ => rfl) (fun _ _ _ => ⟨rfl, rfl⟩)
    (fun _ _ _ => ⟨rfl, rfl⟩) (fun _ _ _ => rfl) (fun _ _ _ => rfl) fun _ => (bv_or_zero _).symm

/-! ### The guard -/

theorem guardOn_iff (s : State) (g : Guard) : s.guardOn g = true ↔ s.cr g.c ≠ g.neg := bne_iff_ne

/-- c0 reads 1 (R11), so the guard of Q = 0 and QN = 0 is on. -/
theorem guardOn_c0 (s : State) : s.guardOn ⟨false, 0⟩ = true := by
  rw [guardOn_iff, State.cr, Strand.cr_zero]; decide

/-- After an instruction that writes `b` into a condition register other than c0, that register's guard is on just
where `b` holds, and its negation just where `b` does not. -/
theorem CDone.guardOn {i : Instr} {s : State} {d : CReg} {b : Prop} {fl : Flags} (h : CDone i s d b fl) (hd : d ≠ 0) :
    ∃ t, exec i s = .next t ∧ (t.guardOn ⟨false, d⟩ = true ↔ b) ∧ (t.guardOn ⟨true, d⟩ = true ↔ ¬ b) := by
  obtain ⟨t, ht, -, -, hc⟩ := h
  have hb : t.cr d = true ↔ b := hc.trans (or_iff_right hd)
  exact ⟨t, ht, by simpa [guardOn_iff] using hb, by simpa [guardOn_iff] using not_congr hb⟩

/-- A word decodes only where its guard can execute (check 6 of R131). -/
theorem guard_ok_of_decodeWord {w lit : Word} {i : Instr} (h : decodeWord w lit = .ok i) :
    (Fields.ofWord w).guard.ok = true := by
  simp only [decodeWord] at h
  split at h
  · cases h
  · split_ifs at h with _ _ _ hg
    simpa using hg

/-- Q = 0 with QN = 1 is a guard that never executes. -/
theorem guard_not_ok {w : Word} (hq : w.extractLsb' 30 3 = 0) (hn : w.getLsbD 33 = true) :
    (Fields.ofWord w).guard.ok = false := by
  have hqn : w.extractLsb' 33 1 = 1#1 := by
    ext i hi
    obtain rfl : i = 0 := by omega
    simpa using hn
  simp [Guard.ok, Fields.guard, Fields.ofWord, hqn, hq]

theorem decodeWord_error_of_guard {w : Word} (lit : Word) (hq : w.extractLsb' 30 3 = 0) (hn : w.getLsbD 33 = true) :
    ∃ e, decodeWord w lit = .error e := by
  cases h : decodeWord w lit with
  | error e => exact ⟨e, rfl⟩
  | ok i => exact absurd (guard_ok_of_decodeWord h) (by simp [guard_not_ok hq hn])

/-! ### The trap of a word that is no instruction -/

/-- Reading the wait words again changes launches alone (R314). -/
theorem rereadWaits_me (s old : State) : (s.rereadWaits old).me = s.me := by
  unfold State.rereadWaits
  induction s.launches generalizing s with
  | nil => rfl
  | cons l ls ih =>
    rw [List.foldl_cons, ih]
    split
    · rfl
    · dsimp only
      split <;> rfl

/-- A trap with INHANDLER clear is a precise entry into the handler (R336). -/
theorem inHandler_takeTrap {s : State} (cause : Nat) (addr info : Word) (h : s.me.inHandler = false) :
    InHandler s (s.countIssue.takeTrap cause addr info) cause addr info := by
  have e : s.countIssue.takeTrap cause addr info = s.countIssue.enterHandler cause addr info false := by
    rw [State.takeTrap, State.countIssue_me_inHandler, h]; rfl
  have hvec : s.countIssue.trapVec = s.trapVec := countIssue_inv State.trapVec (fun _ _ _ => rfl) s
  have hscratch : s.countIssue.trapScratch = s.trapScratch := countIssue_inv State.trapScratch (fun _ _ _ => rfl) s
  have hinsole : s.countIssue.me.isInsole = s.me.isInsole := by rw [Strand.isInsole, State.countIssue_me_key]; rfl
  rw [e, State.enterHandler, hvec, hscratch]
  exact {
    cause := rfl
    addr := rfl
    info := rfl
    pcSaved := State.countIssue_me_pc s
    prev := congrArg Level.code (State.countIssue_me_level s)
    async := rfl
    inHandler := rfl
    pc := rfl
    level := by rw [← hinsole]; rfl
    x63 := ⟨Strand.xr_setX_self s.countIssue.me 63 s.trapScratch false,
      Strand.xPois_setX_self s.countIssue.me 63 s.trapScratch false⟩
    x := fun r hr => ⟨(Strand.xr_setX_other s.countIssue.me s.trapScratch false hr).trans (State.countIssue_xr s r),
      (Strand.xPois_setX_other s.countIssue.me s.trapScratch false hr).trans (State.countIssue_xPois s r)⟩
    issued := countIssue_issued s
    strand := by
      rw [State.onMe_me, State.countIssue_me]
      split <;> rfl
    rest := rfl
    mem := fun _ => ⟨rfl, rfl, rfl⟩ }

/-- A step that fetches a word that does not decode is the trap ILLEGAL of the executing strand. -/
theorem step_of_decode_error {s t : State} {bs : List Byte} {e : DecodeError} (ha : s.agenda = [])
    (hi : s.issuable = true) (hf : s.fetch = .bytes bs t) (hd : decode bs = .error e) :
    step s = .next ((t.illegal e.info).rereadWaits s) := by
  simp [step, choose, issueMe, ha, hi, hf, hd]

/-- Settles O52: the meaning of every encoded instruction asks its guard first, the decoder refuses the guard that
never executes, and what the decoder refuses traps before any guard is read. -/
theorem guardedOff : Obligations.GuardedOff := by
  unfold Obligations.GuardedOff
  refine ⟨guardOn_c0, fun w lit => decodeWord_error_of_guard lit, fun i s d b fl => CDone.guardOn, ?_, ?_⟩
  · intro s t bs e ha hi hf hd
    exact ⟨_, step_of_decode_error ha hi hf hd, rereadWaits_me _ _, inHandler_takeTrap (s := t.tick) _ _ _⟩
  · intro s g hg
    simp only [List.forall_mem_cons, List.not_mem_nil, false_imp_iff, implies_true, and_true, forall_and]
    and_intros <;> intros <;> exact ended_onlyRegs_of_guardedOff rfl hg

end Sys2Proof.Machine
end

section
/-!
SUPPORT. Traps: an instruction whose effect is a trap of its own (R105, R152), and where it leaves its strand (R336).
-/

namespace Sys2Proof.Machine

/-- An instruction that names no x or v register never waits for one (R29). -/
@[simp] theorem Strand.pending_nil (t : Strand) : t.pending [] [] = false := rfl

/-- Guarded on with its registers ready, an instruction whose effect is a trap has no other effect (R105). -/
theorem Traps.of_frame {i : Instr} {s : State} {g : Guard} {xs : List XReg} {vs : List VReg} {eff : State → Eff}
    {cause : Nat} {addr info : Word} (he : exec i s = frame g xs vs eff s) (hg : s.guardOn g = true)
    (hp : s.me.pending xs vs = false) (htrap : eff s.countIssue = .trap cause addr info) :
    Traps i s cause addr info := by
  rw [Traps, he, frame_ready eff hg hp, htrap, State.settle]

/-- With INHANDLER clear, the trap of an instruction is a precise entry into the handler (R336). -/
theorem Traps.inHandler {i : Instr} {s : State} {cause : Nat} {addr info : Word} (h : Traps i s cause addr info)
    (hin : s.me.inHandler = false) : ∃ t, exec i s = .next t ∧ InHandler s t cause addr info :=
  ⟨_, h, inHandler_takeTrap cause addr info hin⟩

/-! ### NOP, TRAP and BRK (R152) -/

theorem nothing_nop {s : State} {g : Guard} (hg : s.guardOn g = true) : Nothing (.nop g) s := by
  apply Nothing.of
  rw [exec_nop, execNop, frame_ready _ hg s.me.pending_nil, State.settle]

theorem traps_trap {s : State} {g : Guard} (o : TrapOp) (hg : s.guardOn g = true) :
    Traps (.trap g o) s 0x0C 0 (o.code.setWidth 64) :=
  .of_frame (exec_trap g o s) hg s.me.pending_nil rfl

theorem traps_brk {s : State} {g : Guard} (hg : s.guardOn g = true) : Traps (.brk g) s 0x0D 0 0 :=
  .of_frame (exec_brk g s) hg s.me.pending_nil rfl

/-- Settles O11: none of the three names a register, so guarded on each has its effect at once; the effect of TRAP and
of BRK is a trap, which with INHANDLER clear enters the handler. -/
theorem trapAndBreak : Obligations.TrapAndBreak := by
  unfold Obligations.TrapAndBreak
  intro s g hg
  refine ⟨nothing_nop hg, fun o => traps_trap o hg, traps_brk hg, fun hin o => ⟨?_, ?_⟩⟩
  · exact (traps_trap o hg).inHandler hin
  · exact (traps_brk hg).inHandler hin

end Sys2Proof.Machine
end
